-- ==== Sys2Proof/Word.lean ====
section
/-! DEFINITION. The word types of the block and their plainest arithmetic: saturation, rounding and
narrowing as R10 lays them down, byte order as R9 lays it down, and the CRC-32 of R67. -/

namespace Sys2Proof

/-- A register value: registers are 32 bits wide. -/
abbrev Word := BitVec 32

/-- One byte of memory or of a packet. -/
abbrev Byte := BitVec 8

/-- A BAR0 offset. BAR0 is 16 MiB (R471). -/
abbrev Offset := BitVec 24

/-- `clampInt lo hi x` is `x` held inside `[lo, hi]`. -/
def clampInt (lo hi x : Int) : Int := if x < lo then lo else if hi < x then hi else x

/-- Saturation to an `n`-bit two's-complement value (R10: narrowing saturates). -/
def satS (n : Nat) (x : Int) : Int := clampInt (-(2 ^ (n - 1) : Nat)) ((2 ^ (n - 1) : Nat) - 1) x

/-- Saturation to an `n`-bit unsigned value. -/
def satU (n : Nat) (x : Int) : Nat := (clampInt 0 ((2 ^ n : Nat) - 1) x).toNat

/-- The helper sat16 of R10. -/
def sat16 (x : Int) : Int := satS 16 x

/-- The helper sat40 of R10. -/
def sat40 (x : Int) : Int := satS 40 x

/-- Truncation of R10: an arithmetic right shift, toward minus infinity. -/
def asr (x : Int) (k : Nat) : Int := x.fdiv ((2 ^ k : Nat) : Int)

/-- Division rounded to nearest with ties away from zero (R10). A zero divisor answers zero; no rule
divides by zero through it. -/
def rndDiv (a b : Int) : Int :=
  let q : Int := ((2 * a.natAbs + b.natAbs) / (2 * b.natAbs) : Nat)
  if (a < 0) = (b < 0) then q else -q

/-- `rnd x k`: `x / 2^k` rounded to nearest with ties away from zero (R10). -/
def rndShift (x : Int) (k : Nat) : Int := rndDiv x ((2 ^ k : Nat) : Int)

/-- Bits `[hi:lo]` of a natural number. -/
def bitsOf (x hi lo : Nat) : Nat := x / 2 ^ lo % 2 ^ (hi + 1 - lo)

/-- One bit of a natural number. -/
def bitOf (x i : Nat) : Bool := x / 2 ^ i % 2 == 1

/-- The value of an `n`-bit field read as two's complement. -/
def signOf (n x : Nat) : Int := if x % 2 ^ n < 2 ^ (n - 1) then (x % 2 ^ n : Nat) else (x % 2 ^ n : Nat) - (2 ^ n : Nat)

/-- The two's-complement image of an integer in `n` bits. -/
def unsOf (n : Nat) (x : Int) : Nat := (x % ((2 ^ n : Nat) : Int)).toNat

/-- A natural number with bits `[hi:lo]` replaced by `v`. -/
def setBits (x hi lo v : Nat) : Nat :=
  x / 2 ^ (hi + 1) * 2 ^ (hi + 1) + v % 2 ^ (hi + 1 - lo) * 2 ^ lo + x % 2 ^ lo

/-- 1 for true, 0 for false. -/
def b2n (b : Bool) : Nat := if b then 1 else 0

/-- The little-endian value of a byte list (R9). -/
def leNat : List Byte → Nat
  | [] => 0
  | b :: bs => b.toNat + 256 * leNat bs

/-- `k` little-endian bytes of a value (R9). -/
def leBytes : Nat → Nat → List Byte
  | 0, _ => []
  | k + 1, x => BitVec.ofNat 8 x :: leBytes k (x / 256)

/-- Bytes `[lo, lo + k)` of a record, absent bytes read 0. -/
def bytesAt (r : List Byte) (lo k : Nat) : List Byte :=
  (List.range k).map fun i => r.getD (lo + i) 0

/-- The unsigned little-endian field at `lo`, `k` bytes long. -/
def leAt (r : List Byte) (lo k : Nat) : Nat := leNat (bytesAt r lo k)

/-- The signed little-endian field at `lo`, `k` bytes long. -/
def leSAt (r : List Byte) (lo k : Nat) : Int := signOf (8 * k) (leAt r lo k)

/-- Integer square root, rounded down, by bit trials from bit `k - 1` of the root. -/
def isqrtGo : Nat → Nat → Nat → Nat
  | 0, _, acc => acc
  | k + 1, x, acc => isqrtGo k x (if (acc + 2 ^ k) * (acc + 2 ^ k) ≤ x then acc + 2 ^ k else acc)

/-- floor(sqrt(x)) for `x < 2^160`. -/
def isqrt (x : Nat) : Nat := isqrtGo 80 x 0

/-- One bit step of the reflected CRC-32. -/
def crc32Bit (c : Nat) : Nat := if c % 2 = 1 then (c / 2) ^^^ 0xEDB88320 else c / 2

/-- One byte of the reflected CRC-32. -/
def crc32Byte (c : Nat) (b : Byte) : Nat :=
  (List.range 8).foldl (fun c _ => crc32Bit c) (c ^^^ b.toNat)

/-- The CRC-32 of R67 over a byte list. -/
def crc32 (bs : List Byte) : Nat := (bs.foldl crc32Byte 0xFFFFFFFF) ^^^ 0xFFFFFFFF

end Sys2Proof
end

