-- ==== Sys2Proof/Syntax.lean ====
section
/-! DEFINITION. The commands of the block: one constructor of `Instr` for each row of the table of
operations and events. An operand is what the row's rule lets the outside world, a pin, a link partner or
a requester decide: a requester, an offset, a value, a packet, a measurement, or `edges`, how many edges of the 800 MHz
reference clock pass before the event. -/

namespace Sys2Proof

/-- The six requesters of register accesses (R18). -/
inductive Requester where
  | host
  | pair (p : Fin 4)
  | jtag
  deriving DecidableEq, Repr

/-- An error that the DRAM devices of one position return in one beat of a burst: the beat's number is its
DRAM address divided by 8, the position is 0 to 9, and `xor` is the error of the symbol (R299, R300). -/
structure DramErr where
  beat : Nat
  pos : Fin 10
  xor : Byte
  deriving DecidableEq, Repr

/-- A span of time of the power inputs (R368): VAUX present, every logic rail within its range, PFAIL_N high, the crystal
oscillating. -/
structure PowerSpan where
  vaux : Bool
  rails : Bool
  pfailN : Bool
  crystal : Bool
  us : Nat
  deriving DecidableEq, Repr

/-- How a host-memory read completes (R319). -/
inductive HostResult where
  | data (bytes : List Byte)
  | unsupported
  | abort
  | poisoned
  deriving DecidableEq, Repr

/-- What missed a stage deadline (R48): heads of the propose and finalise stages, the arbitrate stage with
the shared Billets it had resolved and the spots whose checks it had completed by the deadline, laser loops
and stepper loops of the power stage. -/
structure MissSet where
  prop : BitVec 64
  arb : Option (List Nat × BitVec 64)
  fin : BitVec 64
  pwr : BitVec 64
  axl : BitVec 16
  deriving DecidableEq, Repr

/-- The events of the PCIe function that reset its domain (R344, R366). -/
inductive FunctionReset where
  | flr | bmeClear | perst | hotReset | linkDown
  deriving DecidableEq, Repr

/-- Configuration accesses of the host that reset nothing: dwords of the header, MSI-X Enable and Function Mask, AER's
status and First Error Pointer, and the bits of AER's status and of Status [13:12] cleared (R317, R319). -/
inductive ConfigAccess where
  | header (k : Nat)
  | msixControl (on mask : Bool)
  | aerStatus
  | aerPointer
  | aerClear (m : Word)
  | abortClear (m : BitVec 2)
  deriving DecidableEq, Repr

/-- What the host does to the PCIe function: a reset of its domain, clearing Bus Master Enable among them, or another
configuration access. -/
inductive FunctionOp where
  | reset (cause : FunctionReset)
  | config (x : ConfigAccess)
  deriving DecidableEq, Repr

/-- The causes of a module reset (R366, SVC_RST_STATUS). -/
inductive ResetCause where
  | powerFail | module | jtag
  deriving DecidableEq, Repr

/-- The causes of a pair fault (R380). -/
inductive PairCause where
  | mismatch | memUe
  deriving DecidableEq, Repr

/-- What a read or scrub finds in a Crucible word (R311, R313): nothing, a single-bit error, an uncorrectable error, or,
of a word that is held twice, an uncorrectable error in both copies. -/
inductive CrbWord where
  | ok | ce | ue | bothUe
  deriving DecidableEq, Repr

/-- A word of Crucible, by its number, that a unit has read with an error. -/
structure CrbRead where
  word : Nat
  found : CrbWord
  deriving DecidableEq, Repr

/-- A load or store of a lockstep pair (R381, R426). Addresses of `load` and `store` are device DRAM
addresses; `norLoad` is a load through the NOR window at 0x2000_0000 (R372); `pmcLoad` is a load of a PMC register through the window at 0x3000_0000. -/
inductive SvcAccess where
  | load (addr len : Nat)
  | store (addr : Nat) (bytes : List Byte)
  | norLoad (off len : Nat)
  | pmcLoad (off : Nat) (user : Bool)
  /-- Of the service scratchpad (R312), by offset into it, with what the words read hold (R313). -/
  | spadLoad (off len : Nat) (errs : List CrbRead)
  | spadStore (off : Nat) (bytes : List Byte)
  deriving DecidableEq, Repr

/-- A word of the event-log SRAM, of the record of an absolute number, that a read has found with bits in error: one is
corrected, more are not (R416). -/
structure LogErr where
  num : Nat
  bits : Nat
  deriving DecidableEq, Repr

/-- A CSI-2 packet as a port receives it (R199): its header from bit 0 on, the data identifier, the word count or data field,
and the ECC byte with VCX above it; and, of a long packet, its payload and CRC. -/
structure CsiPacket where
  port : Fin 16
  header : BitVec 32
  bytes : List Byte
  crc : BitVec 16
  deriving DecidableEq, Repr

/-- How a CCI transfer fails (R215, R219): in which write, after how many bytes of it acknowledged. -/
structure CciFail where
  write : Fin 8
  acked : Nat
  deriving DecidableEq, Repr

/-- How a head lane's receiver fails (R251): the signal is lost, or the clock; or bits received outside sets and packets,
which may hold code errors. -/
inductive LinkLoss where
  | signal | unlock
  | bits (bs : List Bool)
  deriving DecidableEq, Repr

/-- The current that a shunt comparator of an axis sees (R265), in mA. -/
structure ShuntPeak where
  axis : Fin 8
  ma : Nat
  deriving DecidableEq, Repr

/-- Samples of one phase of an axis, as the island's codes (R259). -/
structure ShuntSamples where
  axis : Fin 8
  phase : Fin 2
  codes : List Int
  deriving DecidableEq, Repr

/-- What the cameras have found of a registration run (R146), in 1/256 pixel: the centroid of each fiducial of the table in
its camera's dark frame, and of each visit's spot, in visit order, where one was found. -/
structure RegFindings where
  marks : List (Option (Int × Int))
  spots : List (Option (Int × Int))
  deriving DecidableEq, Repr

/-- What reaches the device at a tick boundary, and what the tick just closed has met: how long TTU has steered the tick
to be, in billionths of a reference-clock edge, as far as R37 and R42 leave it open; the island's sample sets by axis and phase and
its supply; heads whose Temper cells were not fetched by C; the unit at which the power stage ended; the nodes at
which finalise read an uncorrectable lattice word, by head; the other words of Crucible that units have read with an error; heads
whose message is in progress at the boundary, with the symbols of it sent by then (R245); and errors of the DRAM devices. -/
structure TickIn where
  len : Nat
  samples : List (List (List Int))
  vbus : Nat
  late : BitVec 64
  occ : Nat
  ue : List (Fin 64 × Nat)
  crb : List CrbRead
  cuts : List (Fin 64 × Nat)
  errs : List DramErr
  deriving DecidableEq, Repr

/-- The commands, in the order of the table. -/
inductive Instr where
  /-- REGISTER_WRITE (R12). A write to a register that has no row of its own is checked for alignment, mapping, access, quiescence, lock, ACL and range, then applied or discarded. -/
  | registerWrite (q : Requester) (off : Offset) (be : BitVec 4) (v : Word)
  /-- REFUSED_READ (R12). A misaligned or partial-byte-enable read returns 0x0000_0000, has no side effect, and raises the register-access event with reason 5. -/
  | refusedRead (q : Requester) (off : Offset) (be : BitVec 4)
  /-- RC_READ (R14). An accepted read of an RC register returns its value and clears all of its RC fields. -/
  | rcRead (q : Requester) (off : Offset)
  /-- PAIR_LO_READ (R17). A read of _LO or of a group's first member latches the other members for the requester and opens a latched view. -/
  | pairLoRead (q : Requester) (off : Offset)
  /-- PAIR_HI_READ (R17). A read of another member of a group returns its latched value once while the view is open, or its current value otherwise. -/
  | pairHiRead (q : Requester) (off : Offset)
  /-- PAIR_LO_WRITE (R17). A write to _LO is staged for the requester and closes any open view. -/
  | pairLoWrite (q : Requester) (off : Offset) (v : Word)
  /-- PAIR_HI_WRITE (R17). A write to _HI applies both halves atomically, using the staged _LO half where one exists. -/
  | pairHiWrite (q : Requester) (off : Offset) (v : Word)
  /-- TICK_BOUNDARY (R39). A tick boundary starts a tick whose snapshot, propose, arbitrate, finalise, power and pack stages run against fixed deadlines. -/
  | tickBoundary (i : TickIn)
  /-- DEADLINE_MISS (R48). At a stage deadline, unfinished work of a head or loop is cut off, defaults apply, and the miss is flagged, counted and reported. -/
  | deadlineMiss (m : MissSet)
  /-- REGRID (R44). A write of REGRID requests a regrid, which is accepted with its shadow period and epoch captured, merged, or rejected. -/
  | regrid (q : Requester)
  /-- REGRID_GAP_END (R45). The first tick of the new grid begins at or after the boundary plus 40 µs, ending the regrid gap. -/
  | regridGapEnd (i : TickIn)
  /-- COMMIT_REQ (R54). A write of TTU_COMMIT_REQ sets pending commit bits for SCN, SLD, MPC or HVI. -/
  | commitReq (q : Requester) (v : Word)
  /-- TICK_OUT_PULSE (R62). TICK_OUT rises ADVANCE units before a selected boundary and lasts WIDTH units. -/
  | tickOutPulse
  /-- LAYER_START (R85). At the start boundary of an ARMED Ingot the layer begins if TICK_LOCK is 1 and no layer is RUNNING, or the START completes with missed-start status. -/
  | layerStart
  /-- LAYER_END (R87). At the boundary of T_last + 3, or of T_a + 4 after an abort, the layer ends, the report and completion are posted and a deferred release takes effect. -/
  | layerEnd
  /-- NOP (R337). A NOP descriptor completes with the index of the tick of completion. -/
  | nop (r : Fin 256)
  /-- CHAIN (R334). A CHAIN descriptor executes a block of descriptors step by step and posts one completion for the chain. -/
  | chain (r : Fin 256) (errs : List DramErr)
  /-- COPY (R337). A COPY descriptor checks every destination byte and copies LEN bytes into device DRAM in 4 KiB steps. -/
  | copy (r : Fin 256) (errs : List DramErr)
  /-- LOAD (R82). A LOAD descriptor allocates a lease entry and begins checking the Ingot's header, directory and lists. -/
  | load (r : Fin 256) (errs : List DramErr)
  /-- LOAD_CHECK_COMPLETE (R85). When the load checks end, the lease becomes LOADED and the load completes OK, or the entry frees and the load completes with the reason code. -/
  | loadCheckComplete (r : Fin 256) (errs : List DramErr)
  /-- START (R85). A START descriptor arms a LOADED Ingot for its start tick, or completes at once as refused, busy or missed. -/
  | start (r : Fin 256)
  /-- ABORT (R85). An ABORT descriptor aborts an ARMED or RUNNING layer, forcing lasers off and holding every head. -/
  | abort (r : Fin 256)
  /-- RELEASE (R85). A RELEASE descriptor frees a LOADED lease, or is deferred with LEASE_BUSY while the lease is ARMED or RUNNING. -/
  | release (r : Fin 256)
  /-- SLOT_READY (R91). A staged Billet's records arrive in Crucible and are checked, making its slot ready or the Billet skipped. -/
  | slotReady (i : Fin 16) (billet : Nat) (errs : List DramErr)
  /-- BAR2_WRITE (R320). A BAR2 memory write is translated to device DRAM and written subject to region rights and lease guards. -/
  | bar2Write (x : BitVec 32) (bytes : List Byte) (errs : List DramErr)
  /-- BAR2_READ (R320). A BAR2 read returns device DRAM data, zeros outside the rights, or a poisoned completion on an uncorrectable burst. -/
  | bar2Read (x : BitVec 32) (len : Nat) (errs : List DramErr)
  /-- LATTICE_LOAD (R141). A LATTICE_LOAD descriptor starts copying an image into an inactive bank, or completes at once with a failure code. -/
  | latticeLoad (r : Fin 256)
  /-- LATTICE_LOAD_COMPLETE (R130). When the copy ends, the checked bank becomes READY or returns to EMPTY, and the load completes. -/
  | latticeLoadComplete (r : Fin 256) (errs : List DramErr)
  /-- REGISTER (R144). A REGISTER descriptor starts a registration run that places, images, spots and measures fiducials. -/
  | register (r : Fin 256) (errs : List DramErr)
  /-- REGISTRATION_DONE (R147). A registration run ends, its figures and result record are written and the descriptor completes. -/
  | registrationDone (x : RegFindings)
  /-- FORCED (R157). A Billet whose offer age reaches FORCE_TICKS is granted to its eligible candidate with the lower key, FORCED is set and the grant is counted. -/
  | forced (b : Nat)
  /-- PRI_GAIN (R168). A spot deferred for AGE_LIMIT consecutive ticks gains PRI, stamped with the tick. -/
  | priGain (h : Fin 64)
  /-- PRI_LOSS (R168). A spot with PRI that has been active for AGE_LIMIT ticks loses PRI. -/
  | priLoss (h : Fin 64)
  /-- CLOSE (R183). A CLOSE command taken at the next boundary closes an OPEN loop and initialises its integrator per INIT_MODE. -/
  | loopClose (q : Requester) (m : Fin 128)
  /-- OPEN (R183). An OPEN command taken at the next boundary opens a loop, holding its output, and ends gating. -/
  | loopOpen (q : Requester) (m : Fin 128)
  /-- FB_OPENLOOP (R183). After HOLD_H advancing ticks in FB_HOLD the loop output becomes 0, the loop enters FB_OPEN and an event is raised. -/
  | fbOpenloop (m : Fin 128)
  /-- GATED (R186). After LOST_L advancing ticks in FB_OPEN a laser loop enters GATED, its head's power becomes 0 and its Billets pause. -/
  | gated (h : Fin 64)
  /-- FB_RECOVER (R183). RECOVER consecutive good ticks in FB_HOLD or FB_OPEN re-close the loop. -/
  | fbRecover (m : Fin 128)
  /-- FAIL_OUT (R183). A level 1 loop in FB_OPEN for its hold time writes FAIL_OUT to its destination once. -/
  | failOut (m : Fin 128)
  /-- AXIS_FB_FAULT (R263). A stepper loop in FB_OPEN for LOST_L advancing ticks puts its axis in FAULT with cause FB. -/
  | axisFbFault (a : Fin 8) (p : Fin 2)
  /-- COEFFICIENT_WRITE (R184). A write to a coefficient register is applied while the loop is OPEN, or discarded with BUSY_CLOSED otherwise. -/
  | coefficientWrite (q : Requester) (off : Offset) (v : Word)
  /-- ON_INPUT (R188). A new source value triggers a level 1 loop iteration that writes its output to its destination. -/
  | onInput (m : Fin 128)
  /-- ON_PERIOD (R188). Every PERIOD ticks a level 1 loop iterates and writes its output to its destination. -/
  | onPeriod (m : Fin 128)
  /-- TEMPER_FINALISE (R191). TMP_GRACE ticks after a layer's end boundary, finalisation of the learned Temper map begins. -/
  | temperFinalise
  /-- TEMPER_READY (R191). Finalisation of the learned map completes and READY is set. -/
  | temperReady
  /-- REQ (R193). A write of REQ requests emission release, or clears it so that power is 0 from the next boundary and EMREL de-asserts three ticks later. -/
  | emissionReq (q : Requester) (v : Word)
  /-- EMREL_DELAY_ELAPSED (R193). After EMREL_DELAY with the release asserted, PWR_EN reads 1. -/
  | emrelDelayElapsed
  /-- ESTOP (R194). An ESTOP input leaving its healthy state de-asserts EMREL within 10 µs, sets ESTOP_LATCH, clears REQ and aborts the layer. -/
  | estop (a : Bool) (b : Bool)
  /-- ESTOP_DISC (R194). The two ESTOP inputs disagreeing for longer than DISC_TIME set ESTOP_DISC. -/
  | estopDisc
  /-- ESTOP_LATCH_CLEAR (R194). A W1C write to ESTOP_LATCH or ESTOP_DISC clears it only while both inputs are healthy. -/
  | estopLatchClear (q : Requester) (v : Word)
  /-- ARM (R195). Setting ARM starts the emission watchdog and locks MPC_WDOG_CFG until module reset. -/
  | wdogArm (q : Requester) (v : Word)
  /-- WDOG_KICK (R195). A write of MPC_WDOG_KICK restarts the watchdog period when it carries the expected alternating value, or sets WDOG_EXP otherwise. -/
  | wdogKick (q : Requester) (v : Word)
  /-- WDOG_EXP (R195). The watchdog period elapsing without a kick sets WDOG_EXP, which acts as an ESTOP. -/
  | wdogExp
  /-- TICKMON_EXP (R195). No tick boundary for 1 ms sets TICKMON_EXP, which acts as an ESTOP. -/
  | tickmonExp
  /-- WDOG_EXP_CLEAR (R195). The W1C write that clears WDOG_EXP restarts the watchdog with 0x0000_A55A expected next. -/
  | wdogExpClear (q : Requester) (v : Word)
  /-- LASER_STOP (R196). A write of STOP requests an orderly laser stop: REQ clears, the layer aborts, and EMREL de-asserts at its end. -/
  | laserStop (q : Requester)
  /-- CAM_ENABLE (R203). Writing ENABLE 1 to a pipeline enables the D-PHY and starts the identity read, or sets CFG_ERR. -/
  | camEnable (q : Requester) (p : Fin 16) (v : Word)
  /-- CAM_DISABLE (R203). Writing ENABLE 0 discards a frame in progress, supersedes PEND generations and turns the pipeline OFF. -/
  | camDisable (q : Requester) (p : Fin 16) (v : Word)
  /-- IDENT_COMPLETE (R220). The identity read ends, passing to IDLE with ID_OK or failing to OFF with ID_ERR. -/
  | identComplete (p : Fin 16) (res : Option (List Byte))
  /-- FRAME_START (R205). An accepted FS is stamped, opens a frame, increments FRAME_SEQ, fixes its generation and SOE and commits the SH registers. -/
  | frameStart (p : Fin 16) (id : Byte) (fn : BitVec 16) (ecc : Byte)
  /-- FRAME_END (R203). An accepted FE closes the frame, pads it and starts its pixel stages and features. -/
  | frameEnd (p : Fin 16) (header : BitVec 32)
  /-- LONG_PACKET (R204). A bound long packet is assembled into a line, padded, cut or dropped. -/
  | longPacket (p : Fin 16) (header : Option (BitVec 32)) (bs : List Byte) (crc : BitVec 16)
  /-- FOREIGN_PACKET (R202). A packet outside the binding is dropped, counted and flags FOREIGN. -/
  | foreignPacket (x : CsiPacket)
  /-- FRAME_TMO (R203). FRAME_TMO ticks without a packet close the frame short, set FRAME_TMO and raise an event. -/
  | frameTmo (p : Fin 16)
  /-- FEATURE_RECORD (R213). A closed frame's feature records are computed and posted to the feature ring and to MPC. -/
  | featureRecord (p : Fin 16)
  /-- EXP_COMMIT (R216). A write of COMMIT numbers a new exposure generation as PEND, superseding any PEND one. -/
  | expCommit (q : Requester) (p : Fin 16) (v : Word)
  /-- CCI_TRANSFER_START (R217). A PEND generation begins its CCI transfer in a frame gap when no transfer runs. -/
  | cciTransferStart (p : Fin 16)
  /-- CCI_TRANSFER_COMPLETE (R217). A CCI transfer ends and its generation is set to apply K_LAT frames later, or fails. -/
  | cciTransferComplete (p : Fin 16) (failed : Option CciFail)
  /-- LANE_ENABLE (R232). Writing ENABLE 1 turns a lane's transmitter on and starts sending TS1. -/
  | laneEnable (q : Requester) (l : Fin 76) (v : Word)
  /-- LANE_DISABLE (R232). Writing ENABLE 0 puts the transmitter in electrical idle and the lane in OFF. -/
  | laneDisable (q : Requester) (l : Fin 76) (v : Word)
  /-- RETRAIN (R232). A RETRAIN write takes an ACTIVE lane DOWN with cause SW, or starts training from DOWN. -/
  | retrain (q : Requester) (l : Fin 76) (v : Word)
  /-- TRAINING_SET (R232). A received TS1 or TS2 advances the ALIGN counts that move the lane to TS2 and then to CAPX. -/
  | trainingSet (h : Fin 64) (ts2 : Bool) (lane : Byte × Byte) (sent : Nat)
  /-- CAP (R233). A received CAP message is checked and the CONFIG message is sent, or the lane goes DOWN. -/
  | cap (h : Fin 64) (seq : BitVec 8) (r : List Byte)
  /-- FC (R244). A received FC set acknowledges a packet and grants credit. -/
  | fc (h : Fin 64) (ack : Byte) (crd : Byte × Byte)
  /-- PRS (R235). A probe response is taken into the delay measurement, and after 64 answers the bounds are checked and D_ADV is set. -/
  | prs (h : Fin 64) (chk : Byte) (id : BitVec 7) (th : BitVec 24) (m : Nat)
  /-- PROBE_TIMEOUT (R235). 100 µs without a probe response counts the probe unanswered and sends the next probe. -/
  | probeTimeout (h : Fin 64)
  /-- REMEAS (R235). Every REMEAS ms in ACTIVE the device measures the delay again and flags drift. -/
  | remeas (h : Fin 64)
  /-- STATUS (R242). A received STATUS packet delivers encoder values and head status, and with SYNC set makes the lane ACTIVE. -/
  | status (h : Fin 64) (seq : BitVec 8) (tidx : BitVec 8) (ex : BitVec 24) (ey : BitVec 24) (hstat : BitVec 8)
  /-- SAMPLE (R242). A received SAMPLE packet supplies photodiode samples for a snapshot. -/
  | sample (h : Fin 64) (seq : BitVec 8) (tidx : BitVec 8) (copy : Bool) (pds : List (List Nat))
  /-- PASS_REPLY (R341). A PASS message from a head is the reply to its KLP_PASS and is written to RPL_ADDR. -/
  | passReply (h : Fin 64) (seq : BitVec 8) (bs : List Byte)
  /-- IDLE_ACK (R248). A received IDLE_ACK makes the device send EIE, turn its transmitter off and enter IDLE. -/
  | idleAck (h : Fin 64) (seq : BitVec 8)
  /-- HEAD_FAULT (R243). A received FAULT message logs the head's fault code in an event. -/
  | headFault (h : Fin 64) (seq : BitVec 8) (payload : List Byte)
  /-- MESSAGE_RESEND (R243). A message unacknowledged within 50 µs is resent, up to three times. -/
  | messageResend (h : Fin 64)
  /-- TRAIN_TMO (R232). TRAIN_TMO ms without completing training take the lane DOWN. -/
  | trainTmo (h : Fin 64)
  /-- AUTO_RETRY (R232). RETRY_MS after entering DOWN, with AUTO_RETRY set, the lane sends TS1 and returns to ALIGN. -/
  | autoRetry (h : Fin 64)
  /-- EXIT_FAIL (R232). 50 µs plus 16 tick periods in EXIT without SYNC take the lane DOWN. -/
  | exitFail (h : Fin 64)
  /-- LOS (R251). Loss of signal, receiver unlock or excess code errors take the lane DOWN with cause LOS. -/
  | los (h : Fin 64) (x : LinkLoss)
  /-- UL_TIMEOUT (R251). UL_TMO consecutive ticks without an accepted uplink packet take the lane DOWN. -/
  | ulTimeout (h : Fin 64)
  /-- IDLE (R248). An IDLE write to an ACTIVE lane sends IDLE_REQ, or is discarded. -/
  | idle (q : Requester) (l : Fin 76) (v : Word)
  /-- WAKE (R249). A WAKE write, or an Ingot arming with the head, starts idle exit with XIT, STB and IDL. -/
  | wake (q : Requester) (l : Fin 76) (v : Word)
  /-- INJ_CRC (R254). Setting INJ_CRC inverts the CRC of the next downlink packet of the selected class. -/
  | injCrc (q : Requester) (l : Fin 76) (v : Word)
  /-- INJ_BIT (R254). Setting INJ_BIT flips one bit of the PRBS stream. -/
  | injBit (q : Requester) (l : Fin 76) (v : Word)
  /-- EYE_SCAN_START (R255). Setting START begins an eye-scan point and clears DONE. -/
  | eyeScanStart (q : Requester) (l : Fin 76) (v : Word)
  /-- EYE_SCAN_DONE (R255). After 2^DWELL_LOG2 bits the disagreement count is complete and DONE is set. -/
  | eyeScanDone (l : Fin 76) (count : Word)
  /-- AX_ENABLE (R261). An ENABLE command starts winding measurement, or is refused. -/
  | axEnable (q : Requester) (a : Fin 8)
  /-- AX_DISABLE (R261). A DISABLE command stops the axis and turns its bridges off. -/
  | axDisable (q : Requester) (a : Fin 8)
  /-- AX_STOP (R261). A STOP command flushes the queue and stops the axis at DEC. -/
  | axStop (q : Requester) (a : Fin 8)
  /-- QUICK_STOP (R270). A QUICK_STOP command flushes the queue and starts an emergency stop. -/
  | quickStop (q : Requester) (a : Fin 8)
  /-- HOME (R275). A HOME command starts a search toward HOME_DIR at HOME_VEL. -/
  | axHome (q : Requester) (a : Fin 8)
  /-- CLR_FAULT (R261). A CLR_FAULT command returns a faulted axis to DISABLED. -/
  | clrFault (q : Requester) (a : Fin 8)
  /-- SET_POS (R261). A SET_POS command shifts the position frame so that POS equals HOME_OFS and sets HOMED. -/
  | setPos (q : Requester) (a : Fin 8)
  /-- ACCEPT_POS (R272). An ACCEPT_POS command sets HOMED without changing POS. -/
  | acceptPos (q : Requester) (a : Fin 8)
  /-- WINDING_MEASUREMENT (R273). The winding measurement ends, reporting R and L per phase and moving the axis to RAMP or FAULT. -/
  | windingMeasurement (a : Fin 8) (codes : List Int)
  /-- RAMP_COMPLETE (R262). After RAMP_TICKS ticks the amplitude ramp ends and the axis moves on. -/
  | rampComplete (a : Fin 8)
  /-- STILL (R271). STILL_MS at rest with an empty queue open the loops and apply the standstill mode. -/
  | still (a : Fin 8)
  /-- PUSH (R266). A write of PUSH copies the move shadow values into the staging list, or is discarded with STAGE_OVF. -/
  | axPush (q : Requester) (a : Fin 8)
  /-- LIMIT (R274). A limit port becoming active while moving toward it starts an emergency stop and faults the axis. -/
  | limit (a : Fin 8)
  /-- HOME_LATCH (R275). The first active transition of HOME_PORT latches P_L and opens the debounce window. -/
  | homeLatch (a : Fin 8)
  /-- DEBOUNCE_END (R275). The debounce window ends and homing succeeds, records a glitch, or fails on chatter. -/
  | debounceEnd (a : Fin 8)
  /-- HOME_RANGE_EXCEEDED (R275). HOME_RANGE microsteps without a confirmed edge stop the search with HOME_FAIL. -/
  | homeRangeExceeded (a : Fin 8)
  /-- OVERCURRENT (R265). A shunt comparator trip sets the axis gates low within 1 µs and faults the axis. -/
  | overcurrent (x : ShuntPeak)
  /-- VBUS_UV (R260). VBUS below VBUS_UV makes the island unpowered and turns every bridge off. -/
  | vbusUv (mv10 : Nat)
  /-- ISLAND_POWERED (R260). VBUS above VBUS_UV + 1 V for 10 ms powers the island again and ramps enabled axes. -/
  | islandPowered (mv10 : Nat)
  /-- VBUS_OV (R260). VBUS above VBUS_OV turns every bridge off within 2 µs and faults every enabled axis. -/
  | vbusOv (mv10 : Nat)
  /-- MOVED_UNPOWERED (R272). Shunt current above MOVE_DET_MA in four samples while standing or unpowered clears HOMED and raises an event. -/
  | movedUnpowered (x : ShuntSamples)
  /-- TAB_DATA (R278). A write of HVI_TAB_DATA stores one microstep table entry and increments the address. -/
  | tabData (q : Requester) (v : Word)
  /-- EFP_ENABLE (R283). Writing ENABLE 1 to a field port starts its loop measurement, or sets CFG_ERR. -/
  | efpEnable (q : Requester) (p : Fin 24) (v : Word)
  /-- EFP_DISABLE (R283). Writing ENABLE 0 puts the port at high impedance and in OFF. -/
  | efpDisable (q : Requester) (p : Fin 24) (v : Word)
  /-- DIAG (R283). A DIAG write moves a running port back to loop measurement. -/
  | diag (q : Requester) (p : Fin 24) (v : Word)
  /-- DIAG_COMPLETE (R290). The loop measurement ends, writing LOOP_R and RESULT and moving the port to RUN. -/
  | diagComplete (p : Fin 24) (r : Nat) (cur : Nat) (near : Bool)
  /-- REARM (R283). A REARM write at least 100 ms after a trip moves the port to DIAG, or is discarded with REARM_REJ. -/
  | rearm (q : Requester) (p : Fin 24) (v : Word)
  /-- GOVERNOR_TRIP (R284). A current, voltage or energy trip puts the port at high impedance and in TRIPPED. -/
  | governorTrip (p : Fin 24) (ua : List Nat) (mv : List Nat)
  /-- CONVERSION (R279). A port conversion produces a new measured value and feeds a level 1 loop. -/
  | conversion (p : Fin 24) (raw : Int) (open_ : Bool) (cj : Option Int)
  /-- DRY_TRANSITION (R281). A contact transition is stamped and delivered to limits and homing without debouncing. -/
  | dryTransition (p : Fin 24) (mv : Nat) (ua : Nat)
  /-- PATROL_SCRUB (R305). Patrol scrub reads the next burst, writing back a corrected one or reporting an uncorrectable one. -/
  | patrolScrub (errs : List DramErr)
  /-- REFRESH (R307). All-bank refresh runs every 3.9 µs, or 1.95 µs when hot. -/
  | refresh (k : Fin 2) (hot : Bool)
  /-- DQS_CHECK (R308). Every 4 ms each channel runs an interval-oscillator check, or defers it during a layer. -/
  | dqsCheck (k : Fin 2) (drift : Int)
  /-- FULL_RETRAINING (R309). A needed full retraining starts at a layer gap and retrains one channel at a time. -/
  | fullRetraining
  /-- RH_THROTTLE (R310). A bank reaching THRESH activations throttles the top requester and raises an event. -/
  | rhThrottle (k : Fin 2) (bank : Fin 32) (acts : List (Fin 32 × Nat))
  /-- CRUCIBLE_SCRUB (R314). Crucible scrub reads the next word, correcting or reporting errors by region. -/
  | crucibleScrub (w : CrbWord)
  /-- RING_ENABLE (R323). Writing ENABLE 1 enables a ring with its indices at 0, or is discarded with ENABLE_REJ. -/
  | ringEnable (q : Requester) (r : Fin 256)
  /-- RING_DISABLE (R344). Writing ENABLE 0 stops fetching, abandons unbegun descriptors and detaches outstanding completions. -/
  | ringDisable (q : Requester) (r : Fin 256)
  /-- SQ_TAIL (R325). A doorbell write of SQ_TAIL makes new request entries available, or is discarded with DB_ERR. -/
  | sqTail (q : Requester) (r : Fin 256) (v : Word)
  /-- CQ_HEAD (R325). A doorbell write of CQ_HEAD frees completion slots, or is discarded with DB_ERR. -/
  | cqHead (q : Requester) (r : Fin 256) (v : Word)
  /-- REC_CONS (R325). A doorbell write of REC_CONS frees record slots of a stream ring, or is discarded with DB_ERR. -/
  | recCons (q : Requester) (r : Fin 256) (v : Word)
  /-- DESCRIPTOR_FETCH (R328). The engine fetches request entries when the completion ring has room for what it owes. -/
  | descriptorFetch (r : Fin 256) (errs : List DramErr)
  /-- WRITE_BACK (R326). The write-back block is written after a batch of completions, and at least every 100 µs while indices change. -/
  | writeBack (r : Fin 256)
  /-- MSIX_MESSAGE (R329). A pending interrupt condition is delivered as an MSI-X message at the end of its moderation spacing. -/
  | msixMessage (v : Fin 64)
  /-- HOST_TMO (R319). A host-memory read without a completion for 50 ms fails its descriptor. -/
  | hostTmo (id : Nat)
  /-- HOST_READ_COMPLETION (R319). A completion for a host-memory read returns data, or fails its descriptor on an error or poison. -/
  | hostReadCompletion (id : Nat) (res : HostResult) (errs : List DramErr)
  /-- REG_WRITE (R339). A REG_WRITE descriptor performs up to three register writes and an optional commit. -/
  | regWrite (r : Fin 256) (errs : List DramErr)
  /-- ASSAY (R430). An ASSAY descriptor checks its parameters and starts a calibration run. -/
  | assay (r : Fin 256) (ref : Nat) (errs : List DramErr)
  /-- KLP_PASS (R341). A KLP_PASS descriptor sends a PASS message to a head and awaits its reply. -/
  | klpPass (r : Fin 256) (errs : List DramErr)
  /-- NO_REPLY (R341). No PASS reply within 10 ms completes the KLP_PASS with NO_REPLY. -/
  | noReply (h : Fin 64)
  /-- AX_MOVE (R342). An AX_MOVE descriptor stages a move and sets the HVI commit bit. -/
  | axMove (r : Fin 256)
  /-- AX_CMD (R342). An AX_CMD descriptor issues an axis command that completes at the boundary that takes it. -/
  | axCmd (r : Fin 256)
  /-- FRAME_BUF (R343). A FRAME_BUF descriptor posts a frame buffer for a pipeline. -/
  | frameBuf (r : Fin 256)
  /-- NET_TX (R343). A NET_TX descriptor sends a frame, optionally requesting a transmit timestamp. -/
  | netTx (r : Fin 256) (errs : List DramErr)
  /-- NET_RX (R343). A NET_RX descriptor posts a receive buffer for a port. -/
  | netRx (r : Fin 256)
  /-- FUNCTION_LEVEL_RESET (R344). An FLR, clearing Bus Master Enable or another PCIe function reset disables host-owned rings and resets BAR2_BASE and MSI-X. -/
  | functionLevelReset (x : FunctionOp)
  /-- RECEIVE_FRAME (R349). A received Ethernet frame is filtered, timestamped and delivered to a posted buffer, or dropped. -/
  | receiveFrame (p : Fin 4) (bytes : List Byte) (edges : Nat)
  /-- FRAME_TRANSMITTED (R343). A transmitted frame leaves the port, its timestamp is queued, and its NET_TX completes. -/
  | frameTransmitted (p : Fin 4) (edges : Nat)
  /-- LINK_LOST (R349). Loss of an Ethernet link truncates a frame in transmission and completes it with LINK_DOWN. -/
  | linkLost (p : Fin 4)
  /-- POP (R359). A write of POP removes the head entry of the transmit timestamp queue. -/
  | txtsPop (q : Requester) (p : Fin 4)
  /-- TIME_SET (R353). A write of a seconds _HI register sets a time triple at one edge and clears the fraction. -/
  | timeSet (q : Requester) (d : Option (Fin 2)) (v : Word)
  /-- DOM_STEP (R354). A write of TTU_DOM_STEP adds a signed number of nanoseconds to a domain clock. -/
  | domStep (q : Requester) (d : Fin 2) (v : Word)
  /-- DOM_ENABLE (R355). Writing ENABLE starts judging a domain in ACQUIRE, or turns it OFF. -/
  | domEnable (q : Requester) (d : Fin 2) (v : Word)
  /-- DOM_UPDATE (R355). A write of TTU_DOM_UPDATE judges a domain's offset and moves it between ACQUIRE and LOCKED. -/
  | domUpdate (q : Requester) (d : Fin 2) (v : Word)
  /-- LOSS (R355). A write of LOSS moves a LOCKED domain to HOLDOVER. -/
  | domLoss (q : Requester) (d : Fin 2)
  /-- HOLDOVER (R355). UPD_MS without an update move a LOCKED domain to HOLDOVER and set HOLD. -/
  | holdover (d : Fin 2)
  /-- DOMAIN_LOST (R355). HOLD_S in HOLDOVER move the domain to LOST and set LOST. -/
  | domainLost (d : Fin 2)
  /-- DOM_SEL (R356). A write of TTU_DOM_SEL requests an active domain and sets automatic switching. -/
  | domSel (q : Requester) (v : Word)
  /-- PPS_OUT_PULSE (R361). PPS_OUT rises when the selected time reaches a whole second less ADVANCE. -/
  | ppsOutPulse (edges : Nat)
  /-- PPS_IN (R362). A PPS_IN rising edge is stamped with the local clock and counted. -/
  | ppsIn (edges : Nat)
  /-- POWER_ON_RESET (R368). Power-on reset is released 10 ms after every supply condition holds, and boot begins. -/
  | powerOnReset (bootsel : Fin 8) (spans : List PowerSpan)
  /-- PFAIL (R369). A PFAIL_N fall lasting 1 µs starts the power-fail sequence: laser stop, axis stops and log flush. -/
  | pfail
  /-- MODULE_RESET (R366). Module reset returns the Module domain to reset values and de-asserts EMREL. -/
  | moduleReset (cause : ResetCause) (bootsel : Fin 8)
  /-- MODULE (R366). A write of MODULE in SVC_RST_CTRL requests a module reset. -/
  | svcModule (q : Requester)
  /-- BLOCK_RESET (R367). A write to SVC_BLK_RST resets a quiescent block, or is discarded. -/
  | blockReset (q : Requester) (v : Word)
  /-- DRAM_TRAINED (R371). Both DRAM channels finish training, INIT_DONE is set and boot moves to the first source. -/
  | dramTrained (ok0 : Bool) (ok1 : Bool)
  /-- IMAGE_CHECK (R375). An image check ends, handing off to firmware with locks applied or recording the failure code. -/
  | imageCheck (norErr : Option Nat) (errs : List DramErr)
  /-- GO (R373). A write of GO with LEN starts the check of a mailbox boot image. -/
  | bootGo (q : Requester) (v : Word)
  /-- MAILBOX_TIMEOUT (R375). No GO within the mailbox wait fails the source with TIMEOUT. -/
  | mailboxTimeout
  /-- OTP_MIN_VER (R376). OTP command 0x1 raises the minimum security version. -/
  | otpMinVer (q : Requester)
  /-- OTP_REVOKE (R376). OTP command 0x2 revokes a key slot. -/
  | otpRevoke (q : Requester) (k : Fin 4)
  /-- OTP_PROGRAM_KEY (R376). OTP command 0x3 programs an empty key slot from JTAG. -/
  | otpProgramKey (q : Requester) (k : Fin 4)
  /-- OTP_COMMAND_DONE (R376). An OTP command finishes within 2 ms and BUSY falls. -/
  | otpCommandDone
  /-- LOCK (R377). A write of SVC_LOCK locks lock groups until module reset. -/
  | svcLock (q : Requester) (v : Word)
  /-- PAIR_FAULT (R380). A lockstep mismatch or uncorrectable memory error halts a pair and disables its rings. -/
  | pairFault (p : Fin 4) (cause : PairCause)
  /-- RUN (R380). A RUN write starts a halted pair at SVC_PAIR_ENTRY. -/
  | pairRun (q : Requester) (v : Word)
  /-- HALT (R385). A HALT write halts a pair as for a pair fault, without FAULT. -/
  | pairHalt (q : Requester) (v : Word)
  /-- H2F_SEND (R383). H2F_SEND sets H2F_FULL and interrupts the chosen pair. -/
  | h2fSend (q : Requester) (v : Word)
  /-- H2F_ACK (R383). H2F_ACK clears H2F_FULL. -/
  | h2fAck (q : Requester) (v : Word)
  /-- F2H_SEND (R383). F2H_SEND sets F2H_FULL and sends MSI-X vector F2H_VEC. -/
  | f2hSend (q : Requester) (v : Word)
  /-- F2H_ACK (R383). F2H_ACK clears F2H_FULL. -/
  | f2hAck (q : Requester) (v : Word)
  /-- ERASE (R386). An ERASE operation erases a 64 KiB NOR sector, or is refused with NOR_ERR. -/
  | norErase (q : Requester)
  /-- PROGRAM (R386). A PROGRAM operation programs 256 bytes into a NOR page, or is refused with NOR_ERR. -/
  | norProgram (q : Requester)
  /-- NOR_OPERATION_DONE (R386). A NOR erase or program ends and BUSY falls. -/
  | norOperationDone (ok : Bool)
  /-- DSP_ENABLE (R389). Writing ENABLE 1 powers AUX and begins sink detection, or ENABLE 0 turns the output OFF. -/
  | dspEnable (q : Requester) (n : Fin 2) (v : Word)
  /-- SINK_DETECT (R388). HPD high for 100 ms reads DPCD and EDID and makes the output READY. -/
  | sinkDetect (n : Fin 2) (res : Option (List Byte × List Byte))
  /-- HPD_IRQ (R389). An HPD IRQ showing a lane out of lock blanks video and retrains. -/
  | hpdIrq (n : Fin 2) (status : Vector Byte 3)
  /-- UNPLUG (R389). HPD low for 2 ms turns the main link off and returns the output to DETECT. -/
  | unplug (n : Fin 2)
  /-- RETRY (R389). A RETRY write returns an output in LINK_FAIL to DETECT. -/
  | dspRetry (q : Requester) (n : Fin 2) (v : Word)
  /-- TRAINING_COMPLETE (R389). DisplayPort training ends, starting video or failing the link. -/
  | trainingComplete (n : Fin 2) (ok : Bool)
  /-- DSP_COMMIT (R392). A write of DSP_COMMIT requests transfer of the display SH registers, replacing any pending request. -/
  | dspCommit (q : Requester) (n : Fin 2)
  /-- VERTICAL_BLANKING (R392). A vertical blanking takes a pending commit, checks CRC rectangles and may extend for low refresh. -/
  | verticalBlanking (n : Fin 2) (errs : List DramErr)
  /-- UNDERRUN (R396). A scanout FIFO running empty shows BG for the rest of the line and is counted. -/
  | underrun (n : Fin 2) (x : Nat) (y : Nat)
  /-- COAL_WINDOW_END (R407). An open event record's coalescing window ends and it is committed to the RAM ring. -/
  | coalWindowEnd (edges : Nat)
  /-- INTAKE_LOST (R406). An event finding the intake queue full is lost, counted and reported. -/
  | intakeLost
  /-- FLUSH (R411). A flush, by write or by pending count, age or severity, writes last-gasp and pending records to the NOR log. -/
  | flush (w : Option (Requester × Word))
  /-- NOR_PAGE_PROGRAMMED (R410). A log page program and its verify complete. -/
  | norPageProgrammed (res : Fin 3)
  /-- NOR_SECTOR_ERASED (R410). A log sector erase completes. -/
  | norSectorErased (ok : Bool)
  /-- LOG_UE (R416). An uncorrectable RAM-ring word loses its record and writes LOG_UE to the last-gasp file. -/
  | logUe (x : LogErr)
  /-- NOR_EN (R417). Writing NOR_EN 1 after a NOR failure erases the next sector and resumes logging. -/
  | norEn (q : Requester) (v : Word)
  /-- LG_POP (R415). A write of LG_POP removes the oldest last-gasp entry. -/
  | lgPop (q : Requester)
  /-- RD_IDX (R419). A write of EVR_RD_IDX loads one record from the RAM ring or a NOR slot. -/
  | rdIdx (q : Requester) (v : Word)
  /-- RD_LOADED (R419). The requested record is loaded into EVR_RD_REC and VALID is set. -/
  | rdLoaded
  /-- CLR_RAM (R420). CLR_RAM flushes and then clears the RAM ring. -/
  | clrRam (q : Requester) (v : Word)
  /-- CLR_NOR (R420). CLR_NOR erases every log sector and resets the write position. -/
  | clrNor (q : Requester) (v : Word)
  /-- SNAP (R424). A SNAP write copies every counter into the snapshot registers at the next boundary. -/
  | snap (q : Requester) (v : Word)
  /-- FREEZE (R424). A FREEZE write stops or resumes counting at a boundary. -/
  | freeze (q : Requester) (v : Word)
  /-- COUNTER_WRAP (R421). A counter wrapping modulo 2^48 sets its PMC_OVF bit and raises an event. -/
  | counterWrap (b : Fin 19) (i : Fin 16)
  /-- ASSAY_PHASE_DONE (R432). An Assay phase's settle and samples end, advancing the channel or the run. -/
  | assayPhaseDone (sum : Int)
  /-- ASSAY_ABORT (R436). A write of ABORT ends the run at the end of the phase in progress. -/
  | assayAbort (q : Requester)
  /-- RAIL_SAMPLE (R439). Every 100 µs each rail is sampled and crossings of LOW or HIGH are flagged. -/
  | railSample (r : Fin 8) (mv : Nat)
  /-- RAIL_FAULT (R440). A rail outside its range for 50 µs starts the power-fail sequence. -/
  | railFault
  /-- TEMP_CONVERSION (R441). Every 1 ms the temperature sites are converted and excluded sites flagged. -/
  | tempConversion (vs : List (Option Int))
  /-- THERMAL_EVALUATION (R442). Every 1 ms the thermal manager evaluates TMAX and enters or leaves levels. -/
  | thermalEvaluation
  /-- UL_CRC (R251). An uplink packet with a code error, a bad CRC, an invalid type or length, or an unknown message opcode is discarded; UL_CRC and CODE_ERR are set, it is counted, and no FC is sent. -/
  | ulCrc (h : Fin 64) (rd : Bool) (gs : List (BitVec 10))
  /-- PRBS_LOCK (R253). The PRBS checker sets LOCK after 64 error-free bits and from then counts bit errors in LNK_PRBS_ERR. -/
  | prbsLock (l : Fin 76) (bs : List Bool)
  /-- PRBS_LOCK_LOSS (R253). The PRBS checker loses LOCK after 32 errors in 64 bits. -/
  | prbsLockLoss (l : Fin 76) (bs : List Bool)
  /-- LINK_UP (R349). An Ethernet port's link comes up, with auto-negotiation or the SGMII exchange complete; LINK_UP, SPEED and AN_DONE are updated and LINK_CHG is set. -/
  | linkUp (p : Fin 4) (speed : Fin 3)
  /-- OUT_PERIOD_START (R282). At the start of each OUT_PER period, an OUT-mode port loads the duty last written and switches its source on for that fraction of the period. -/
  | outPeriodStart (p : Fin 24)
  /-- RH_WINDOW_END (R310). A 32 ms row-hammer window ends: activation counts restart and a throttled requester's spacing is lifted. -/
  | rhWindowEnd (k : Fin 2)
  /-- SERVICE_CLUSTER_ACCESS (R381). A load or store by a lockstep pair to DRAM or the PMC window is performed, or raises a store or load access fault because of store windows, lease guards, poisoned data or PMC_USER_EN, with SVC_FAULT set where a lease guard is hit. -/
  | serviceClusterAccess (p : Fin 4) (x : SvcAccess) (errs : List DramErr)
  /-- FULL_RETRAINING_DONE (R309). A full DRAM retraining of a channel completes: waiting requests resume, TRAINING clears, drift resets, and the devices' error-check-and-scrub counts are reported in an event. -/
  | fullRetrainingDone (counts : List Nat)
  deriving DecidableEq, Repr

end Sys2Proof
end

