-- ==== Sys2Proof/Config.lean ====
section
/-! DEFINITION. What an implementation fixes, and the free values. A free value has no body: nothing can
evaluate it, so a statement about it holds for every value it may take. -/

namespace Sys2Proof.Config

/-- DESIGN CHOICE (log entry 3): a value that the spec leaves open, drawn afresh for each number of the
state's `fresh` counter. -/
opaque freeValue : Nat → Nat

/-- The drift fit of a registration run (R147) where the least squares have no single solution, the measured fiducials'
commands lying on one line: the six terms fitted, from the commands and the command errors in 1/(2^24 · 125) of 1/16 LSB.
DESIGN CHOICE (log entry 4). -/
opaque registrationFit : List ((Int × Int) × (Int × Int)) → List Int

/-- RECOVER of level 1 loops (R183), for which no register exists. DESIGN CHOICE (log entry 13). -/
opaque levelOneRecover : Nat

/-- Temperature in 0.01 °C of a thermocouple (R279) outside the span of its reference function, where none is stated:
type N or not, voltage in 0.5 µV, cold junction in 0.01 °C. DESIGN CHOICE (log entry 14). -/
opaque tcTemperature : Bool → Int → Int → Int

/-- Vendor ID and Revision ID of the PCIe configuration header, which the spec does not give. DESIGN CHOICE (log entry
103). -/
opaque vendorId : BitVec 16

@[inherit_doc vendorId]
opaque revisionId : BitVec 8

/-- Sub-tick units in a second: one is an edge of the 800 MHz reference clock, 1.25 ns (R40). -/
def unitsPerSecond : Nat := 800000000

end Sys2Proof.Config
end

