-- ==== Sys2Proof/Machine/RegMap.lean ====
section
/-! DEFINITION. The register map: every register of the index of R474, with its BAR0 offset, its series
(strides of units and members), its reset value and which of its bits are written, cleared or read how
(R11). A series is one row. Offsets, reset values and access codes are those of the register and field
tables of R3, R35, R63, R97, R98, R125, R127, R150, R173, R197, R198, R224 to R226, R257, R258, R277,
R278, R291, R292, R315, R316, R346, R347, R364, R365, R385, R400, R427, R428 and R444. -/

namespace Sys2Proof.Machine

/-- One row of the register map. Register (i, j) of the series lies at `off + s1 * i + s2 * j`, for
`i < n1` and `j < n2`. `rw`, `w1c` and `w1s` are the bits a write sets, clears by ones and requests by
ones; `rc` the bits that a read clears. `sh`: the register has an active copy (R16). `rwq`: writable only
while its block is quiescent. `wo`: reads 0. `ro`: no bit is written by software. -/
structure RegRow where
  name : String
  off : Nat
  s1 : Nat
  n1 : Nat
  s2 : Nat
  n2 : Nat
  reset : Nat
  rw : Nat
  w1c : Nat
  w1s : Nat
  rc : Nat
  ro : Bool
  wo : Bool
  rwq : Bool
  sh : Bool
  deriving DecidableEq, Repr

/-- Whether an offset is register (i, j) of a row for some i and j. -/
def RegRow.hit (r : RegRow) (a : Nat) : Bool :=
  r.off ≤ a &&
  (let d := a - r.off
   let i := if r.s1 = 0 then 0 else d / r.s1
   let e := d - r.s1 * i
   let j := if r.s2 = 0 then 0 else e / r.s2
   i < r.n1 && j < r.n2 && e == r.s2 * j)

/-- The unit number of an offset that a row hits. -/
def RegRow.inst (r : RegRow) (a : Nat) : Nat := if r.s1 = 0 then 0 else (a - r.off) / r.s1

/-- The member number of an offset that a row hits. -/
def RegRow.memb (r : RegRow) (a : Nat) : Nat :=
  if r.s2 = 0 then 0 else (a - r.off - r.s1 * r.inst a) / r.s2

namespace Reg

def GLB_PART_ID : Nat := 0x0
def GLB_GANG_CFG : Nat := 0x8
def TTU_TICK_PERIOD : Nat := 0x10000
def TTU_TICK_PERIOD_ACT : Nat := 0x10004
def TTU_EPOCH_SEC_LO : Nat := 0x10008
def TTU_EPOCH_SEC_HI : Nat := 0x1000C
def TTU_EPOCH_NS : Nat := 0x10010
def TTU_EPOCH_SEC_ACT_LO : Nat := 0x10014
def TTU_EPOCH_SEC_ACT_HI : Nat := 0x10018
def TTU_EPOCH_NS_ACT : Nat := 0x1001C
def TTU_TICK_CTRL : Nat := 0x10020
def TTU_TICK_STATUS : Nat := 0x10024
def TTU_TICK_INDEX_LO : Nat := 0x10028
def TTU_TICK_INDEX_HI : Nat := 0x1002C
def TTU_COMMIT_REQ : Nat := 0x10030
def TTU_COMMIT_CFG : Nat := 0x10034
def TTU_COMMIT_TICK_LO : Nat := 0x10038
def TTU_COMMIT_TICK_HI : Nat := 0x1003C
def TTU_COMMIT_DONE_LO : Nat := 0x10040
def TTU_COMMIT_DONE_HI : Nat := 0x10044
def TTU_MISS_STATUS : Nat := 0x10048
def TTU_MISS_CNT_SCN : Nat := 0x1004C
def TTU_MISS_CNT_SLD : Nat := 0x10050
def TTU_MISS_CNT_MPC : Nat := 0x10054
def TTU_OCC_LAST : Nat := 0x10058
def TTU_OCC_MAX : Nat := 0x1005C
def TTU_DEADLINE_A : Nat := 0x10060
def TTU_DEADLINE_B : Nat := 0x10064
def TTU_DEADLINE_C : Nat := 0x10068
def TTU_STEER_CFG : Nat := 0x1006C
def TTU_PHASE_ERR : Nat := 0x10070
def TTU_TICKOUT_CFG : Nat := 0x10074
def TTU_TICKOUT_DIV : Nat := 0x10078
def SCN_LAYER_STATUS : Nat := 0x30000
def SCN_LAYER_NO : Nat := 0x30004
def SCN_LAYER_TICK0_LO : Nat := 0x30008
def SCN_LAYER_TICK0_HI : Nat := 0x3000C
def SCN_STAGE_CFG : Nat := 0x30010
def SCN_BILLET_ERR : Nat := 0x30014
def SCN_BILLET_ERR_IDX : Nat := 0x30018
def SCN_BILLET_SKIP_CNT : Nat := 0x3001C
def SCN_SHARED_STATUS : Nat := 0x30020
def SCN_STAGE_STATUS (i : Nat) : Nat := 0x20300 + 0x400 * i
def HST_LEASE_STATUS : Nat := 0xD0800
def HST_LEASE_VIOL : Nat := 0xD0804
def HST_LEASE_VIOL_CNT : Nat := 0xD0808
def HST_LEASE_VIOL_ADDR_LO : Nat := 0xD080C
def HST_LEASE_VIOL_ADDR_HI : Nat := 0xD0810
def HST_LEASE_BASE_LO (i : Nat) : Nat := 0xD0900 + 0x10 * i
def HST_LEASE_BASE_HI (i : Nat) : Nat := 0xD0904 + 0x10 * i
def HST_LEASE_LEN (i : Nat) : Nat := 0xD0908 + 0x10 * i
def HST_LEASE_STATE (i : Nat) : Nat := 0xD090C + 0x10 * i
def SCN_JUMP_VEL (i : Nat) : Nat := 0x20000 + 0x400 * i
def SCN_MARK_VEL (i : Nat) : Nat := 0x20004 + 0x400 * i
def SCN_JUMP_ACC (i : Nat) : Nat := 0x20008 + 0x400 * i
def SCN_MARK_ACC (i : Nat) : Nat := 0x2000C + 0x400 * i
def SCN_JERK (i : Nat) : Nat := 0x20010 + 0x400 * i
def SCN_Z_VEL (i : Nat) : Nat := 0x20014 + 0x400 * i
def SCN_Z_ACC (i : Nat) : Nat := 0x20018 + 0x400 * i
def SCN_CORNER_TOL (i : Nat) : Nat := 0x2001C + 0x400 * i
def SCN_SETTLE (i : Nat) : Nat := 0x20020 + 0x400 * i
def SCN_MOTION_CFG (i : Nat) : Nat := 0x20024 + 0x400 * i
def SCN_FOLLOW_CFG (i : Nat) : Nat := 0x20028 + 0x400 * i
def SCN_MOTION_STATUS (i : Nat) : Nat := 0x20040 + 0x400 * i
def SCN_MOTION_FLAGS (i : Nat) : Nat := 0x20044 + 0x400 * i
def SCN_HOLD_CNT (i : Nat) : Nat := 0x20048 + 0x400 * i
def SCN_EDGE_ADJ_CNT (i : Nat) : Nat := 0x2004C + 0x400 * i
def SCN_VECTOR_ID (i : Nat) : Nat := 0x20050 + 0x400 * i
def SCN_POS_X (i : Nat) : Nat := 0x20054 + 0x400 * i
def SCN_POS_Y (i : Nat) : Nat := 0x20058 + 0x400 * i
def SCN_POS_Z (i : Nat) : Nat := 0x2005C + 0x400 * i
def SCN_MOTION_SUM_LO : Nat := 0x30040
def SCN_MOTION_SUM_HI : Nat := 0x30044
def SCN_LAT_SEL (i : Nat) : Nat := 0x20100 + 0x400 * i
def SCN_LAT_STATE (i : Nat) : Nat := 0x20104 + 0x400 * i
def SCN_LAT_ID0 (i : Nat) : Nat := 0x20108 + 0x400 * i
def SCN_LAT_ID1 (i : Nat) : Nat := 0x2010C + 0x400 * i
def SCN_DRIFT_OFF_X (i : Nat) : Nat := 0x20110 + 0x400 * i
def SCN_DRIFT_OFF_Y (i : Nat) : Nat := 0x20114 + 0x400 * i
def SCN_DRIFT_A (i : Nat) : Nat := 0x20118 + 0x400 * i
def SCN_DRIFT_B (i : Nat) : Nat := 0x2011C + 0x400 * i
def SCN_DRIFT_C (i : Nat) : Nat := 0x20120 + 0x400 * i
def SCN_DRIFT_D (i : Nat) : Nat := 0x20124 + 0x400 * i
def SCN_FIELD_FLAGS (i : Nat) : Nat := 0x20128 + 0x400 * i
def SCN_FIELD_OOB_CNT (i : Nat) : Nat := 0x2012C + 0x400 * i
def SCN_FIELD_OOB_POS (i : Nat) : Nat := 0x20130 + 0x400 * i
def SCN_FIELD_SAT_CNT (i : Nat) : Nat := 0x20134 + 0x400 * i
def SLD_CLAIM_CFG : Nat := 0x40000
def SLD_FORCE_CFG : Nat := 0x40004
def SLD_DUR_CFG : Nat := 0x40008
def SLD_SEAM_CFG : Nat := 0x4000C
def SLD_AGE_CFG : Nat := 0x40010
def SLD_FLOW_CFG : Nat := 0x40020
def SLD_CONE_CFG : Nat := 0x40024
def SLD_CONE_TAN : Nat := 0x40028
def SLD_STATUS : Nat := 0x40030
def SLD_FLAGS : Nat := 0x40034
def SLD_GRANT_CNT : Nat := 0x40038
def SLD_FORCE_CNT : Nat := 0x4003C
def SLD_DEFER_CNT : Nat := 0x40040
def SLD_PAUSE_CNT : Nat := 0x40044
def SLD_DEFER_MAX : Nat := 0x40048
def SLD_DEFER_LO : Nat := 0x40050
def SLD_DEFER_HI : Nat := 0x40054
def SLD_PRI_LO : Nat := 0x40058
def SLD_PRI_HI : Nat := 0x4005C
def SLD_HEAD_STATUS (i : Nat) : Nat := 0x40100 + 0x4 * i
def SLD_HEAD_AGE (i : Nat) : Nat := 0x40200 + 0x4 * i
def MPC_EMREL_CTRL : Nat := 0x50000
def MPC_SAFETY_STATUS : Nat := 0x50004
def MPC_SAFETY_CFG : Nat := 0x50008
def MPC_WDOG_CFG : Nat := 0x5000C
def MPC_WDOG_KICK : Nat := 0x50010
def MPC_LASER_STOP : Nat := 0x50014
def MPC_TMP_CFG : Nat := 0x50020
def MPC_TMP_TARGET : Nat := 0x50024
def MPC_TMP_BOUNDS : Nat := 0x50028
def MPC_TMP_GRACE : Nat := 0x5002C
def MPC_TMP_STATUS : Nat := 0x50030
def MPC_TMP_LATE_CNT : Nat := 0x50034
def MPC_GATED_LO : Nat := 0x50040
def MPC_GATED_HI : Nat := 0x50044
def MPC_FBLOST_LO : Nat := 0x50048
def MPC_FBLOST_HI : Nat := 0x5004C
def MPC_LOOP_CFG (i : Nat) : Nat := 0x58000 + 0x100 * i
def MPC_LOOP_CMD (i : Nat) : Nat := 0x58004 + 0x100 * i
def MPC_LOOP_STATE (i : Nat) : Nat := 0x58008 + 0x100 * i
def MPC_LOOP_FLAGS (i : Nat) : Nat := 0x5800C + 0x100 * i
def MPC_IN_OFFSET (i : Nat) : Nat := 0x58010 + 0x100 * i
def MPC_IN_GAIN (i : Nat) : Nat := 0x58014 + 0x100 * i
def MPC_BQ1 (i : Nat) (j : Nat) : Nat := 0x58018 + 0x100 * i + 0x4 * j
def MPC_BQ2 (i : Nat) (j : Nat) : Nat := 0x5802C + 0x100 * i + 0x4 * j
def MPC_KP (i : Nat) : Nat := 0x58040 + 0x100 * i
def MPC_KI (i : Nat) : Nat := 0x58044 + 0x100 * i
def MPC_KD (i : Nat) : Nat := 0x58048 + 0x100 * i
def MPC_SHIFT_A (i : Nat) : Nat := 0x5804C + 0x100 * i
def MPC_SHIFT_B (i : Nat) : Nat := 0x58050 + 0x100 * i
def MPC_SHIFT_C (i : Nat) : Nat := 0x58054 + 0x100 * i
def MPC_INT_MIN (i : Nat) : Nat := 0x58060 + 0x100 * i
def MPC_INT_MAX (i : Nat) : Nat := 0x58064 + 0x100 * i
def MPC_OUT_MIN (i : Nat) : Nat := 0x58068 + 0x100 * i
def MPC_OUT_MAX (i : Nat) : Nat := 0x5806C + 0x100 * i
def MPC_RATE (i : Nat) : Nat := 0x58070 + 0x100 * i
def MPC_INTEG_LO (i : Nat) : Nat := 0x58074 + 0x100 * i
def MPC_INTEG_HI (i : Nat) : Nat := 0x58078 + 0x100 * i
def MPC_REF_GAIN (i : Nat) : Nat := 0x58080 + 0x100 * i
def MPC_PWR_CAP (i : Nat) : Nat := 0x58084 + 0x100 * i
def MPC_FB_CFG (i : Nat) : Nat := 0x58088 + 0x100 * i
def MPC_FB_WIN (i : Nat) : Nat := 0x5808C + 0x100 * i
def MPC_FB_TIME (i : Nat) : Nat := 0x58090 + 0x100 * i
def MPC_PWR_LAST (i : Nat) : Nat := 0x58094 + 0x100 * i
def MPC_POLICY_CLAMP (i : Nat) : Nat := 0x58098 + 0x100 * i
def MPC_PWR_FLAGS (i : Nat) : Nat := 0x5809C + 0x100 * i
def MPC_REF_TRIM (i : Nat) : Nat := 0x580A0 + 0x100 * i
def MPC_L1_SRC (i : Nat) : Nat := 0x580C0 + 0x100 * i
def MPC_L1_DEST (i : Nat) : Nat := 0x580C4 + 0x100 * i
def MPC_L1_TRIG (i : Nat) : Nat := 0x580C8 + 0x100 * i
def MPC_L1_SETPOINT (i : Nat) : Nat := 0x580CC + 0x100 * i
def MPC_L1_FAIL_OUT (i : Nat) : Nat := 0x580D0 + 0x100 * i
def MPC_L1_STALE (i : Nat) : Nat := 0x580D4 + 0x100 * i
def MPC_L1_WIN_LO (i : Nat) : Nat := 0x580D8 + 0x100 * i
def MPC_L1_WIN_HI (i : Nat) : Nat := 0x580DC + 0x100 * i
def MPC_L1_IN (i : Nat) : Nat := 0x580E0 + 0x100 * i
def MPC_L1_OUT (i : Nat) : Nat := 0x580E4 + 0x100 * i
def MPC_L1_ITER (i : Nat) : Nat := 0x580E8 + 0x100 * i
def CAM_CTRL (i : Nat) : Nat := 0x80000 + 0x1000 * i
def CAM_BIND (i : Nat) : Nat := 0x80004 + 0x1000 * i
def CAM_PHY_CFG (i : Nat) : Nat := 0x80008 + 0x1000 * i
def CAM_GEOM (i : Nat) : Nat := 0x8000C + 0x1000 * i
def CAM_FRAME_CFG (i : Nat) : Nat := 0x80010 + 0x1000 * i
def CAM_PIX_CFG (i : Nat) : Nat := 0x80014 + 0x1000 * i
def CAM_SOE_CFG (i : Nat) : Nat := 0x80018 + 0x1000 * i
def CAM_ASSOC_CFG (i : Nat) : Nat := 0x8001C + 0x1000 * i
def CAM_DEFECT (i : Nat) (j : Nat) : Nat := 0x80400 + 0x1000 * i + 0x4 * j
def CAM_HEAD_MASK_LO (i : Nat) : Nat := 0x80020 + 0x1000 * i
def CAM_HEAD_MASK_HI (i : Nat) : Nat := 0x80024 + 0x1000 * i
def CAM_XF_M00 (i : Nat) : Nat := 0x80028 + 0x1000 * i
def CAM_XF_M01 (i : Nat) : Nat := 0x8002C + 0x1000 * i
def CAM_XF_M10 (i : Nat) : Nat := 0x80030 + 0x1000 * i
def CAM_XF_M11 (i : Nat) : Nat := 0x80034 + 0x1000 * i
def CAM_XF_TX (i : Nat) : Nat := 0x80038 + 0x1000 * i
def CAM_XF_TY (i : Nat) : Nat := 0x8003C + 0x1000 * i
def CAM_ROI_POS (i : Nat) (j : Nat) : Nat := 0x80040 + 0x1000 * i + 0x8 * j
def CAM_ROI_SIZE (i : Nat) (j : Nat) : Nat := 0x80044 + 0x1000 * i + 0x8 * j
def CAM_DEFECT_CFG (i : Nat) : Nat := 0x80060 + 0x1000 * i
def CAM_CCI_CFG (i : Nat) : Nat := 0x80080 + 0x1000 * i
def CAM_EXP_NS (i : Nat) : Nat := 0x80084 + 0x1000 * i
def CAM_EXP_WR (i : Nat) (j : Nat) : Nat := 0x80088 + 0x1000 * i + 0x4 * j
def CAM_EXP_CTRL (i : Nat) : Nat := 0x800A8 + 0x1000 * i
def CAM_EXP_GEN (i : Nat) : Nat := 0x800AC + 0x1000 * i
def CAM_EXP_STATE (i : Nat) : Nat := 0x800B0 + 0x1000 * i
def CAM_ID_CFG (i : Nat) : Nat := 0x800B4 + 0x1000 * i
def CAM_ID_LO (i : Nat) : Nat := 0x800B8 + 0x1000 * i
def CAM_ID_HI (i : Nat) : Nat := 0x800BC + 0x1000 * i
def CAM_ID_EXP_LO (i : Nat) : Nat := 0x800C0 + 0x1000 * i
def CAM_ID_EXP_HI (i : Nat) : Nat := 0x800C4 + 0x1000 * i
def CAM_STATUS (i : Nat) : Nat := 0x80100 + 0x1000 * i
def CAM_FLAGS (i : Nat) : Nat := 0x80104 + 0x1000 * i
def CAM_FRAME_SEQ (i : Nat) : Nat := 0x80108 + 0x1000 * i
def CAM_FOREIGN_CNT (i : Nat) : Nat := 0x8010C + 0x1000 * i
def CAM_PKT_DROP_CNT (i : Nat) : Nat := 0x80110 + 0x1000 * i
def CAM_ECC_FIX_CNT (i : Nat) : Nat := 0x80114 + 0x1000 * i
def CAM_LINE_ERR_CNT (i : Nat) : Nat := 0x80118 + 0x1000 * i
def CAM_LINE_FIX_CNT (i : Nat) : Nat := 0x8011C + 0x1000 * i
def CAM_FRAME_FIX_CNT (i : Nat) : Nat := 0x80120 + 0x1000 * i
def CAM_DMA_DROP_CNT (i : Nat) : Nat := 0x80124 + 0x1000 * i
def CAM_FEAT_CNT (i : Nat) : Nat := 0x80128 + 0x1000 * i
def CAM_MPC_HELD_CNT (i : Nat) : Nat := 0x8012C + 0x1000 * i
def CAM_DMA_BUDGET : Nat := 0x90000
def CAM_GLB_STATUS : Nat := 0x90004
def LNK_CTRL (i : Nat) : Nat := 0xA0000 + 0x400 * i
def LNK_STATUS (i : Nat) : Nat := 0xA0004 + 0x400 * i
def LNK_FLAGS (i : Nat) : Nat := 0xA0008 + 0x400 * i
def LNK_DOWN_CAUSE (i : Nat) : Nat := 0xA000C + 0x400 * i
def LNK_DELAY (i : Nat) : Nat := 0xA0010 + 0x400 * i
def LNK_DELAY_NOW (i : Nat) : Nat := 0xA0014 + 0x400 * i
def LNK_ADV (i : Nat) : Nat := 0xA0018 + 0x400 * i
def LNK_CAP (i : Nat) (j : Nat) : Nat := 0xA0020 + 0x400 * i + 0x4 * j
def LNK_CFG (i : Nat) : Nat := 0xA0040 + 0x400 * i
def LNK_EQ (i : Nat) : Nat := 0xA0044 + 0x400 * i
def LNK_PRBS_CFG (i : Nat) : Nat := 0xA0048 + 0x400 * i
def LNK_PRBS_ERR (i : Nat) : Nat := 0xA004C + 0x400 * i
def LNK_INJECT (i : Nat) : Nat := 0xA0050 + 0x400 * i
def LNK_EYE_CFG (i : Nat) : Nat := 0xA0054 + 0x400 * i
def LNK_EYE_ERR (i : Nat) : Nat := 0xA0058 + 0x400 * i
def LNK_CODE_ERR_CNT (i : Nat) : Nat := 0xA0060 + 0x400 * i
def LNK_UL_CRC_CNT (i : Nat) : Nat := 0xA0064 + 0x400 * i
def LNK_UL_RECOV_CNT (i : Nat) : Nat := 0xA0068 + 0x400 * i
def LNK_UL_LOST_CNT (i : Nat) : Nat := 0xA006C + 0x400 * i
def LNK_DL_COPY_CNT (i : Nat) : Nat := 0xA0070 + 0x400 * i
def LNK_DL_MISS_CNT (i : Nat) : Nat := 0xA0074 + 0x400 * i
def LNK_CRD_STALL_CNT (i : Nat) : Nat := 0xA0078 + 0x400 * i
def LNK_GLB_CFG : Nat := 0xBF000
def LNK_UP_LO : Nat := 0xBF010
def LNK_UP_HI : Nat := 0xBF014
def LNK_RETX_UNAV_LO : Nat := 0xBF018
def LNK_RETX_UNAV_HI : Nat := 0xBF01C
def LNK_IDLE_LO : Nat := 0xBF020
def LNK_IDLE_HI : Nat := 0xBF024
def HVI_AX_CTRL (i : Nat) : Nat := 0x110000 + 0x100 * i
def HVI_AX_STATUS (i : Nat) : Nat := 0x110004 + 0x100 * i
def HVI_AX_FLAGS (i : Nat) : Nat := 0x110008 + 0x100 * i
def HVI_AX_FAULT (i : Nat) : Nat := 0x11000C + 0x100 * i
def HVI_AX_POS (i : Nat) : Nat := 0x110010 + 0x100 * i
def HVI_AX_VEL (i : Nat) : Nat := 0x110014 + 0x100 * i
def HVI_AX_ANGLE (i : Nat) : Nat := 0x110018 + 0x100 * i
def HVI_AX_LATCH (i : Nat) : Nat := 0x11001C + 0x100 * i
def HVI_AX_VMAX (i : Nat) : Nat := 0x110020 + 0x100 * i
def HVI_AX_ACC (i : Nat) : Nat := 0x110024 + 0x100 * i
def HVI_AX_DEC (i : Nat) : Nat := 0x110028 + 0x100 * i
def HVI_AX_EDEC (i : Nat) : Nat := 0x11002C + 0x100 * i
def HVI_AX_JERK (i : Nat) : Nat := 0x110030 + 0x100 * i
def HVI_AX_CUR (i : Nat) : Nat := 0x110034 + 0x100 * i
def HVI_AX_STILL (i : Nat) : Nat := 0x110038 + 0x100 * i
def HVI_MV_TARGET (i : Nat) : Nat := 0x110040 + 0x100 * i
def HVI_MV_SPEED (i : Nat) : Nat := 0x110044 + 0x100 * i
def HVI_MV_FLAGS (i : Nat) : Nat := 0x110048 + 0x100 * i
def HVI_MV_PUSH (i : Nat) : Nat := 0x11004C + 0x100 * i
def HVI_AX_BRIDGE (i : Nat) : Nat := 0x110050 + 0x100 * i
def HVI_AX_SENSE (i : Nat) : Nat := 0x110054 + 0x100 * i
def HVI_AX_PROT (i : Nat) : Nat := 0x110058 + 0x100 * i
def HVI_AX_WIND_CFG (i : Nat) : Nat := 0x11005C + 0x100 * i
def HVI_AX_WIND_LIM (i : Nat) : Nat := 0x110060 + 0x100 * i
def HVI_AX_WIND_A (i : Nat) : Nat := 0x110064 + 0x100 * i
def HVI_AX_WIND_B (i : Nat) : Nat := 0x110068 + 0x100 * i
def HVI_AX_HOME_CFG (i : Nat) : Nat := 0x11006C + 0x100 * i
def HVI_AX_HOME_VEL (i : Nat) : Nat := 0x110070 + 0x100 * i
def HVI_AX_DEB (i : Nat) : Nat := 0x110074 + 0x100 * i
def HVI_AX_HOME_OFS (i : Nat) : Nat := 0x110078 + 0x100 * i
def HVI_AX_HOME_RANGE (i : Nat) : Nat := 0x11007C + 0x100 * i
def HVI_ISL_STATUS : Nat := 0x110800
def HVI_ISL_CFG : Nat := 0x110804
def HVI_ISL_FLAGS : Nat := 0x110808
def HVI_GLB_CFG : Nat := 0x11080C
def HVI_TAB_ADDR : Nat := 0x110810
def HVI_TAB_DATA : Nat := 0x110814
def EFP_CFG (i : Nat) : Nat := 0x120000 + 0x40 * i
def EFP_CTRL (i : Nat) : Nat := 0x120004 + 0x40 * i
def EFP_STATUS (i : Nat) : Nat := 0x120008 + 0x40 * i
def EFP_FLAGS (i : Nat) : Nat := 0x12000C + 0x40 * i
def EFP_VALUE (i : Nat) : Nat := 0x120010 + 0x40 * i
def EFP_OUT (i : Nat) : Nat := 0x120014 + 0x40 * i
def EFP_GOV_CFG (i : Nat) : Nat := 0x120018 + 0x40 * i
def EFP_LEAD (i : Nat) : Nat := 0x12001C + 0x40 * i
def EFP_DIAG (i : Nat) : Nat := 0x120020 + 0x40 * i
def EFP_TRIP_CNT (i : Nat) : Nat := 0x120024 + 0x40 * i
def EFP_EDGE_CNT (i : Nat) : Nat := 0x120028 + 0x40 * i
def EFP_TRIPPED : Nat := 0x120800
def EFP_CJC : Nat := 0x120804
def DRC_STATUS : Nat := 0xC0000
def DRC_FLAGS : Nat := 0xC0004
def DRC_SCRUB_CFG : Nat := 0xC0008
def DRC_SCRUB_STATUS : Nat := 0xC000C
def DRC_TRAIN_CFG : Nat := 0xC0010
def DRC_RH_CFG : Nat := 0xC0014
def DRC_PAGE_CFG : Nat := 0xC0018
def DRC_ERR_ADDR_LO : Nat := 0xC0020
def DRC_ERR_ADDR_HI : Nat := 0xC0024
def DRC_ERR_INFO : Nat := 0xC0028
def DRC_VIOL_ADDR_LO : Nat := 0xC0030
def DRC_VIOL_ADDR_HI : Nat := 0xC0034
def DRC_VIOL_INFO : Nat := 0xC0038
def DRC_CH_STATUS (i : Nat) : Nat := 0xC0100 + 0x100 * i
def DRC_CH_MARK (i : Nat) : Nat := 0xC0104 + 0x100 * i
def DRC_CH_CE_CNT (i : Nat) : Nat := 0xC0108 + 0x100 * i
def DRC_CH_UE_CNT (i : Nat) : Nat := 0xC010C + 0x100 * i
def DRC_CH_RH_CNT (i : Nat) : Nat := 0xC0110 + 0x100 * i
def DRC_CH_RH_LAST (i : Nat) : Nat := 0xC0114 + 0x100 * i
def CRB_STATUS : Nat := 0xC8000
def CRB_FLAGS : Nat := 0xC8004
def CRB_CE_CNT : Nat := 0xC8008
def CRB_UE_CNT : Nat := 0xC800C
def CRB_ERR_ADDR : Nat := 0xC8010
def CRB_SCRUB_CFG : Nat := 0xC8014
def HST_STATUS : Nat := 0xD0000
def HST_FLAGS : Nat := 0xD0004
def HST_BAR2_BASE : Nat := 0xD0008
def HST_IRQ_CFG : Nat := 0xD000C
def HST_ERR_RING : Nat := 0xD0010
def HST_RING_CFG (i : Nat) : Nat := 0xD1000 + 0x40 * i
def HST_RING_CTRL (i : Nat) : Nat := 0xD1004 + 0x40 * i
def HST_RING_BASE_LO (i : Nat) : Nat := 0xD1008 + 0x40 * i
def HST_RING_BASE_HI (i : Nat) : Nat := 0xD100C + 0x40 * i
def HST_RING_CQ_LO (i : Nat) : Nat := 0xD1010 + 0x40 * i
def HST_RING_CQ_HI (i : Nat) : Nat := 0xD1014 + 0x40 * i
def HST_RING_WB_LO (i : Nat) : Nat := 0xD1018 + 0x40 * i
def HST_RING_WB_HI (i : Nat) : Nat := 0xD101C + 0x40 * i
def HST_RING_STATUS (i : Nat) : Nat := 0xD1020 + 0x40 * i
def HST_RING_SQ_IDX (i : Nat) : Nat := 0xD1024 + 0x40 * i
def HST_RING_CQ_IDX (i : Nat) : Nat := 0xD1028 + 0x40 * i
def HST_RING_FLAGS (i : Nat) : Nat := 0xD102C + 0x40 * i
def HST_RING_DROP_CNT (i : Nat) : Nat := 0xD1030 + 0x40 * i
def HST_RING_DONE_CNT (i : Nat) : Nat := 0xD1034 + 0x40 * i
def HST_RING_ERR_IDX (i : Nat) : Nat := 0xD1038 + 0x40 * i
def TTU_LCL_INC_LO : Nat := 0x10100
def TTU_LCL_INC_HI : Nat := 0x10104
def TTU_LCL_SEC_LO : Nat := 0x10108
def TTU_LCL_SEC_HI : Nat := 0x1010C
def TTU_LCL_NS : Nat := 0x10110
def TTU_LCL_FRAC : Nat := 0x10114
def TTU_DOM_SEL : Nat := 0x10180
def TTU_TIME_STATUS : Nat := 0x10184
def TTU_SW_DELTA : Nat := 0x10188
def TTU_SW_TICK_LO : Nat := 0x1018C
def TTU_SW_TICK_HI : Nat := 0x10190
def TTU_DOM_CTRL (i : Nat) : Nat := 0x10200 + 0x40 * i
def TTU_DOM_STATUS (i : Nat) : Nat := 0x10204 + 0x40 * i
def TTU_DOM_SEC_LO (i : Nat) : Nat := 0x10208 + 0x40 * i
def TTU_DOM_SEC_HI (i : Nat) : Nat := 0x1020C + 0x40 * i
def TTU_DOM_NS (i : Nat) : Nat := 0x10210 + 0x40 * i
def TTU_DOM_ADJ (i : Nat) : Nat := 0x10214 + 0x40 * i
def TTU_DOM_STEP (i : Nat) : Nat := 0x10218 + 0x40 * i
def TTU_DOM_UPDATE (i : Nat) : Nat := 0x1021C + 0x40 * i
def TTU_DOM_LIM (i : Nat) : Nat := 0x10220 + 0x40 * i
def TTU_DOM_TIME (i : Nat) : Nat := 0x10224 + 0x40 * i
def TTU_DOM_ERR (i : Nat) : Nat := 0x10228 + 0x40 * i
def TTU_PPSOUT_CFG : Nat := 0x10300
def TTU_PPSIN_CFG : Nat := 0x10304
def TTU_PPSIN_SEC_LO : Nat := 0x10308
def TTU_PPSIN_SEC_HI : Nat := 0x1030C
def TTU_PPSIN_NS : Nat := 0x10310
def TTU_PPSIN_STATUS : Nat := 0x10314
def NET_PORT_CFG (i : Nat) : Nat := 0xF0000 + 0x400 * i
def NET_PORT_CTRL (i : Nat) : Nat := 0xF0004 + 0x400 * i
def NET_PORT_STATUS (i : Nat) : Nat := 0xF0008 + 0x400 * i
def NET_PORT_FLAGS (i : Nat) : Nat := 0xF000C + 0x400 * i
def NET_MAC_LO (i : Nat) : Nat := 0xF0010 + 0x400 * i
def NET_MAC_HI (i : Nat) : Nat := 0xF0014 + 0x400 * i
def NET_TS_CORR (i : Nat) : Nat := 0xF0018 + 0x400 * i
def NET_TXTS_ID (i : Nat) : Nat := 0xF0020 + 0x400 * i
def NET_TXTS_NS (i : Nat) : Nat := 0xF0024 + 0x400 * i
def NET_TXTS_SEC_LO (i : Nat) : Nat := 0xF0028 + 0x400 * i
def NET_TXTS_SEC_HI (i : Nat) : Nat := 0xF002C + 0x400 * i
def NET_TXTS_POP (i : Nat) : Nat := 0xF0030 + 0x400 * i
def NET_TX_FRAME_CNT (i : Nat) : Nat := 0xF0040 + 0x400 * i
def NET_RX_FRAME_CNT (i : Nat) : Nat := 0xF0044 + 0x400 * i
def NET_RX_DROP_CNT (i : Nat) : Nat := 0xF0048 + 0x400 * i
def NET_TXTS_DROP_CNT (i : Nat) : Nat := 0xF004C + 0x400 * i
def SVC_START_STATUS : Nat := 0xE0000
def SVC_IMG_VER : Nat := 0xE0004
def SVC_LOCK : Nat := 0xE0008
def SVC_RST_CTRL : Nat := 0xE000C
def SVC_BLK_RST : Nat := 0xE0010
def SVC_RST_STATUS : Nat := 0xE0014
def SVC_PAIR_STATUS : Nat := 0xE0018
def SVC_PAIR_CTRL : Nat := 0xE001C
def SVC_PAIR_ENTRY_LO : Nat := 0xE0020
def SVC_PAIR_ENTRY_HI : Nat := 0xE0024
def SVC_FW_STATUS : Nat := 0xE0028
def SVC_READY : Nat := 0xE002C
def SVC_BOOT_MBOX : Nat := 0xE0030
def SVC_OTP_STATUS : Nat := 0xE0034
def SVC_OTP_CMD : Nat := 0xE0038
def SVC_ACL_HOST : Nat := 0xE0040
def SVC_ACL_P (i : Nat) : Nat := 0xE0044 + 0x4 * i
def SVC_NOR_CTRL : Nat := 0xE0060
def SVC_NOR_ADDR : Nat := 0xE0064
def SVC_NOR_BUF_LO : Nat := 0xE0068
def SVC_NOR_BUF_HI : Nat := 0xE006C
def SVC_OTP_KEYDATA (i : Nat) : Nat := 0xE0080 + 0x4 * i
def SVC_MBOX_H2F (i : Nat) : Nat := 0xE0100 + 0x4 * i
def SVC_MBOX_F2H (i : Nat) : Nat := 0xE0140 + 0x4 * i
def SVC_MBOX_CTRL : Nat := 0xE0180
def SVC_PWIN_BASE_LO (i : Nat) (j : Nat) : Nat := 0xE0200 + 0x40 * i + 0x10 * j
def SVC_PWIN_BASE_HI (i : Nat) (j : Nat) : Nat := 0xE0204 + 0x40 * i + 0x10 * j
def SVC_PWIN_SIZE (i : Nat) (j : Nat) : Nat := 0xE0208 + 0x40 * i + 0x10 * j
def DSP_CTRL (i : Nat) : Nat := 0x100000 + 0x400 * i
def DSP_COMMIT (i : Nat) : Nat := 0x100004 + 0x400 * i
def DSP_STATUS (i : Nat) : Nat := 0x100008 + 0x400 * i
def DSP_FLAGS (i : Nat) : Nat := 0x10000C + 0x400 * i
def DSP_LINK (i : Nat) : Nat := 0x100010 + 0x400 * i
def DSP_PCLK (i : Nat) : Nat := 0x100014 + 0x400 * i
def DSP_HTIM0 (i : Nat) : Nat := 0x100018 + 0x400 * i
def DSP_HTIM1 (i : Nat) : Nat := 0x10001C + 0x400 * i
def DSP_VTIM0 (i : Nat) : Nat := 0x100020 + 0x400 * i
def DSP_VTIM1 (i : Nat) : Nat := 0x100024 + 0x400 * i
def DSP_BG (i : Nat) : Nat := 0x100028 + 0x400 * i
def DSP_LR (i : Nat) : Nat := 0x10002C + 0x400 * i
def DSP_PL_CFG (i : Nat) (j : Nat) : Nat := 0x100040 + 0x400 * i + 0x20 * j
def DSP_PL_ADDR_LO (i : Nat) (j : Nat) : Nat := 0x100044 + 0x400 * i + 0x20 * j
def DSP_PL_ADDR_HI (i : Nat) (j : Nat) : Nat := 0x100048 + 0x400 * i + 0x20 * j
def DSP_PL_STRIDE (i : Nat) (j : Nat) : Nat := 0x10004C + 0x400 * i + 0x20 * j
def DSP_PL_POS (i : Nat) (j : Nat) : Nat := 0x100050 + 0x400 * i + 0x20 * j
def DSP_PL_SIZE (i : Nat) (j : Nat) : Nat := 0x100054 + 0x400 * i + 0x20 * j
def DSP_CRC_POS (i : Nat) (j : Nat) : Nat := 0x100080 + 0x400 * i + 0x10 * j
def DSP_CRC_SIZE (i : Nat) (j : Nat) : Nat := 0x100084 + 0x400 * i + 0x10 * j
def DSP_CRC_EXP (i : Nat) (j : Nat) : Nat := 0x100088 + 0x400 * i + 0x10 * j
def DSP_CRC_VAL (i : Nat) (j : Nat) : Nat := 0x10008C + 0x400 * i + 0x10 * j
def DSP_CRC_CFG (i : Nat) : Nat := 0x1000C0 + 0x400 * i
def DSP_FRAME_CNT (i : Nat) : Nat := 0x1000D0 + 0x400 * i
def DSP_UNDERRUN_CNT (i : Nat) : Nat := 0x1000D4 + 0x400 * i
def DSP_CRC_MISS_CNT (i : Nat) : Nat := 0x1000D8 + 0x400 * i
def DSP_REPLACE_CNT (i : Nat) : Nat := 0x1000DC + 0x400 * i
def DSP_BLANK_CNT (i : Nat) : Nat := 0x1000E0 + 0x400 * i
def DSP_SINK (i : Nat) : Nat := 0x1000E4 + 0x400 * i
def DSP_DPCD (i : Nat) (j : Nat) : Nat := 0x100100 + 0x400 * i + 0x4 * j
def DSP_EDID (i : Nat) (j : Nat) : Nat := 0x100200 + 0x400 * i + 0x4 * j
def EVR_CTRL : Nat := 0x130000
def EVR_STATUS : Nat := 0x130004
def EVR_COAL_CFG : Nat := 0x130008
def EVR_RAM_PROD : Nat := 0x13000C
def EVR_RAM_OLDEST : Nat := 0x130010
def EVR_NOR_POS : Nat := 0x130014
def EVR_RD_CTRL : Nat := 0x130018
def EVR_RD_IDX : Nat := 0x13001C
def EVR_RD_REC (i : Nat) : Nat := 0x130020 + 0x4 * i
def EVR_LG_STATUS : Nat := 0x130040
def EVR_LG_POP : Nat := 0x130044
def EVR_LG_REC (i : Nat) : Nat := 0x130048 + 0x4 * i
def EVR_PF_INFO : Nat := 0x130068
def EVR_FAIL_INFO : Nat := 0x13006C
def EVR_LOST_CNT : Nat := 0x130070
def EVR_COAL_CNT : Nat := 0x130074
def EVR_NOR_SKIP_CNT : Nat := 0x130078
def EVR_FILT (i : Nat) : Nat := 0x130080 + 0x4 * i
def PMC_CTRL : Nat := 0x140000
def PMC_USER_EN : Nat := 0x140004
def PMC_SNAP_TICK_LO : Nat := 0x140008
def PMC_SNAP_TICK_HI : Nat := 0x14000C
def PMC_STATUS : Nat := 0x140010
def PMC_OVF_SUM : Nat := 0x140014
def PMC_CNT_CFG (i : Nat) (j : Nat) : Nat := 0x141000 + 0x200 * i + 0x4 * j
def PMC_OVF (i : Nat) : Nat := 0x141040 + 0x200 * i
def PMC_CNT_LO (i : Nat) (j : Nat) : Nat := 0x141080 + 0x200 * i + 0x8 * j
def PMC_CNT_HI (i : Nat) (j : Nat) : Nat := 0x141084 + 0x200 * i + 0x8 * j
def PMC_SNAP_LO (i : Nat) (j : Nat) : Nat := 0x141100 + 0x200 * i + 0x8 * j
def PMC_SNAP_HI (i : Nat) (j : Nat) : Nat := 0x141104 + 0x200 * i + 0x8 * j
def ASY_STATUS : Nat := 0x150000
def ASY_CTRL : Nat := 0x150004
def ASY_FLAGS : Nat := 0x150008
def ASY_TRIM (i : Nat) : Nat := 0x150100 + 0x4 * i
def MON_STATUS : Nat := 0x150800
def MON_FLAGS : Nat := 0x150804
def MON_THERM_CFG : Nat := 0x150808
def MON_TEMP (i : Nat) : Nat := 0x150840 + 0x4 * i
def MON_RAIL (i : Nat) : Nat := 0x150880 + 0x8 * i
def MON_RAIL_THR (i : Nat) : Nat := 0x150884 + 0x8 * i

end Reg

/-- Registers of GLB, part 0. -/
def rowsGLB0 : List RegRow := [
  ⟨"GLB_PART_ID", 0x0, 0x0, 1, 0x0, 1, 0x0, 0x0, 0x0, 0x0, 0x0, true, false, false, false⟩,
  ⟨"GLB_GANG_CFG", 0x8, 0x0, 1, 0x0, 1, 0x0, 0x1F, 0x0, 0x0, 0x0, false, false, true, false⟩]

/-- Registers of TTU, part 0. -/
def rowsTTU0 : List RegRow := [
  ⟨"TTU_TICK_PERIOD", 0x10000, 0x0, 1, 0x0, 1, 0x7D0, 0x3FFF, 0x0, 0x0, 0x0, false, false, false, true⟩,
  ⟨"TTU_TICK_PERIOD_ACT", 0x10004, 0x0, 1, 0x0, 1, 0x7D0, 0x0, 0x0, 0x0, 0x0, true, false, false, false⟩,
  ⟨"TTU_EPOCH_SEC_LO", 0x10008, 0x0, 1, 0x0, 1, 0x0, 0xFFFFFFFF, 0x0, 0x0, 0x0, false, false, false, true⟩,
  ⟨"TTU_EPOCH_SEC_HI", 0x1000C, 0x0, 1, 0x0, 1, 0x0, 0xFFFF, 0x0, 0x0, 0x0, false, false, false, true⟩,
  ⟨"TTU_EPOCH_NS", 0x10010, 0x0, 1, 0x0, 1, 0x0, 0x3FFFFFFF, 0x0, 0x0, 0x0, false, false, false, true⟩,
  ⟨"TTU_EPOCH_SEC_ACT_LO", 0x10014, 0x0, 1, 0x0, 1, 0x0, 0x0, 0x0, 0x0, 0x0, true, false, false, false⟩,
  ⟨"TTU_EPOCH_SEC_ACT_HI", 0x10018, 0x0, 1, 0x0, 1, 0x0, 0x0, 0x0, 0x0, 0x0, true, false, false, false⟩,
  ⟨"TTU_EPOCH_NS_ACT", 0x1001C, 0x0, 1, 0x0, 1, 0x0, 0x0, 0x0, 0x0, 0x0, true, false, false, false⟩,
  ⟨"TTU_TICK_CTRL", 0x10020, 0x0, 1, 0x0, 1, 0x0, 0x0, 0x0, 0x1, 0x0, false, false, false, false⟩,
  ⟨"TTU_TICK_STATUS", 0x10024, 0x0, 1, 0x0, 1, 0x0, 0x0, 0x1F00, 0x0, 0x0, false, false, false, false⟩,
  ⟨"TTU_TICK_INDEX_LO", 0x10028, 0x0, 1, 0x0, 1, 0x0, 0x0, 0x0, 0x0, 0x0, true, false, false, false⟩,
  ⟨"TTU_TICK_INDEX_HI", 0x1002C, 0x0, 1, 0x0, 1, 0x0, 0x0, 0x0, 0x0, 0x0, true, false, false, false⟩,
  ⟨"TTU_COMMIT_REQ", 0x10030, 0x0, 1, 0x0, 1, 0x0, 0x0, 0x0, 0xF, 0x0, false, false, false, false⟩,
  ⟨"TTU_COMMIT_CFG", 0x10034, 0x0, 1, 0x0, 1, 0x0, 0x1, 0x0, 0x0, 0x0, false, false, false, false⟩,
  ⟨"TTU_COMMIT_TICK_LO", 0x10038, 0x0, 1, 0x0, 1, 0x0, 0xFFFFFFFF, 0x0, 0x0, 0x0, false, false, false, false⟩,
  ⟨"TTU_COMMIT_TICK_HI", 0x1003C, 0x0, 1, 0x0, 1, 0x0, 0xFFFFFFFF, 0x0, 0x0, 0x0, false, false, false, false⟩,
  ⟨"TTU_COMMIT_DONE_LO", 0x10040, 0x0, 1, 0x0, 1, 0x0, 0x0, 0x0, 0x0, 0x0, true, false, false, false⟩,
  ⟨"TTU_COMMIT_DONE_HI", 0x10044, 0x0, 1, 0x0, 1, 0x0, 0x0, 0x0, 0x0, 0x0, true, false, false, false⟩,
  ⟨"TTU_MISS_STATUS", 0x10048, 0x0, 1, 0x0, 1, 0x0, 0x0, 0x1F, 0x0, 0x0, false, false, false, false⟩,
  ⟨"TTU_MISS_CNT_SCN", 0x1004C, 0x0, 1, 0x0, 1, 0x0, 0x0, 0x0, 0x0, 0xFFFFFFFF, true, false, false, false⟩,
  ⟨"TTU_MISS_CNT_SLD", 0x10050, 0x0, 1, 0x0, 1, 0x0, 0x0, 0x0, 0x0, 0xFFFFFFFF, true, false, false, false⟩,
  ⟨"TTU_MISS_CNT_MPC", 0x10054, 0x0, 1, 0x0, 1, 0x0, 0x0, 0x0, 0x0, 0xFFFFFFFF, true, false, false, false⟩,
  ⟨"TTU_OCC_LAST", 0x10058, 0x0, 1, 0x0, 1, 0x0, 0x0, 0x0, 0x0, 0x0, true, false, false, false⟩,
  ⟨"TTU_OCC_MAX", 0x1005C, 0x0, 1, 0x0, 1, 0x0, 0x0, 0x0, 0x0, 0xFFFF, true, false, false, false⟩]

/-- Registers of TTU, part 1. -/
def rowsTTU1 : List RegRow := [
  ⟨"TTU_DEADLINE_A", 0x10060, 0x0, 1, 0x0, 1, 0x0, 0x0, 0x0, 0x0, 0x0, true, false, false, false⟩,
  ⟨"TTU_DEADLINE_B", 0x10064, 0x0, 1, 0x0, 1, 0x0, 0x0, 0x0, 0x0, 0x0, true, false, false, false⟩,
  ⟨"TTU_DEADLINE_C", 0x10068, 0x0, 1, 0x0, 1, 0x0, 0x0, 0x0, 0x0, 0x0, true, false, false, false⟩,
  ⟨"TTU_STEER_CFG", 0x1006C, 0x0, 1, 0x0, 1, 0x864, 0xFFFF, 0x0, 0x0, 0x0, false, false, false, false⟩,
  ⟨"TTU_PHASE_ERR", 0x10070, 0x0, 1, 0x0, 1, 0x0, 0x0, 0x0, 0x0, 0x0, true, false, false, false⟩,
  ⟨"TTU_TICKOUT_CFG", 0x10074, 0x0, 1, 0x0, 1, 0x0, 0x3FFF03, 0x0, 0x0, 0x0, false, false, false, false⟩,
  ⟨"TTU_TICKOUT_DIV", 0x10078, 0x0, 1, 0x0, 1, 0x0, 0xFFFFFF, 0x0, 0x0, 0x0, false, false, false, false⟩,
  ⟨"TTU_LCL_INC_LO", 0x10100, 0x0, 1, 0x0, 1, 0x40000000, 0xFFFFFFFF, 0x0, 0x0, 0x0, false, false, false, false⟩,
  ⟨"TTU_LCL_INC_HI", 0x10104, 0x0, 1, 0x0, 1, 0x1, 0xFFFFFFFF, 0x0, 0x0, 0x0, false, false, false, false⟩,
  ⟨"TTU_LCL_SEC_LO", 0x10108, 0x0, 1, 0x0, 1, 0x0, 0xFFFFFFFF, 0x0, 0x0, 0x0, false, false, false, false⟩,
  ⟨"TTU_LCL_SEC_HI", 0x1010C, 0x0, 1, 0x0, 1, 0x0, 0xFFFF, 0x0, 0x0, 0x0, false, false, false, false⟩,
  ⟨"TTU_LCL_NS", 0x10110, 0x0, 1, 0x0, 1, 0x0, 0x3FFFFFFF, 0x0, 0x0, 0x0, false, false, false, false⟩,
  ⟨"TTU_LCL_FRAC", 0x10114, 0x0, 1, 0x0, 1, 0x0, 0x0, 0x0, 0x0, 0x0, true, false, false, false⟩,
  ⟨"TTU_DOM_SEL", 0x10180, 0x0, 1, 0x0, 1, 0x2, 0x3, 0x0, 0x0, 0x0, false, false, false, false⟩,
  ⟨"TTU_TIME_STATUS", 0x10184, 0x0, 1, 0x0, 1, 0x0, 0x0, 0xF00, 0x0, 0x0, false, false, false, false⟩,
  ⟨"TTU_SW_DELTA", 0x10188, 0x0, 1, 0x0, 1, 0x0, 0x0, 0x0, 0x0, 0x0, true, false, false, false⟩,
  ⟨"TTU_SW_TICK_LO", 0x1018C, 0x0, 1, 0x0, 1, 0x0, 0x0, 0x0, 0x0, 0x0, true, false, false, false⟩,
  ⟨"TTU_SW_TICK_HI", 0x10190, 0x0, 1, 0x0, 1, 0x0, 0x0, 0x0, 0x0, 0x0, true, false, false, false⟩,
  ⟨"TTU_DOM_CTRL", 0x10200, 0x40, 2, 0x0, 1, 0x0, 0x1, 0x0, 0x2, 0x0, false, false, false, false⟩,
  ⟨"TTU_DOM_STATUS", 0x10204, 0x40, 2, 0x0, 1, 0x0, 0x0, 0x70000, 0x0, 0x0, false, false, false, false⟩,
  ⟨"TTU_DOM_SEC_LO", 0x10208, 0x40, 2, 0x0, 1, 0x0, 0xFFFFFFFF, 0x0, 0x0, 0x0, false, false, false, false⟩,
  ⟨"TTU_DOM_SEC_HI", 0x1020C, 0x40, 2, 0x0, 1, 0x0, 0xFFFF, 0x0, 0x0, 0x0, false, false, false, false⟩,
  ⟨"TTU_DOM_NS", 0x10210, 0x40, 2, 0x0, 1, 0x0, 0x3FFFFFFF, 0x0, 0x0, 0x0, false, false, false, false⟩,
  ⟨"TTU_DOM_ADJ", 0x10214, 0x40, 2, 0x0, 1, 0x0, 0xFFFFFFFF, 0x0, 0x0, 0x0, false, false, false, false⟩]

/-- Registers of TTU, part 2. -/
def rowsTTU2 : List RegRow := [
  ⟨"TTU_DOM_STEP", 0x10218, 0x40, 2, 0x0, 1, 0x0, 0x0, 0x0, 0x0, 0x0, false, true, false, false⟩,
  ⟨"TTU_DOM_UPDATE", 0x1021C, 0x40, 2, 0x0, 1, 0x0, 0x0, 0x0, 0x0, 0x0, false, true, false, false⟩,
  ⟨"TTU_DOM_LIM", 0x10220, 0x40, 2, 0x0, 1, 0x320005, 0xFFFFFFFF, 0x0, 0x0, 0x0, false, false, false, false⟩,
  ⟨"TTU_DOM_TIME", 0x10224, 0x40, 2, 0x0, 1, 0x83C01F4, 0xFFFFFFFF, 0x0, 0x0, 0x0, false, false, false, false⟩,
  ⟨"TTU_DOM_ERR", 0x10228, 0x40, 2, 0x0, 1, 0x0, 0x0, 0x0, 0x0, 0x0, true, false, false, false⟩,
  ⟨"TTU_PPSOUT_CFG", 0x10300, 0x0, 1, 0x0, 1, 0x6400, 0xFFF3FF07, 0x0, 0x0, 0x0, false, false, false, false⟩,
  ⟨"TTU_PPSIN_CFG", 0x10304, 0x0, 1, 0x0, 1, 0x0, 0x1, 0x0, 0x0, 0x0, false, false, false, false⟩,
  ⟨"TTU_PPSIN_SEC_LO", 0x10308, 0x0, 1, 0x0, 1, 0x0, 0x0, 0x0, 0x0, 0x0, true, false, false, false⟩,
  ⟨"TTU_PPSIN_SEC_HI", 0x1030C, 0x0, 1, 0x0, 1, 0x0, 0x0, 0x0, 0x0, 0x0, true, false, false, false⟩,
  ⟨"TTU_PPSIN_NS", 0x10310, 0x0, 1, 0x0, 1, 0x0, 0x0, 0x0, 0x0, 0x0, true, false, false, false⟩,
  ⟨"TTU_PPSIN_STATUS", 0x10314, 0x0, 1, 0x0, 1, 0x0, 0x0, 0x10000, 0x0, 0x0, false, false, false, false⟩]

/-- Registers of SCN, part 0. -/
def rowsSCN0 : List RegRow := [
  ⟨"SCN_JUMP_VEL", 0x20000, 0x400, 64, 0x0, 1, 0x2710, 0x1FFFF, 0x0, 0x0, 0x0, false, false, false, true⟩,
  ⟨"SCN_MARK_VEL", 0x20004, 0x400, 64, 0x0, 1, 0x1388, 0x1FFFF, 0x0, 0x0, 0x0, false, false, false, true⟩,
  ⟨"SCN_JUMP_ACC", 0x20008, 0x400, 64, 0x0, 1, 0x2710, 0xFFFFF, 0x0, 0x0, 0x0, false, false, false, true⟩,
  ⟨"SCN_MARK_ACC", 0x2000C, 0x400, 64, 0x0, 1, 0x7D0, 0xFFFFF, 0x0, 0x0, 0x0, false, false, false, true⟩,
  ⟨"SCN_JERK", 0x20010, 0x400, 64, 0x0, 1, 0xC350, 0xFFFFFF, 0x0, 0x0, 0x0, false, false, false, true⟩,
  ⟨"SCN_Z_VEL", 0x20014, 0x400, 64, 0x0, 1, 0x1F4, 0x1FFFF, 0x0, 0x0, 0x0, false, false, false, true⟩,
  ⟨"SCN_Z_ACC", 0x20018, 0x400, 64, 0x0, 1, 0xC8, 0xFFFFF, 0x0, 0x0, 0x0, false, false, false, true⟩,
  ⟨"SCN_CORNER_TOL", 0x2001C, 0x400, 64, 0x0, 1, 0x28, 0xFFFF, 0x0, 0x0, 0x0, false, false, false, true⟩,
  ⟨"SCN_SETTLE", 0x20020, 0x400, 64, 0x0, 1, 0xC80190, 0xFFFFFFFF, 0x0, 0x0, 0x0, false, false, false, true⟩,
  ⟨"SCN_MOTION_CFG", 0x20024, 0x400, 64, 0x0, 1, 0x20, 0x7F, 0x0, 0x0, 0x0, false, false, false, true⟩,
  ⟨"SCN_FOLLOW_CFG", 0x20028, 0x400, 64, 0x0, 1, 0x0, 0xFFFFFFFF, 0x0, 0x0, 0x0, false, false, false, true⟩,
  ⟨"SCN_MOTION_STATUS", 0x20040, 0x400, 64, 0x0, 1, 0x0, 0x0, 0x0, 0x0, 0x0, true, false, false, false⟩,
  ⟨"SCN_MOTION_FLAGS", 0x20044, 0x400, 64, 0x0, 1, 0x0, 0x0, 0x3FF, 0x0, 0x0, false, false, false, false⟩,
  ⟨"SCN_HOLD_CNT", 0x20048, 0x400, 64, 0x0, 1, 0x0, 0x0, 0x0, 0x0, 0xFFFFFFFF, true, false, false, false⟩,
  ⟨"SCN_EDGE_ADJ_CNT", 0x2004C, 0x400, 64, 0x0, 1, 0x0, 0x0, 0x0, 0x0, 0xFFFFFFFF, true, false, false, false⟩,
  ⟨"SCN_VECTOR_ID", 0x20050, 0x400, 64, 0x0, 1, 0x0, 0x0, 0x0, 0x0, 0x0, true, false, false, false⟩,
  ⟨"SCN_POS_X", 0x20054, 0x400, 64, 0x0, 1, 0x0, 0x0, 0x0, 0x0, 0x0, true, false, false, false⟩,
  ⟨"SCN_POS_Y", 0x20058, 0x400, 64, 0x0, 1, 0x0, 0x0, 0x0, 0x0, 0x0, true, false, false, false⟩,
  ⟨"SCN_POS_Z", 0x2005C, 0x400, 64, 0x0, 1, 0x0, 0x0, 0x0, 0x0, 0x0, true, false, false, false⟩,
  ⟨"SCN_LAT_SEL", 0x20100, 0x400, 64, 0x0, 1, 0x0, 0x1, 0x0, 0x0, 0x0, false, false, false, true⟩,
  ⟨"SCN_LAT_STATE", 0x20104, 0x400, 64, 0x0, 1, 0x0, 0x0, 0x0, 0x0, 0x0, true, false, false, false⟩,
  ⟨"SCN_LAT_ID0", 0x20108, 0x400, 64, 0x0, 1, 0x0, 0x0, 0x0, 0x0, 0x0, true, false, false, false⟩,
  ⟨"SCN_LAT_ID1", 0x2010C, 0x400, 64, 0x0, 1, 0x0, 0x0, 0x0, 0x0, 0x0, true, false, false, false⟩,
  ⟨"SCN_DRIFT_OFF_X", 0x20110, 0x400, 64, 0x0, 1, 0x0, 0xFFFFFFFF, 0x0, 0x0, 0x0, false, false, false, true⟩]

/-- Registers of SCN, part 1. -/
def rowsSCN1 : List RegRow := [
  ⟨"SCN_DRIFT_OFF_Y", 0x20114, 0x400, 64, 0x0, 1, 0x0, 0xFFFFFFFF, 0x0, 0x0, 0x0, false, false, false, true⟩,
  ⟨"SCN_DRIFT_A", 0x20118, 0x400, 64, 0x0, 1, 0x0, 0xFFFFFFFF, 0x0, 0x0, 0x0, false, false, false, true⟩,
  ⟨"SCN_DRIFT_B", 0x2011C, 0x400, 64, 0x0, 1, 0x0, 0xFFFFFFFF, 0x0, 0x0, 0x0, false, false, false, true⟩,
  ⟨"SCN_DRIFT_C", 0x20120, 0x400, 64, 0x0, 1, 0x0, 0xFFFFFFFF, 0x0, 0x0, 0x0, false, false, false, true⟩,
  ⟨"SCN_DRIFT_D", 0x20124, 0x400, 64, 0x0, 1, 0x0, 0xFFFFFFFF, 0x0, 0x0, 0x0, false, false, false, true⟩,
  ⟨"SCN_FIELD_FLAGS", 0x20128, 0x400, 64, 0x0, 1, 0x0, 0x0, 0x1F, 0x0, 0x0, false, false, false, false⟩,
  ⟨"SCN_FIELD_OOB_CNT", 0x2012C, 0x400, 64, 0x0, 1, 0x0, 0x0, 0x0, 0x0, 0xFFFFFFFF, true, false, false, false⟩,
  ⟨"SCN_FIELD_OOB_POS", 0x20130, 0x400, 64, 0x0, 1, 0x0, 0x0, 0x0, 0x0, 0x0, true, false, false, false⟩,
  ⟨"SCN_FIELD_SAT_CNT", 0x20134, 0x400, 64, 0x0, 1, 0x0, 0x0, 0x0, 0x0, 0xFFFFFFFF, true, false, false, false⟩,
  ⟨"SCN_STAGE_STATUS", 0x20300, 0x400, 64, 0x0, 1, 0x0, 0x0, 0x0, 0x0, 0x0, true, false, false, false⟩,
  ⟨"SCN_LAYER_STATUS", 0x30000, 0x0, 1, 0x0, 1, 0x0, 0x0, 0x0, 0x0, 0x0, true, false, false, false⟩,
  ⟨"SCN_LAYER_NO", 0x30004, 0x0, 1, 0x0, 1, 0x0, 0x0, 0x0, 0x0, 0x0, true, false, false, false⟩,
  ⟨"SCN_LAYER_TICK0_LO", 0x30008, 0x0, 1, 0x0, 1, 0x0, 0x0, 0x0, 0x0, 0x0, true, false, false, false⟩,
  ⟨"SCN_LAYER_TICK0_HI", 0x3000C, 0x0, 1, 0x0, 1, 0x0, 0x0, 0x0, 0x0, 0x0, true, false, false, false⟩,
  ⟨"SCN_STAGE_CFG", 0x30010, 0x0, 1, 0x0, 1, 0x10, 0x1F, 0x0, 0x0, 0x0, false, false, true, false⟩,
  ⟨"SCN_BILLET_ERR", 0x30014, 0x0, 1, 0x0, 1, 0x0, 0x0, 0x7, 0x0, 0x0, false, false, false, false⟩,
  ⟨"SCN_BILLET_ERR_IDX", 0x30018, 0x0, 1, 0x0, 1, 0x0, 0x0, 0x0, 0x0, 0x0, true, false, false, false⟩,
  ⟨"SCN_BILLET_SKIP_CNT", 0x3001C, 0x0, 1, 0x0, 1, 0x0, 0x0, 0x0, 0x0, 0xFFFFFFFF, true, false, false, false⟩,
  ⟨"SCN_SHARED_STATUS", 0x30020, 0x0, 1, 0x0, 1, 0x0, 0x0, 0x0, 0x0, 0x0, true, false, false, false⟩,
  ⟨"SCN_MOTION_SUM_LO", 0x30040, 0x0, 1, 0x0, 1, 0x0, 0x0, 0x0, 0x0, 0x0, true, false, false, false⟩,
  ⟨"SCN_MOTION_SUM_HI", 0x30044, 0x0, 1, 0x0, 1, 0x0, 0x0, 0x0, 0x0, 0x0, true, false, false, false⟩]

/-- Registers of SLD, part 0. -/
def rowsSLD0 : List RegRow := [
  ⟨"SLD_CLAIM_CFG", 0x40000, 0x0, 1, 0x0, 1, 0x20190, 0x7FFFF, 0x0, 0x0, 0x0, false, false, false, true⟩,
  ⟨"SLD_FORCE_CFG", 0x40004, 0x0, 1, 0x0, 1, 0x9C40, 0xFFFFF, 0x0, 0x0, 0x0, false, false, false, true⟩,
  ⟨"SLD_DUR_CFG", 0x40008, 0x0, 1, 0x0, 1, 0x3E8, 0xFFFF, 0x0, 0x0, 0x0, false, false, false, true⟩,
  ⟨"SLD_SEAM_CFG", 0x4000C, 0x0, 1, 0x0, 1, 0x80000000, 0xFFFFFFFF, 0x0, 0x0, 0x0, false, false, false, true⟩,
  ⟨"SLD_AGE_CFG", 0x40010, 0x0, 1, 0x0, 1, 0x40, 0x7F, 0x0, 0x0, 0x0, false, false, false, true⟩,
  ⟨"SLD_FLOW_CFG", 0x40020, 0x0, 1, 0x0, 1, 0x4000, 0xFFFFFFFF, 0x0, 0x0, 0x0, false, false, true, false⟩,
  ⟨"SLD_CONE_CFG", 0x40024, 0x0, 1, 0x0, 1, 0x9C40, 0x8001FFFF, 0x0, 0x0, 0x0, false, false, true, false⟩,
  ⟨"SLD_CONE_TAN", 0x40028, 0x0, 1, 0x0, 1, 0x4498, 0x1FFFF, 0x0, 0x0, 0x0, false, false, true, false⟩,
  ⟨"SLD_STATUS", 0x40030, 0x0, 1, 0x0, 1, 0x0, 0x0, 0x0, 0x0, 0x0, true, false, false, false⟩,
  ⟨"SLD_FLAGS", 0x40034, 0x0, 1, 0x0, 1, 0x0, 0x0, 0x7F, 0x0, 0x0, false, false, false, false⟩,
  ⟨"SLD_GRANT_CNT", 0x40038, 0x0, 1, 0x0, 1, 0x0, 0x0, 0x0, 0x0, 0xFFFFFFFF, true, false, false, false⟩,
  ⟨"SLD_FORCE_CNT", 0x4003C, 0x0, 1, 0x0, 1, 0x0, 0x0, 0x0, 0x0, 0xFFFFFFFF, true, false, false, false⟩,
  ⟨"SLD_DEFER_CNT", 0x40040, 0x0, 1, 0x0, 1, 0x0, 0x0, 0x0, 0x0, 0xFFFFFFFF, true, false, false, false⟩,
  ⟨"SLD_PAUSE_CNT", 0x40044, 0x0, 1, 0x0, 1, 0x0, 0x0, 0x0, 0x0, 0xFFFFFFFF, true, false, false, false⟩,
  ⟨"SLD_DEFER_MAX", 0x40048, 0x0, 1, 0x0, 1, 0x0, 0x0, 0x0, 0x0, 0xFFFF, true, false, false, false⟩,
  ⟨"SLD_DEFER_LO", 0x40050, 0x0, 1, 0x0, 1, 0x0, 0x0, 0x0, 0x0, 0x0, true, false, false, false⟩,
  ⟨"SLD_DEFER_HI", 0x40054, 0x0, 1, 0x0, 1, 0x0, 0x0, 0x0, 0x0, 0x0, true, false, false, false⟩,
  ⟨"SLD_PRI_LO", 0x40058, 0x0, 1, 0x0, 1, 0x0, 0x0, 0x0, 0x0, 0x0, true, false, false, false⟩,
  ⟨"SLD_PRI_HI", 0x4005C, 0x0, 1, 0x0, 1, 0x0, 0x0, 0x0, 0x0, 0x0, true, false, false, false⟩,
  ⟨"SLD_HEAD_STATUS", 0x40100, 0x4, 64, 0x0, 1, 0x0, 0x0, 0x0, 0x0, 0x0, true, false, false, false⟩,
  ⟨"SLD_HEAD_AGE", 0x40200, 0x4, 64, 0x0, 1, 0x0, 0x0, 0x0, 0x0, 0x0, true, false, false, false⟩]

/-- Registers of MPC, part 0. -/
def rowsMPC0 : List RegRow := [
  ⟨"MPC_EMREL_CTRL", 0x50000, 0x0, 1, 0x0, 1, 0x1400, 0xFF01, 0x0, 0x0, 0x0, false, false, false, false⟩,
  ⟨"MPC_SAFETY_STATUS", 0x50004, 0x0, 1, 0x0, 1, 0x0, 0x0, 0x1F00, 0x0, 0x0, false, false, false, false⟩,
  ⟨"MPC_SAFETY_CFG", 0x50008, 0x0, 1, 0x0, 1, 0x32, 0xFF, 0x0, 0x0, 0x0, false, false, true, false⟩,
  ⟨"MPC_WDOG_CFG", 0x5000C, 0x0, 1, 0x0, 1, 0x64, 0x3FF, 0x0, 0x80000000, 0x0, false, false, true, false⟩,
  ⟨"MPC_WDOG_KICK", 0x50010, 0x0, 1, 0x0, 1, 0x0, 0x0, 0x0, 0x0, 0x0, false, true, false, false⟩,
  ⟨"MPC_LASER_STOP", 0x50014, 0x0, 1, 0x0, 1, 0x0, 0x0, 0x0, 0x1, 0x0, false, false, false, false⟩,
  ⟨"MPC_TMP_CFG", 0x50020, 0x0, 1, 0x0, 1, 0x42000, 0xFFFFFFFF, 0x0, 0x0, 0x0, false, false, true, false⟩,
  ⟨"MPC_TMP_TARGET", 0x50024, 0x0, 1, 0x0, 1, 0x0, 0xFFFFFF, 0x0, 0x0, 0x0, false, false, true, false⟩,
  ⟨"MPC_TMP_BOUNDS", 0x50028, 0x0, 1, 0x0, 1, 0xC0004000, 0xFFFFFFFF, 0x0, 0x0, 0x0, false, false, true, false⟩,
  ⟨"MPC_TMP_GRACE", 0x5002C, 0x0, 1, 0x0, 1, 0x190, 0xFFFF, 0x0, 0x0, 0x0, false, false, true, false⟩,
  ⟨"MPC_TMP_STATUS", 0x50030, 0x0, 1, 0x0, 1, 0x0, 0x0, 0x300, 0x0, 0x0, false, false, false, false⟩,
  ⟨"MPC_TMP_LATE_CNT", 0x50034, 0x0, 1, 0x0, 1, 0x0, 0x0, 0x0, 0x0, 0xFFFFFFFF, true, false, false, false⟩,
  ⟨"MPC_GATED_LO", 0x50040, 0x0, 1, 0x0, 1, 0x0, 0x0, 0x0, 0x0, 0x0, true, false, false, false⟩,
  ⟨"MPC_GATED_HI", 0x50044, 0x0, 1, 0x0, 1, 0x0, 0x0, 0x0, 0x0, 0x0, true, false, false, false⟩,
  ⟨"MPC_FBLOST_LO", 0x50048, 0x0, 1, 0x0, 1, 0x0, 0x0, 0x0, 0x0, 0x0, true, false, false, false⟩,
  ⟨"MPC_FBLOST_HI", 0x5004C, 0x0, 1, 0x0, 1, 0x0, 0x0, 0x0, 0x0, 0x0, true, false, false, false⟩,
  ⟨"MPC_LOOP_CFG", 0x58000, 0x100, 128, 0x0, 1, 0x0, 0x1F, 0x0, 0x0, 0x0, false, false, false, false⟩,
  ⟨"MPC_LOOP_CMD", 0x58004, 0x100, 128, 0x0, 1, 0x0, 0x3, 0x0, 0x0, 0x0, false, false, false, false⟩,
  ⟨"MPC_LOOP_STATE", 0x58008, 0x100, 128, 0x0, 1, 0x0, 0x0, 0x0, 0x0, 0x0, true, false, false, false⟩,
  ⟨"MPC_LOOP_FLAGS", 0x5800C, 0x100, 128, 0x0, 1, 0x0, 0x0, 0x3FF, 0x0, 0x0, false, false, false, false⟩,
  ⟨"MPC_IN_OFFSET", 0x58010, 0x100, 128, 0x0, 1, 0x0, 0xFFFFFFFF, 0x0, 0x0, 0x0, false, false, false, false⟩,
  ⟨"MPC_IN_GAIN", 0x58014, 0x100, 128, 0x0, 1, 0x7FFF, 0xFFFFFFFF, 0x0, 0x0, 0x0, false, false, false, false⟩,
  ⟨"MPC_BQ1", 0x58018, 0x100, 128, 0x4, 5, 0x0, 0xFFFFFFFF, 0x0, 0x0, 0x0, false, false, false, false⟩,
  ⟨"MPC_BQ2", 0x5802C, 0x100, 128, 0x4, 5, 0x0, 0xFFFFFFFF, 0x0, 0x0, 0x0, false, false, false, false⟩]

/-- Registers of MPC, part 1. -/
def rowsMPC1 : List RegRow := [
  ⟨"MPC_KP", 0x58040, 0x100, 128, 0x0, 1, 0x0, 0xFFFFFFFF, 0x0, 0x0, 0x0, false, false, false, false⟩,
  ⟨"MPC_KI", 0x58044, 0x100, 128, 0x0, 1, 0x0, 0xFFFFFFFF, 0x0, 0x0, 0x0, false, false, false, false⟩,
  ⟨"MPC_KD", 0x58048, 0x100, 128, 0x0, 1, 0x0, 0xFFFFFFFF, 0x0, 0x0, 0x0, false, false, false, false⟩,
  ⟨"MPC_SHIFT_A", 0x5804C, 0x100, 128, 0x0, 1, 0x0, 0x3FFFFFFF, 0x0, 0x0, 0x0, false, false, false, false⟩,
  ⟨"MPC_SHIFT_B", 0x58050, 0x100, 128, 0x0, 1, 0x0, 0x3FFFFFFF, 0x0, 0x0, 0x0, false, false, false, false⟩,
  ⟨"MPC_SHIFT_C", 0x58054, 0x100, 128, 0x0, 1, 0x0, 0x3FF, 0x0, 0x0, 0x0, false, false, false, false⟩,
  ⟨"MPC_INT_MIN", 0x58060, 0x100, 128, 0x0, 1, 0xFFFF8000, 0xFFFFFFFF, 0x0, 0x0, 0x0, false, false, false, true⟩,
  ⟨"MPC_INT_MAX", 0x58064, 0x100, 128, 0x0, 1, 0x7FFF, 0xFFFFFFFF, 0x0, 0x0, 0x0, false, false, false, true⟩,
  ⟨"MPC_OUT_MIN", 0x58068, 0x100, 128, 0x0, 1, 0xFFFF8000, 0xFFFFFFFF, 0x0, 0x0, 0x0, false, false, false, true⟩,
  ⟨"MPC_OUT_MAX", 0x5806C, 0x100, 128, 0x0, 1, 0x7FFF, 0xFFFFFFFF, 0x0, 0x0, 0x0, false, false, false, true⟩,
  ⟨"MPC_RATE", 0x58070, 0x100, 128, 0x0, 1, 0x0, 0xFFFFFFFF, 0x0, 0x0, 0x0, false, false, false, true⟩,
  ⟨"MPC_INTEG_LO", 0x58074, 0x100, 128, 0x0, 1, 0x0, 0x0, 0x0, 0x0, 0x0, true, false, false, false⟩,
  ⟨"MPC_INTEG_HI", 0x58078, 0x100, 128, 0x0, 1, 0x0, 0x0, 0x0, 0x0, 0x0, true, false, false, false⟩,
  ⟨"MPC_REF_GAIN", 0x58080, 0x100, 128, 0x0, 1, 0x4000, 0xFFFF, 0x0, 0x0, 0x0, false, false, false, true⟩,
  ⟨"MPC_PWR_CAP", 0x58084, 0x100, 128, 0x0, 1, 0xFFFF, 0xFFFF, 0x0, 0x0, 0x0, false, false, false, true⟩,
  ⟨"MPC_FB_CFG", 0x58088, 0x100, 128, 0x0, 1, 0x1000300, 0x1FFF1F03, 0x0, 0x0, 0x0, false, false, false, true⟩,
  ⟨"MPC_FB_WIN", 0x5808C, 0x100, 128, 0x0, 1, 0xFFFF0000, 0xFFFFFFFF, 0x0, 0x0, 0x0, false, false, false, true⟩,
  ⟨"MPC_FB_TIME", 0x58090, 0x100, 128, 0x0, 1, 0x10019008, 0xFF1FFF7F, 0x0, 0x0, 0x0, false, false, false, true⟩,
  ⟨"MPC_PWR_LAST", 0x58094, 0x100, 128, 0x0, 1, 0x0, 0x0, 0x0, 0x0, 0x0, true, false, false, false⟩,
  ⟨"MPC_POLICY_CLAMP", 0x58098, 0x100, 128, 0x0, 1, 0x0, 0x0, 0x0, 0x0, 0xFFFFFFFF, true, false, false, false⟩,
  ⟨"MPC_PWR_FLAGS", 0x5809C, 0x100, 128, 0x0, 1, 0x0, 0x0, 0xF, 0x0, 0x0, false, false, false, false⟩,
  ⟨"MPC_REF_TRIM", 0x580A0, 0x100, 128, 0x0, 1, 0x0, 0x0, 0x0, 0x0, 0x0, true, false, false, false⟩,
  ⟨"MPC_L1_SRC", 0x580C0, 0x100, 128, 0x0, 1, 0x0, 0xFFFFFFF, 0x0, 0x0, 0x0, false, false, false, false⟩,
  ⟨"MPC_L1_DEST", 0x580C4, 0x100, 128, 0x0, 1, 0x0, 0xFFF, 0x0, 0x0, 0x0, false, false, false, false⟩]

/-- Registers of MPC, part 2. -/
def rowsMPC2 : List RegRow := [
  ⟨"MPC_L1_TRIG", 0x580C8, 0x100, 128, 0x0, 1, 0x0, 0xFFFFFF03, 0x0, 0x0, 0x0, false, false, false, false⟩,
  ⟨"MPC_L1_SETPOINT", 0x580CC, 0x100, 128, 0x0, 1, 0x0, 0xFFFFFFFF, 0x0, 0x0, 0x0, false, false, false, false⟩,
  ⟨"MPC_L1_FAIL_OUT", 0x580D0, 0x100, 128, 0x0, 1, 0x0, 0xFFFFFFFF, 0x0, 0x0, 0x0, false, false, false, false⟩,
  ⟨"MPC_L1_STALE", 0x580D4, 0x100, 128, 0x0, 1, 0x10001, 0xFFFFFFFF, 0x0, 0x0, 0x0, false, false, false, false⟩,
  ⟨"MPC_L1_WIN_LO", 0x580D8, 0x100, 128, 0x0, 1, 0x80000000, 0xFFFFFFFF, 0x0, 0x0, 0x0, false, false, false, false⟩,
  ⟨"MPC_L1_WIN_HI", 0x580DC, 0x100, 128, 0x0, 1, 0x7FFFFFFF, 0xFFFFFFFF, 0x0, 0x0, 0x0, false, false, false, false⟩,
  ⟨"MPC_L1_IN", 0x580E0, 0x100, 128, 0x0, 1, 0x0, 0xFFFFFFFF, 0x0, 0x0, 0x0, false, false, false, false⟩,
  ⟨"MPC_L1_OUT", 0x580E4, 0x100, 128, 0x0, 1, 0x0, 0x0, 0x0, 0x0, 0x0, true, false, false, false⟩,
  ⟨"MPC_L1_ITER", 0x580E8, 0x100, 128, 0x0, 1, 0x0, 0x0, 0x0, 0x0, 0xFFFFFFFF, true, false, false, false⟩]

/-- Registers of CAM, part 0. -/
def rowsCAM0 : List RegRow := [
  ⟨"CAM_CTRL", 0x80000, 0x1000, 16, 0x0, 1, 0x0, 0xFFF7, 0x0, 0x0, 0x0, false, false, false, true⟩,
  ⟨"CAM_BIND", 0x80004, 0x1000, 16, 0x0, 1, 0x2B, 0x1033F, 0x0, 0x0, 0x0, false, false, true, false⟩,
  ⟨"CAM_PHY_CFG", 0x80008, 0x1000, 16, 0x0, 1, 0xA9C4, 0xFFFF, 0x0, 0x0, 0x0, false, false, true, false⟩,
  ⟨"CAM_GEOM", 0x8000C, 0x1000, 16, 0x0, 1, 0x1000100, 0x1FFF1FFF, 0x0, 0x0, 0x0, false, false, true, false⟩,
  ⟨"CAM_FRAME_CFG", 0x80010, 0x1000, 16, 0x0, 1, 0xFA00000, 0xFFFF3FFF, 0x0, 0x0, 0x0, false, false, true, false⟩,
  ⟨"CAM_PIX_CFG", 0x80014, 0x1000, 16, 0x0, 1, 0x2000040, 0x3FFF3FFF, 0x0, 0x0, 0x0, false, false, false, true⟩,
  ⟨"CAM_SOE_CFG", 0x80018, 0x1000, 16, 0x0, 1, 0x0, 0xFFFFFF, 0x0, 0x0, 0x0, false, false, true, false⟩,
  ⟨"CAM_ASSOC_CFG", 0x8001C, 0x1000, 16, 0x0, 1, 0x1F4, 0xFFFF, 0x0, 0x0, 0x0, false, false, false, true⟩,
  ⟨"CAM_HEAD_MASK_LO", 0x80020, 0x1000, 16, 0x0, 1, 0x0, 0xFFFFFFFF, 0x0, 0x0, 0x0, false, false, true, false⟩,
  ⟨"CAM_HEAD_MASK_HI", 0x80024, 0x1000, 16, 0x0, 1, 0x0, 0xFFFFFFFF, 0x0, 0x0, 0x0, false, false, true, false⟩,
  ⟨"CAM_XF_M00", 0x80028, 0x1000, 16, 0x0, 1, 0x0, 0xFFFFFFFF, 0x0, 0x0, 0x0, false, false, true, false⟩,
  ⟨"CAM_XF_M01", 0x8002C, 0x1000, 16, 0x0, 1, 0x0, 0xFFFFFFFF, 0x0, 0x0, 0x0, false, false, true, false⟩,
  ⟨"CAM_XF_M10", 0x80030, 0x1000, 16, 0x0, 1, 0x0, 0xFFFFFFFF, 0x0, 0x0, 0x0, false, false, true, false⟩,
  ⟨"CAM_XF_M11", 0x80034, 0x1000, 16, 0x0, 1, 0x0, 0xFFFFFFFF, 0x0, 0x0, 0x0, false, false, true, false⟩,
  ⟨"CAM_XF_TX", 0x80038, 0x1000, 16, 0x0, 1, 0x0, 0xFFFFFFFF, 0x0, 0x0, 0x0, false, false, true, false⟩,
  ⟨"CAM_XF_TY", 0x8003C, 0x1000, 16, 0x0, 1, 0x0, 0xFFFFFFFF, 0x0, 0x0, 0x0, false, false, true, false⟩,
  ⟨"CAM_ROI_POS", 0x80040, 0x1000, 16, 0x8, 4, 0x0, 0x1FFF1FFF, 0x0, 0x0, 0x0, false, false, false, true⟩,
  ⟨"CAM_ROI_SIZE", 0x80044, 0x1000, 16, 0x8, 4, 0x0, 0x1FFF1FFF, 0x0, 0x0, 0x0, false, false, false, true⟩,
  ⟨"CAM_DEFECT_CFG", 0x80060, 0x1000, 16, 0x0, 1, 0x0, 0x3F, 0x0, 0x0, 0x0, false, false, true, false⟩,
  ⟨"CAM_CCI_CFG", 0x80080, 0x1000, 16, 0x0, 1, 0x500, 0x3F7F, 0x0, 0x0, 0x0, false, false, true, false⟩,
  ⟨"CAM_EXP_NS", 0x80084, 0x1000, 16, 0x0, 1, 0x4E20, 0x1FFFFFF, 0x0, 0x0, 0x0, false, false, false, false⟩,
  ⟨"CAM_EXP_WR", 0x80088, 0x1000, 16, 0x4, 8, 0x0, 0xFFFFFFFF, 0x0, 0x0, 0x0, false, false, false, false⟩,
  ⟨"CAM_EXP_CTRL", 0x800A8, 0x1000, 16, 0x0, 1, 0x0, 0xF, 0x0, 0x80000000, 0x0, false, false, false, false⟩,
  ⟨"CAM_EXP_GEN", 0x800AC, 0x1000, 16, 0x0, 1, 0x0, 0x0, 0x0, 0x0, 0x0, true, false, false, false⟩]

/-- Registers of CAM, part 1. -/
def rowsCAM1 : List RegRow := [
  ⟨"CAM_EXP_STATE", 0x800B0, 0x1000, 16, 0x0, 1, 0x0, 0x0, 0x0, 0x0, 0x0, true, false, false, false⟩,
  ⟨"CAM_ID_CFG", 0x800B4, 0x1000, 16, 0x0, 1, 0x0, 0x1FFFFF, 0x0, 0x0, 0x0, false, false, true, false⟩,
  ⟨"CAM_ID_LO", 0x800B8, 0x1000, 16, 0x0, 1, 0x0, 0x0, 0x0, 0x0, 0x0, true, false, false, false⟩,
  ⟨"CAM_ID_HI", 0x800BC, 0x1000, 16, 0x0, 1, 0x0, 0x0, 0x0, 0x0, 0x0, true, false, false, false⟩,
  ⟨"CAM_ID_EXP_LO", 0x800C0, 0x1000, 16, 0x0, 1, 0x0, 0xFFFFFFFF, 0x0, 0x0, 0x0, false, false, true, false⟩,
  ⟨"CAM_ID_EXP_HI", 0x800C4, 0x1000, 16, 0x0, 1, 0x0, 0xFFFFFFFF, 0x0, 0x0, 0x0, false, false, true, false⟩,
  ⟨"CAM_STATUS", 0x80100, 0x1000, 16, 0x0, 1, 0x0, 0x0, 0x0, 0x0, 0x0, true, false, false, false⟩,
  ⟨"CAM_FLAGS", 0x80104, 0x1000, 16, 0x0, 1, 0x0, 0x0, 0x3FFFF, 0x0, 0x0, false, false, false, false⟩,
  ⟨"CAM_FRAME_SEQ", 0x80108, 0x1000, 16, 0x0, 1, 0x0, 0x0, 0x0, 0x0, 0x0, true, false, false, false⟩,
  ⟨"CAM_FOREIGN_CNT", 0x8010C, 0x1000, 16, 0x0, 1, 0x0, 0x0, 0x0, 0x0, 0xFFFFFFFF, true, false, false, false⟩,
  ⟨"CAM_PKT_DROP_CNT", 0x80110, 0x1000, 16, 0x0, 1, 0x0, 0x0, 0x0, 0x0, 0xFFFFFFFF, true, false, false, false⟩,
  ⟨"CAM_ECC_FIX_CNT", 0x80114, 0x1000, 16, 0x0, 1, 0x0, 0x0, 0x0, 0x0, 0xFFFFFFFF, true, false, false, false⟩,
  ⟨"CAM_LINE_ERR_CNT", 0x80118, 0x1000, 16, 0x0, 1, 0x0, 0x0, 0x0, 0x0, 0xFFFFFFFF, true, false, false, false⟩,
  ⟨"CAM_LINE_FIX_CNT", 0x8011C, 0x1000, 16, 0x0, 1, 0x0, 0x0, 0x0, 0x0, 0xFFFFFFFF, true, false, false, false⟩,
  ⟨"CAM_FRAME_FIX_CNT", 0x80120, 0x1000, 16, 0x0, 1, 0x0, 0x0, 0x0, 0x0, 0xFFFFFFFF, true, false, false, false⟩,
  ⟨"CAM_DMA_DROP_CNT", 0x80124, 0x1000, 16, 0x0, 1, 0x0, 0x0, 0x0, 0x0, 0xFFFFFFFF, true, false, false, false⟩,
  ⟨"CAM_FEAT_CNT", 0x80128, 0x1000, 16, 0x0, 1, 0x0, 0x0, 0x0, 0x0, 0xFFFFFFFF, true, false, false, false⟩,
  ⟨"CAM_MPC_HELD_CNT", 0x8012C, 0x1000, 16, 0x0, 1, 0x0, 0x0, 0x0, 0x0, 0xFFFFFFFF, true, false, false, false⟩,
  ⟨"CAM_DEFECT", 0x80400, 0x1000, 16, 0x4, 32, 0x0, 0x1FFF1FFF, 0x0, 0x0, 0x0, false, false, true, false⟩,
  ⟨"CAM_DMA_BUDGET", 0x90000, 0x0, 1, 0x0, 1, 0x3C, 0xFF, 0x0, 0x0, 0x0, false, false, false, false⟩,
  ⟨"CAM_GLB_STATUS", 0x90004, 0x0, 1, 0x0, 1, 0x0, 0x0, 0x0, 0x0, 0x0, true, false, false, false⟩]

/-- Registers of LNK, part 0. -/
def rowsLNK0 : List RegRow := [
  ⟨"LNK_CTRL", 0xA0000, 0x400, 76, 0x0, 1, 0x0, 0x1, 0x0, 0xE, 0x0, false, false, false, false⟩,
  ⟨"LNK_STATUS", 0xA0004, 0x400, 76, 0x0, 1, 0x0, 0x0, 0x0, 0x0, 0x0, true, false, false, false⟩,
  ⟨"LNK_FLAGS", 0xA0008, 0x400, 76, 0x0, 1, 0x0, 0x0, 0x1FF, 0x0, 0x0, false, false, false, false⟩,
  ⟨"LNK_DOWN_CAUSE", 0xA000C, 0x400, 76, 0x0, 1, 0x0, 0x0, 0x0, 0x0, 0x0, true, false, false, false⟩,
  ⟨"LNK_DELAY", 0xA0010, 0x400, 76, 0x0, 1, 0x0, 0x0, 0x0, 0x0, 0x0, true, false, false, false⟩,
  ⟨"LNK_DELAY_NOW", 0xA0014, 0x400, 76, 0x0, 1, 0x0, 0x0, 0x0, 0x0, 0x0, true, false, false, false⟩,
  ⟨"LNK_ADV", 0xA0018, 0x400, 76, 0x0, 1, 0x0, 0x0, 0x0, 0x0, 0x0, true, false, false, false⟩,
  ⟨"LNK_CAP", 0xA0020, 0x400, 76, 0x4, 8, 0x0, 0x0, 0x0, 0x0, 0x0, true, false, false, false⟩,
  ⟨"LNK_CFG", 0xA0040, 0x400, 76, 0x0, 1, 0x6408040F, 0xFF1F0F0F, 0x0, 0x0, 0x0, false, false, true, false⟩,
  ⟨"LNK_EQ", 0xA0044, 0x400, 76, 0x0, 1, 0x8, 0x800003FF, 0x0, 0x0, 0x0, false, false, false, false⟩,
  ⟨"LNK_PRBS_CFG", 0xA0048, 0x400, 76, 0x0, 1, 0x0, 0x1F, 0x0, 0x0, 0x0, false, false, true, false⟩,
  ⟨"LNK_PRBS_ERR", 0xA004C, 0x400, 76, 0x0, 1, 0x0, 0x0, 0x0, 0x0, 0xFFFFFFFF, true, false, false, false⟩,
  ⟨"LNK_INJECT", 0xA0050, 0x400, 76, 0x0, 1, 0x0, 0x1F06, 0x0, 0x9, 0x0, false, false, false, false⟩,
  ⟨"LNK_EYE_CFG", 0xA0054, 0x400, 76, 0x0, 1, 0x140000, 0x1F7F7F, 0x0, 0x40000000, 0x0, false, false, false, false⟩,
  ⟨"LNK_EYE_ERR", 0xA0058, 0x400, 76, 0x0, 1, 0x0, 0x0, 0x0, 0x0, 0x0, true, false, false, false⟩,
  ⟨"LNK_CODE_ERR_CNT", 0xA0060, 0x400, 76, 0x0, 1, 0x0, 0x0, 0x0, 0x0, 0xFFFFFFFF, true, false, false, false⟩,
  ⟨"LNK_UL_CRC_CNT", 0xA0064, 0x400, 76, 0x0, 1, 0x0, 0x0, 0x0, 0x0, 0xFFFFFFFF, true, false, false, false⟩,
  ⟨"LNK_UL_RECOV_CNT", 0xA0068, 0x400, 76, 0x0, 1, 0x0, 0x0, 0x0, 0x0, 0xFFFFFFFF, true, false, false, false⟩,
  ⟨"LNK_UL_LOST_CNT", 0xA006C, 0x400, 76, 0x0, 1, 0x0, 0x0, 0x0, 0x0, 0xFFFFFFFF, true, false, false, false⟩,
  ⟨"LNK_DL_COPY_CNT", 0xA0070, 0x400, 76, 0x0, 1, 0x0, 0x0, 0x0, 0x0, 0xFFFFFFFF, true, false, false, false⟩,
  ⟨"LNK_DL_MISS_CNT", 0xA0074, 0x400, 76, 0x0, 1, 0x0, 0x0, 0x0, 0x0, 0xFFFFFFFF, true, false, false, false⟩,
  ⟨"LNK_CRD_STALL_CNT", 0xA0078, 0x400, 76, 0x0, 1, 0x0, 0x0, 0x0, 0x0, 0xFFFFFFFF, true, false, false, false⟩,
  ⟨"LNK_GLB_CFG", 0xBF000, 0x0, 1, 0x0, 1, 0x16414, 0x1FFFF, 0x0, 0x0, 0x0, false, false, false, false⟩,
  ⟨"LNK_UP_LO", 0xBF010, 0x0, 1, 0x0, 1, 0x0, 0x0, 0x0, 0x0, 0x0, true, false, false, false⟩]

/-- Registers of LNK, part 1. -/
def rowsLNK1 : List RegRow := [
  ⟨"LNK_UP_HI", 0xBF014, 0x0, 1, 0x0, 1, 0x0, 0x0, 0x0, 0x0, 0x0, true, false, false, false⟩,
  ⟨"LNK_RETX_UNAV_LO", 0xBF018, 0x0, 1, 0x0, 1, 0x0, 0x0, 0x0, 0x0, 0x0, true, false, false, false⟩,
  ⟨"LNK_RETX_UNAV_HI", 0xBF01C, 0x0, 1, 0x0, 1, 0x0, 0x0, 0x0, 0x0, 0x0, true, false, false, false⟩,
  ⟨"LNK_IDLE_LO", 0xBF020, 0x0, 1, 0x0, 1, 0x0, 0x0, 0x0, 0x0, 0x0, true, false, false, false⟩,
  ⟨"LNK_IDLE_HI", 0xBF024, 0x0, 1, 0x0, 1, 0x0, 0x0, 0x0, 0x0, 0x0, true, false, false, false⟩]

/-- Registers of DRC, part 0. -/
def rowsDRC0 : List RegRow := [
  ⟨"DRC_STATUS", 0xC0000, 0x0, 1, 0x0, 1, 0x0, 0x0, 0x0, 0x0, 0x0, true, false, false, false⟩,
  ⟨"DRC_FLAGS", 0xC0004, 0x0, 1, 0x0, 1, 0x0, 0x0, 0x1FF, 0x0, 0x0, false, false, false, false⟩,
  ⟨"DRC_SCRUB_CFG", 0xC0008, 0x0, 1, 0x0, 1, 0x80000018, 0x800000FF, 0x0, 0x0, 0x0, false, false, false, false⟩,
  ⟨"DRC_SCRUB_STATUS", 0xC000C, 0x0, 1, 0x0, 1, 0x0, 0x0, 0x0, 0x0, 0x0, true, false, false, false⟩,
  ⟨"DRC_TRAIN_CFG", 0xC0010, 0x0, 1, 0x0, 1, 0x2878, 0xFFFF, 0x0, 0x0, 0x0, false, false, false, false⟩,
  ⟨"DRC_RH_CFG", 0xC0014, 0x0, 1, 0x0, 1, 0x80328000, 0x80FFFFFF, 0x0, 0x0, 0x0, false, false, true, false⟩,
  ⟨"DRC_PAGE_CFG", 0xC0018, 0x0, 1, 0x0, 1, 0xC8, 0xFFFF, 0x0, 0x0, 0x0, false, false, false, false⟩,
  ⟨"DRC_ERR_ADDR_LO", 0xC0020, 0x0, 1, 0x0, 1, 0x0, 0x0, 0x0, 0x0, 0x0, true, false, false, false⟩,
  ⟨"DRC_ERR_ADDR_HI", 0xC0024, 0x0, 1, 0x0, 1, 0x0, 0x0, 0x0, 0x0, 0x0, true, false, false, false⟩,
  ⟨"DRC_ERR_INFO", 0xC0028, 0x0, 1, 0x0, 1, 0x0, 0x0, 0x0, 0x0, 0x0, true, false, false, false⟩,
  ⟨"DRC_VIOL_ADDR_LO", 0xC0030, 0x0, 1, 0x0, 1, 0x0, 0x0, 0x0, 0x0, 0x0, true, false, false, false⟩,
  ⟨"DRC_VIOL_ADDR_HI", 0xC0034, 0x0, 1, 0x0, 1, 0x0, 0x0, 0x0, 0x0, 0x0, true, false, false, false⟩,
  ⟨"DRC_VIOL_INFO", 0xC0038, 0x0, 1, 0x0, 1, 0x0, 0x0, 0x0, 0x0, 0x0, true, false, false, false⟩,
  ⟨"DRC_CH_STATUS", 0xC0100, 0x100, 2, 0x0, 1, 0x0, 0x0, 0x0, 0x0, 0x0, true, false, false, false⟩,
  ⟨"DRC_CH_MARK", 0xC0104, 0x100, 2, 0x0, 1, 0x200, 0x30F, 0x0, 0x0, 0x0, false, false, false, false⟩,
  ⟨"DRC_CH_CE_CNT", 0xC0108, 0x100, 2, 0x0, 1, 0x0, 0x0, 0x0, 0x0, 0xFFFFFFFF, true, false, false, false⟩,
  ⟨"DRC_CH_UE_CNT", 0xC010C, 0x100, 2, 0x0, 1, 0x0, 0x0, 0x0, 0x0, 0xFFFFFFFF, true, false, false, false⟩,
  ⟨"DRC_CH_RH_CNT", 0xC0110, 0x100, 2, 0x0, 1, 0x0, 0x0, 0x0, 0x0, 0xFFFFFFFF, true, false, false, false⟩,
  ⟨"DRC_CH_RH_LAST", 0xC0114, 0x100, 2, 0x0, 1, 0x0, 0x0, 0x0, 0x0, 0x0, true, false, false, false⟩]

/-- Registers of CRB, part 0. -/
def rowsCRB0 : List RegRow := [
  ⟨"CRB_STATUS", 0xC8000, 0x0, 1, 0x0, 1, 0x0, 0x0, 0x0, 0x0, 0x0, true, false, false, false⟩,
  ⟨"CRB_FLAGS", 0xC8004, 0x0, 1, 0x0, 1, 0x0, 0x0, 0x7, 0x0, 0x0, false, false, false, false⟩,
  ⟨"CRB_CE_CNT", 0xC8008, 0x0, 1, 0x0, 1, 0x0, 0x0, 0x0, 0x0, 0xFFFFFFFF, true, false, false, false⟩,
  ⟨"CRB_UE_CNT", 0xC800C, 0x0, 1, 0x0, 1, 0x0, 0x0, 0x0, 0x0, 0xFFFFFFFF, true, false, false, false⟩,
  ⟨"CRB_ERR_ADDR", 0xC8010, 0x0, 1, 0x0, 1, 0x0, 0x0, 0x0, 0x0, 0x0, true, false, false, false⟩,
  ⟨"CRB_SCRUB_CFG", 0xC8014, 0x0, 1, 0x0, 1, 0x3E8, 0xFFFF, 0x0, 0x0, 0x0, false, false, false, false⟩]

/-- Registers of HST, part 0. -/
def rowsHST0 : List RegRow := [
  ⟨"HST_STATUS", 0xD0000, 0x0, 1, 0x0, 1, 0x0, 0x0, 0x0, 0x0, 0x0, true, false, false, false⟩,
  ⟨"HST_FLAGS", 0xD0004, 0x0, 1, 0x0, 1, 0x0, 0x0, 0xFF, 0x0, 0x0, false, false, false, false⟩,
  ⟨"HST_BAR2_BASE", 0xD0008, 0x0, 1, 0x0, 1, 0x2, 0x1F, 0x0, 0x0, 0x0, false, false, false, false⟩,
  ⟨"HST_IRQ_CFG", 0xD000C, 0x0, 1, 0x0, 1, 0x0, 0x3FFF, 0x0, 0x0, 0x0, false, false, false, false⟩,
  ⟨"HST_ERR_RING", 0xD0010, 0x0, 1, 0x0, 1, 0x0, 0x0, 0x0, 0x0, 0x0, true, false, false, false⟩,
  ⟨"HST_LEASE_STATUS", 0xD0800, 0x0, 1, 0x0, 1, 0x0, 0x0, 0x0, 0x0, 0x0, true, false, false, false⟩,
  ⟨"HST_LEASE_VIOL", 0xD0804, 0x0, 1, 0x0, 1, 0x0, 0x0, 0x1F, 0x0, 0x0, false, false, false, false⟩,
  ⟨"HST_LEASE_VIOL_CNT", 0xD0808, 0x0, 1, 0x0, 1, 0x0, 0x0, 0x0, 0x0, 0xFFFFFFFF, true, false, false, false⟩,
  ⟨"HST_LEASE_VIOL_ADDR_LO", 0xD080C, 0x0, 1, 0x0, 1, 0x0, 0x0, 0x0, 0x0, 0x0, true, false, false, false⟩,
  ⟨"HST_LEASE_VIOL_ADDR_HI", 0xD0810, 0x0, 1, 0x0, 1, 0x0, 0x0, 0x0, 0x0, 0x0, true, false, false, false⟩,
  ⟨"HST_LEASE_BASE_LO", 0xD0900, 0x10, 16, 0x0, 1, 0x0, 0x0, 0x0, 0x0, 0x0, true, false, false, false⟩,
  ⟨"HST_LEASE_BASE_HI", 0xD0904, 0x10, 16, 0x0, 1, 0x0, 0x0, 0x0, 0x0, 0x0, true, false, false, false⟩,
  ⟨"HST_LEASE_LEN", 0xD0908, 0x10, 16, 0x0, 1, 0x0, 0x0, 0x0, 0x0, 0x0, true, false, false, false⟩,
  ⟨"HST_LEASE_STATE", 0xD090C, 0x10, 16, 0x0, 1, 0x0, 0x0, 0x0, 0x0, 0x0, true, false, false, false⟩,
  ⟨"HST_RING_CFG", 0xD1000, 0x40, 256, 0x0, 1, 0x400, 0x1FFFF3F, 0x0, 0x0, 0x0, false, false, true, false⟩,
  ⟨"HST_RING_CTRL", 0xD1004, 0x40, 256, 0x0, 1, 0x0, 0x1, 0x0, 0x0, 0x0, false, false, false, false⟩,
  ⟨"HST_RING_BASE_LO", 0xD1008, 0x40, 256, 0x0, 1, 0x0, 0xFFFFFFFF, 0x0, 0x0, 0x0, false, false, true, false⟩,
  ⟨"HST_RING_BASE_HI", 0xD100C, 0x40, 256, 0x0, 1, 0x0, 0xFFFFFFFF, 0x0, 0x0, 0x0, false, false, true, false⟩,
  ⟨"HST_RING_CQ_LO", 0xD1010, 0x40, 256, 0x0, 1, 0x0, 0xFFFFFFFF, 0x0, 0x0, 0x0, false, false, true, false⟩,
  ⟨"HST_RING_CQ_HI", 0xD1014, 0x40, 256, 0x0, 1, 0x0, 0xFFFFFFFF, 0x0, 0x0, 0x0, false, false, true, false⟩,
  ⟨"HST_RING_WB_LO", 0xD1018, 0x40, 256, 0x0, 1, 0x0, 0xFFFFFFFF, 0x0, 0x0, 0x0, false, false, true, false⟩,
  ⟨"HST_RING_WB_HI", 0xD101C, 0x40, 256, 0x0, 1, 0x0, 0xFFFFFFFF, 0x0, 0x0, 0x0, false, false, true, false⟩,
  ⟨"HST_RING_STATUS", 0xD1020, 0x40, 256, 0x0, 1, 0x0, 0x0, 0x0, 0x0, 0x0, true, false, false, false⟩,
  ⟨"HST_RING_SQ_IDX", 0xD1024, 0x40, 256, 0x0, 1, 0x0, 0x0, 0x0, 0x0, 0x0, true, false, false, false⟩]

/-- Registers of HST, part 1. -/
def rowsHST1 : List RegRow := [
  ⟨"HST_RING_CQ_IDX", 0xD1028, 0x40, 256, 0x0, 1, 0x0, 0x0, 0x0, 0x0, 0x0, true, false, false, false⟩,
  ⟨"HST_RING_FLAGS", 0xD102C, 0x40, 256, 0x0, 1, 0x0, 0x0, 0x1F, 0x0, 0x0, false, false, false, false⟩,
  ⟨"HST_RING_DROP_CNT", 0xD1030, 0x40, 256, 0x0, 1, 0x0, 0x0, 0x0, 0x0, 0xFFFFFFFF, true, false, false, false⟩,
  ⟨"HST_RING_DONE_CNT", 0xD1034, 0x40, 256, 0x0, 1, 0x0, 0x0, 0x0, 0x0, 0xFFFFFFFF, true, false, false, false⟩,
  ⟨"HST_RING_ERR_IDX", 0xD1038, 0x40, 256, 0x0, 1, 0x0, 0x0, 0x0, 0x0, 0x0, true, false, false, false⟩]

/-- Registers of SVC, part 0. -/
def rowsSVC0 : List RegRow := [
  ⟨"SVC_START_STATUS", 0xE0000, 0x0, 1, 0x0, 1, 0x0, 0x0, 0x0, 0x0, 0x0, true, false, false, false⟩,
  ⟨"SVC_IMG_VER", 0xE0004, 0x0, 1, 0x0, 1, 0x0, 0x0, 0x0, 0x0, 0x0, true, false, false, false⟩,
  ⟨"SVC_LOCK", 0xE0008, 0x0, 1, 0x0, 1, 0x0, 0x0, 0x0, 0x7F, 0x0, false, false, false, false⟩,
  ⟨"SVC_RST_CTRL", 0xE000C, 0x0, 1, 0x0, 1, 0x0, 0x0, 0x0, 0x1, 0x0, false, false, false, false⟩,
  ⟨"SVC_BLK_RST", 0xE0010, 0x0, 1, 0x0, 1, 0x0, 0x0, 0x0, 0xFFFFFFFF, 0x0, false, false, false, false⟩,
  ⟨"SVC_RST_STATUS", 0xE0014, 0x0, 1, 0x0, 1, 0x1, 0x0, 0x0, 0x0, 0x0, true, false, false, false⟩,
  ⟨"SVC_PAIR_STATUS", 0xE0018, 0x0, 1, 0x0, 1, 0x0, 0x0, 0xFFF00, 0x0, 0x0, false, false, false, false⟩,
  ⟨"SVC_PAIR_CTRL", 0xE001C, 0x0, 1, 0x0, 1, 0x0, 0x0, 0x0, 0xF0F, 0x0, false, false, false, false⟩,
  ⟨"SVC_PAIR_ENTRY_LO", 0xE0020, 0x0, 1, 0x0, 1, 0x0, 0xFFFFFFFF, 0x0, 0x0, 0x0, false, false, false, false⟩,
  ⟨"SVC_PAIR_ENTRY_HI", 0xE0024, 0x0, 1, 0x0, 1, 0x0, 0xFFFFFFFF, 0x0, 0x0, 0x0, false, false, false, false⟩,
  ⟨"SVC_FW_STATUS", 0xE0028, 0x0, 1, 0x0, 1, 0x0, 0xFFFF0001, 0x0, 0x0, 0x0, false, false, false, false⟩,
  ⟨"SVC_READY", 0xE002C, 0x0, 1, 0x0, 1, 0x0, 0x0, 0x0, 0x0, 0x0, true, false, false, false⟩,
  ⟨"SVC_BOOT_MBOX", 0xE0030, 0x0, 1, 0x0, 1, 0x0, 0x1FFF, 0x0, 0x80000000, 0x0, false, false, false, false⟩,
  ⟨"SVC_OTP_STATUS", 0xE0034, 0x0, 1, 0x0, 1, 0x0, 0x0, 0x0, 0x0, 0x0, true, false, false, false⟩,
  ⟨"SVC_OTP_CMD", 0xE0038, 0x0, 1, 0x0, 1, 0x0, 0x0, 0x0, 0x0, 0x0, false, true, false, false⟩,
  ⟨"SVC_ACL_HOST", 0xE0040, 0x0, 1, 0x0, 1, 0x3FFFFF, 0x3FFFFF, 0x0, 0x0, 0x0, false, false, false, false⟩,
  ⟨"SVC_ACL_P", 0xE0044, 0x4, 4, 0x0, 1, 0x3FFFFF, 0x3FFFFF, 0x0, 0x0, 0x0, false, false, false, false⟩,
  ⟨"SVC_NOR_CTRL", 0xE0060, 0x0, 1, 0x0, 1, 0x0, 0x3, 0x8, 0x0, 0x0, false, false, false, false⟩,
  ⟨"SVC_NOR_ADDR", 0xE0064, 0x0, 1, 0x0, 1, 0x0, 0x3FFFFFF, 0x0, 0x0, 0x0, false, false, false, false⟩,
  ⟨"SVC_NOR_BUF_LO", 0xE0068, 0x0, 1, 0x0, 1, 0x0, 0xFFFFFFFF, 0x0, 0x0, 0x0, false, false, false, false⟩,
  ⟨"SVC_NOR_BUF_HI", 0xE006C, 0x0, 1, 0x0, 1, 0x0, 0x7, 0x0, 0x0, 0x0, false, false, false, false⟩,
  ⟨"SVC_OTP_KEYDATA", 0xE0080, 0x4, 12, 0x0, 1, 0x0, 0x0, 0x0, 0x0, 0x0, false, true, false, false⟩,
  ⟨"SVC_MBOX_H2F", 0xE0100, 0x4, 16, 0x0, 1, 0x0, 0xFFFFFFFF, 0x0, 0x0, 0x0, false, false, false, false⟩,
  ⟨"SVC_MBOX_F2H", 0xE0140, 0x4, 16, 0x0, 1, 0x0, 0xFFFFFFFF, 0x0, 0x0, 0x0, false, false, false, false⟩]

/-- Registers of SVC, part 1. -/
def rowsSVC1 : List RegRow := [
  ⟨"SVC_MBOX_CTRL", 0xE0180, 0x0, 1, 0x0, 1, 0x0, 0x33F0000, 0x100, 0x55, 0x0, false, false, false, false⟩,
  ⟨"SVC_PWIN_BASE_LO", 0xE0200, 0x40, 4, 0x10, 4, 0x0, 0xFFFFF000, 0x0, 0x0, 0x0, false, false, false, false⟩,
  ⟨"SVC_PWIN_BASE_HI", 0xE0204, 0x40, 4, 0x10, 4, 0x0, 0x7, 0x0, 0x0, 0x0, false, false, false, false⟩,
  ⟨"SVC_PWIN_SIZE", 0xE0208, 0x40, 4, 0x10, 4, 0x1F, 0x3F, 0x0, 0x0, 0x0, false, false, false, false⟩]

/-- Registers of NET, part 0. -/
def rowsNET0 : List RegRow := [
  ⟨"NET_PORT_CFG", 0xF0000, 0x400, 4, 0x0, 1, 0x5EE0000, 0xFFFF07FF, 0x0, 0x0, 0x0, false, false, true, false⟩,
  ⟨"NET_PORT_CTRL", 0xF0004, 0x400, 4, 0x0, 1, 0x0, 0x1, 0x0, 0x0, 0x0, false, false, false, false⟩,
  ⟨"NET_PORT_STATUS", 0xF0008, 0x400, 4, 0x0, 1, 0x0, 0x0, 0x0, 0x0, 0x0, true, false, false, false⟩,
  ⟨"NET_PORT_FLAGS", 0xF000C, 0x400, 4, 0x0, 1, 0x0, 0x0, 0xFF, 0x0, 0x0, false, false, false, false⟩,
  ⟨"NET_MAC_LO", 0xF0010, 0x400, 4, 0x0, 1, 0x0, 0xFFFFFFFF, 0x0, 0x0, 0x0, false, false, true, false⟩,
  ⟨"NET_MAC_HI", 0xF0014, 0x400, 4, 0x0, 1, 0x0, 0xFFFF, 0x0, 0x0, 0x0, false, false, true, false⟩,
  ⟨"NET_TS_CORR", 0xF0018, 0x400, 4, 0x0, 1, 0x0, 0xFFFFFFFF, 0x0, 0x0, 0x0, false, false, true, false⟩,
  ⟨"NET_TXTS_ID", 0xF0020, 0x400, 4, 0x0, 1, 0x0, 0x0, 0x0, 0x0, 0x0, true, false, false, false⟩,
  ⟨"NET_TXTS_NS", 0xF0024, 0x400, 4, 0x0, 1, 0x0, 0x0, 0x0, 0x0, 0x0, true, false, false, false⟩,
  ⟨"NET_TXTS_SEC_LO", 0xF0028, 0x400, 4, 0x0, 1, 0x0, 0x0, 0x0, 0x0, 0x0, true, false, false, false⟩,
  ⟨"NET_TXTS_SEC_HI", 0xF002C, 0x400, 4, 0x0, 1, 0x0, 0x0, 0x0, 0x0, 0x0, true, false, false, false⟩,
  ⟨"NET_TXTS_POP", 0xF0030, 0x400, 4, 0x0, 1, 0x0, 0x0, 0x0, 0x1, 0x0, false, false, false, false⟩,
  ⟨"NET_TX_FRAME_CNT", 0xF0040, 0x400, 4, 0x0, 1, 0x0, 0x0, 0x0, 0x0, 0xFFFFFFFF, true, false, false, false⟩,
  ⟨"NET_RX_FRAME_CNT", 0xF0044, 0x400, 4, 0x0, 1, 0x0, 0x0, 0x0, 0x0, 0xFFFFFFFF, true, false, false, false⟩,
  ⟨"NET_RX_DROP_CNT", 0xF0048, 0x400, 4, 0x0, 1, 0x0, 0x0, 0x0, 0x0, 0xFFFFFFFF, true, false, false, false⟩,
  ⟨"NET_TXTS_DROP_CNT", 0xF004C, 0x400, 4, 0x0, 1, 0x0, 0x0, 0x0, 0x0, 0xFFFFFFFF, true, false, false, false⟩]

/-- Registers of DSP, part 0. -/
def rowsDSP0 : List RegRow := [
  ⟨"DSP_CTRL", 0x100000, 0x400, 2, 0x0, 1, 0x0, 0x1, 0x0, 0x2, 0x0, false, false, false, false⟩,
  ⟨"DSP_COMMIT", 0x100004, 0x400, 2, 0x0, 1, 0x0, 0x0, 0x0, 0x1, 0x0, false, false, false, false⟩,
  ⟨"DSP_STATUS", 0x100008, 0x400, 2, 0x0, 1, 0x0, 0x0, 0x0, 0x0, 0x0, true, false, false, false⟩,
  ⟨"DSP_FLAGS", 0x10000C, 0x400, 2, 0x0, 1, 0x0, 0x0, 0x1FF, 0x0, 0x0, false, false, false, false⟩,
  ⟨"DSP_LINK", 0x100010, 0x400, 2, 0x0, 1, 0xA, 0x3F, 0x0, 0x0, 0x0, false, false, false, true⟩,
  ⟨"DSP_PCLK", 0x100014, 0x400, 2, 0x0, 1, 0x418D4, 0x7FFFF, 0x0, 0x0, 0x0, false, false, false, true⟩,
  ⟨"DSP_HTIM0", 0x100018, 0x400, 2, 0x0, 1, 0x300A00, 0x1FFF1FFF, 0x0, 0x0, 0x0, false, false, false, true⟩,
  ⟨"DSP_HTIM1", 0x10001C, 0x400, 2, 0x0, 1, 0x500020, 0x1FFF1FFF, 0x0, 0x0, 0x0, false, false, false, true⟩,
  ⟨"DSP_VTIM0", 0x100020, 0x400, 2, 0x0, 1, 0x30640, 0x1FFF1FFF, 0x0, 0x0, 0x0, false, false, false, true⟩,
  ⟨"DSP_VTIM1", 0x100024, 0x400, 2, 0x0, 1, 0x250006, 0x1FFF1FFF, 0x0, 0x0, 0x0, false, false, false, true⟩,
  ⟨"DSP_BG", 0x100028, 0x400, 2, 0x0, 1, 0x0, 0xFFFFFF, 0x0, 0x0, 0x0, false, false, false, true⟩,
  ⟨"DSP_LR", 0x10002C, 0x400, 2, 0x0, 1, 0x1E0400, 0xFFFF01, 0x0, 0x0, 0x0, false, false, false, true⟩,
  ⟨"DSP_PL_CFG", 0x100040, 0x400, 2, 0x20, 2, 0xFF00, 0xFF07, 0x0, 0x0, 0x0, false, false, false, true⟩,
  ⟨"DSP_PL_ADDR_LO", 0x100044, 0x400, 2, 0x20, 2, 0x0, 0xFFFFFFFF, 0x0, 0x0, 0x0, false, false, false, true⟩,
  ⟨"DSP_PL_ADDR_HI", 0x100048, 0x400, 2, 0x20, 2, 0x0, 0x7, 0x0, 0x0, 0x0, false, false, false, true⟩,
  ⟨"DSP_PL_STRIDE", 0x10004C, 0x400, 2, 0x20, 2, 0x0, 0x3FFFF, 0x0, 0x0, 0x0, false, false, false, true⟩,
  ⟨"DSP_PL_POS", 0x100050, 0x400, 2, 0x20, 2, 0x0, 0x1FFF1FFF, 0x0, 0x0, 0x0, false, false, false, true⟩,
  ⟨"DSP_PL_SIZE", 0x100054, 0x400, 2, 0x20, 2, 0x0, 0x1FFF1FFF, 0x0, 0x0, 0x0, false, false, false, true⟩,
  ⟨"DSP_CRC_POS", 0x100080, 0x400, 2, 0x10, 4, 0x0, 0x1FFF1FFF, 0x0, 0x0, 0x0, false, false, false, true⟩,
  ⟨"DSP_CRC_SIZE", 0x100084, 0x400, 2, 0x10, 4, 0x0, 0x1FFF1FFF, 0x0, 0x0, 0x0, false, false, false, true⟩,
  ⟨"DSP_CRC_EXP", 0x100088, 0x400, 2, 0x10, 4, 0x0, 0xFFFFFFFF, 0x0, 0x0, 0x0, false, false, false, true⟩,
  ⟨"DSP_CRC_VAL", 0x10008C, 0x400, 2, 0x10, 4, 0x0, 0x0, 0x0, 0x0, 0x0, true, false, false, false⟩,
  ⟨"DSP_CRC_CFG", 0x1000C0, 0x400, 2, 0x0, 1, 0x100, 0xF3F, 0x0, 0x0, 0x0, false, false, false, true⟩,
  ⟨"DSP_FRAME_CNT", 0x1000D0, 0x400, 2, 0x0, 1, 0x0, 0x0, 0x0, 0x0, 0x0, true, false, false, false⟩]

/-- Registers of DSP, part 1. -/
def rowsDSP1 : List RegRow := [
  ⟨"DSP_UNDERRUN_CNT", 0x1000D4, 0x400, 2, 0x0, 1, 0x0, 0x0, 0x0, 0x0, 0xFFFFFFFF, true, false, false, false⟩,
  ⟨"DSP_CRC_MISS_CNT", 0x1000D8, 0x400, 2, 0x0, 1, 0x0, 0x0, 0x0, 0x0, 0xFFFFFFFF, true, false, false, false⟩,
  ⟨"DSP_REPLACE_CNT", 0x1000DC, 0x400, 2, 0x0, 1, 0x0, 0x0, 0x0, 0x0, 0xFFFFFFFF, true, false, false, false⟩,
  ⟨"DSP_BLANK_CNT", 0x1000E0, 0x400, 2, 0x0, 1, 0x0, 0x0, 0x0, 0x0, 0xFFFFFFFF, true, false, false, false⟩,
  ⟨"DSP_SINK", 0x1000E4, 0x400, 2, 0x0, 1, 0x0, 0x0, 0x0, 0x0, 0x0, true, false, false, false⟩,
  ⟨"DSP_DPCD", 0x100100, 0x400, 2, 0x4, 4, 0x0, 0x0, 0x0, 0x0, 0x0, true, false, false, false⟩,
  ⟨"DSP_EDID", 0x100200, 0x400, 2, 0x4, 128, 0x0, 0x0, 0x0, 0x0, 0x0, true, false, false, false⟩]

/-- Registers of HVI, part 0. -/
def rowsHVI0 : List RegRow := [
  ⟨"HVI_AX_CTRL", 0x110000, 0x100, 8, 0x0, 1, 0x0, 0x0, 0x0, 0x0, 0x0, false, true, false, false⟩,
  ⟨"HVI_AX_STATUS", 0x110004, 0x100, 8, 0x0, 1, 0x0, 0x0, 0x0, 0x0, 0x0, true, false, false, false⟩,
  ⟨"HVI_AX_FLAGS", 0x110008, 0x100, 8, 0x0, 1, 0x0, 0x0, 0x7FFF, 0x0, 0x0, false, false, false, false⟩,
  ⟨"HVI_AX_FAULT", 0x11000C, 0x100, 8, 0x0, 1, 0x0, 0x0, 0x0, 0x0, 0x0, true, false, false, false⟩,
  ⟨"HVI_AX_POS", 0x110010, 0x100, 8, 0x0, 1, 0x0, 0x0, 0x0, 0x0, 0x0, true, false, false, false⟩,
  ⟨"HVI_AX_VEL", 0x110014, 0x100, 8, 0x0, 1, 0x0, 0x0, 0x0, 0x0, 0x0, true, false, false, false⟩,
  ⟨"HVI_AX_ANGLE", 0x110018, 0x100, 8, 0x0, 1, 0x0, 0x0, 0x0, 0x0, 0x0, true, false, false, false⟩,
  ⟨"HVI_AX_LATCH", 0x11001C, 0x100, 8, 0x0, 1, 0x0, 0x0, 0x0, 0x0, 0x0, true, false, false, false⟩,
  ⟨"HVI_AX_VMAX", 0x110020, 0x100, 8, 0x0, 1, 0x271000, 0xFFFFFFFF, 0x0, 0x0, 0x0, false, false, false, true⟩,
  ⟨"HVI_AX_ACC", 0x110024, 0x100, 8, 0x0, 1, 0x4E20, 0xFFFFFFFF, 0x0, 0x0, 0x0, false, false, false, true⟩,
  ⟨"HVI_AX_DEC", 0x110028, 0x100, 8, 0x0, 1, 0x4E20, 0xFFFFFFFF, 0x0, 0x0, 0x0, false, false, false, true⟩,
  ⟨"HVI_AX_EDEC", 0x11002C, 0x100, 8, 0x0, 1, 0x186A0, 0xFFFFFFFF, 0x0, 0x0, 0x0, false, false, false, true⟩,
  ⟨"HVI_AX_JERK", 0x110030, 0x100, 8, 0x0, 1, 0x13880, 0xFFFFFFFF, 0x0, 0x0, 0x0, false, false, false, true⟩,
  ⟨"HVI_AX_CUR", 0x110034, 0x100, 8, 0x0, 1, 0x3E8, 0xFFFF, 0x0, 0x0, 0x0, false, false, false, true⟩,
  ⟨"HVI_AX_STILL", 0x110038, 0x100, 8, 0x0, 1, 0x1F41900, 0xFFFFFFF1, 0x0, 0x0, 0x0, false, false, false, true⟩,
  ⟨"HVI_MV_TARGET", 0x110040, 0x100, 8, 0x0, 1, 0x0, 0xFFFFFFFF, 0x0, 0x0, 0x0, false, false, false, true⟩,
  ⟨"HVI_MV_SPEED", 0x110044, 0x100, 8, 0x0, 1, 0x0, 0xFFFFFFFF, 0x0, 0x0, 0x0, false, false, false, true⟩,
  ⟨"HVI_MV_FLAGS", 0x110048, 0x100, 8, 0x0, 1, 0x0, 0x3, 0x0, 0x0, 0x0, false, false, false, true⟩,
  ⟨"HVI_MV_PUSH", 0x11004C, 0x100, 8, 0x0, 1, 0x0, 0x0, 0x0, 0x1, 0x0, false, false, false, false⟩,
  ⟨"HVI_AX_BRIDGE", 0x110050, 0x100, 8, 0x0, 1, 0x5010, 0x1FFFF, 0x0, 0x0, 0x0, false, false, true, false⟩,
  ⟨"HVI_AX_SENSE", 0x110054, 0x100, 8, 0x0, 1, 0xFAE107D0, 0xFFFFFFFF, 0x0, 0x0, 0x0, false, false, true, false⟩,
  ⟨"HVI_AX_PROT", 0x110058, 0x100, 8, 0x0, 1, 0x321388, 0xFFFFFFFF, 0x0, 0x0, 0x0, false, false, true, false⟩,
  ⟨"HVI_AX_WIND_CFG", 0x11005C, 0x100, 8, 0x0, 1, 0x1F4, 0xFFFF, 0x0, 0x0, 0x0, false, false, true, false⟩,
  ⟨"HVI_AX_WIND_LIM", 0x110060, 0x100, 8, 0x0, 1, 0x64026402, 0xFFFFFFFF, 0x0, 0x0, 0x0, false, false, true, false⟩]

/-- Registers of HVI, part 1. -/
def rowsHVI1 : List RegRow := [
  ⟨"HVI_AX_WIND_A", 0x110064, 0x100, 8, 0x0, 1, 0x0, 0x0, 0x0, 0x0, 0x0, true, false, false, false⟩,
  ⟨"HVI_AX_WIND_B", 0x110068, 0x100, 8, 0x0, 1, 0x0, 0x0, 0x0, 0x0, 0x0, true, false, false, false⟩,
  ⟨"HVI_AX_HOME_CFG", 0x11006C, 0x100, 8, 0x0, 1, 0x1F1F1F, 0x3F3F7F, 0x0, 0x0, 0x0, false, false, true, false⟩,
  ⟨"HVI_AX_HOME_VEL", 0x110070, 0x100, 8, 0x0, 1, 0x3E800, 0xFFFFFFFF, 0x0, 0x0, 0x0, false, false, true, false⟩,
  ⟨"HVI_AX_DEB", 0x110074, 0x100, 8, 0x0, 1, 0x328, 0xFFF, 0x0, 0x0, 0x0, false, false, true, false⟩,
  ⟨"HVI_AX_HOME_OFS", 0x110078, 0x100, 8, 0x0, 1, 0x0, 0xFFFFFFFF, 0x0, 0x0, 0x0, false, false, true, false⟩,
  ⟨"HVI_AX_HOME_RANGE", 0x11007C, 0x100, 8, 0x0, 1, 0x1000000, 0xFFFFFFFF, 0x0, 0x0, 0x0, false, false, true, false⟩,
  ⟨"HVI_ISL_STATUS", 0x110800, 0x0, 1, 0x0, 1, 0x0, 0x0, 0x0, 0x0, 0x0, true, false, false, false⟩,
  ⟨"HVI_ISL_CFG", 0x110804, 0x0, 1, 0x0, 1, 0x18380640, 0xFFFFFFFF, 0x0, 0x0, 0x0, false, false, true, false⟩,
  ⟨"HVI_ISL_FLAGS", 0x110808, 0x0, 1, 0x0, 1, 0x0, 0x0, 0x7, 0x0, 0x0, false, false, false, false⟩,
  ⟨"HVI_GLB_CFG", 0x11080C, 0x0, 1, 0x0, 1, 0x1, 0x1, 0x0, 0x0, 0x0, false, false, true, false⟩,
  ⟨"HVI_TAB_ADDR", 0x110810, 0x0, 1, 0x0, 1, 0x0, 0x3FF, 0x0, 0x0, 0x0, false, false, true, false⟩,
  ⟨"HVI_TAB_DATA", 0x110814, 0x0, 1, 0x0, 1, 0x0, 0xFFFF, 0x0, 0x0, 0x0, false, false, true, false⟩]

/-- Registers of EFP, part 0. -/
def rowsEFP0 : List RegRow := [
  ⟨"EFP_CFG", 0x120000, 0x40, 24, 0x0, 1, 0xA00, 0xFF17, 0x0, 0x0, 0x0, false, false, true, false⟩,
  ⟨"EFP_CTRL", 0x120004, 0x40, 24, 0x0, 1, 0x0, 0x1, 0x0, 0x6, 0x0, false, false, false, false⟩,
  ⟨"EFP_STATUS", 0x120008, 0x40, 24, 0x0, 1, 0x0, 0x0, 0x0, 0x0, 0x0, true, false, false, false⟩,
  ⟨"EFP_FLAGS", 0x12000C, 0x40, 24, 0x0, 1, 0x0, 0x0, 0x7FF, 0x0, 0x0, false, false, false, false⟩,
  ⟨"EFP_VALUE", 0x120010, 0x40, 24, 0x0, 1, 0x0, 0x0, 0x0, 0x0, 0x0, true, false, false, false⟩,
  ⟨"EFP_OUT", 0x120014, 0x40, 24, 0x0, 1, 0x0, 0x1FFFF, 0x0, 0x0, 0x0, false, false, false, false⟩,
  ⟨"EFP_GOV_CFG", 0x120018, 0x40, 24, 0x0, 1, 0x4269FA, 0x7FFFFF, 0x0, 0x0, 0x0, false, false, true, false⟩,
  ⟨"EFP_LEAD", 0x12001C, 0x40, 24, 0x0, 1, 0x0, 0xFFFF, 0x0, 0x0, 0x0, false, false, true, false⟩,
  ⟨"EFP_DIAG", 0x120020, 0x40, 24, 0x0, 1, 0x0, 0x0, 0x0, 0x0, 0x0, true, false, false, false⟩,
  ⟨"EFP_TRIP_CNT", 0x120024, 0x40, 24, 0x0, 1, 0x0, 0x0, 0x0, 0x0, 0xFFFFFFFF, true, false, false, false⟩,
  ⟨"EFP_EDGE_CNT", 0x120028, 0x40, 24, 0x0, 1, 0x0, 0x0, 0x0, 0x0, 0xFFFFFFFF, true, false, false, false⟩,
  ⟨"EFP_TRIPPED", 0x120800, 0x0, 1, 0x0, 1, 0x0, 0x0, 0x0, 0x0, 0x0, true, false, false, false⟩,
  ⟨"EFP_CJC", 0x120804, 0x0, 1, 0x0, 1, 0x0, 0x0, 0x0, 0x0, 0x0, true, false, false, false⟩]

/-- Registers of EVR, part 0. -/
def rowsEVR0 : List RegRow := [
  ⟨"EVR_CTRL", 0x130000, 0x0, 1, 0x0, 1, 0x1, 0x1, 0x0, 0xE, 0x0, false, false, false, false⟩,
  ⟨"EVR_STATUS", 0x130004, 0x0, 1, 0x0, 1, 0x0, 0x0, 0x3F00, 0x0, 0x0, false, false, false, false⟩,
  ⟨"EVR_COAL_CFG", 0x130008, 0x0, 1, 0x0, 1, 0xA0064, 0xFFFFFF, 0x0, 0x0, 0x0, false, false, false, false⟩,
  ⟨"EVR_RAM_PROD", 0x13000C, 0x0, 1, 0x0, 1, 0x0, 0x0, 0x0, 0x0, 0x0, true, false, false, false⟩,
  ⟨"EVR_RAM_OLDEST", 0x130010, 0x0, 1, 0x0, 1, 0x0, 0x0, 0x0, 0x0, 0x0, true, false, false, false⟩,
  ⟨"EVR_NOR_POS", 0x130014, 0x0, 1, 0x0, 1, 0x0, 0x0, 0x0, 0x0, 0x0, true, false, false, false⟩,
  ⟨"EVR_RD_CTRL", 0x130018, 0x0, 1, 0x0, 1, 0x0, 0x1, 0x0, 0x0, 0x0, false, false, false, false⟩,
  ⟨"EVR_RD_IDX", 0x13001C, 0x0, 1, 0x0, 1, 0x0, 0xFFFFFFFF, 0x0, 0x0, 0x0, false, false, false, false⟩,
  ⟨"EVR_RD_REC", 0x130020, 0x4, 8, 0x0, 1, 0x0, 0x0, 0x0, 0x0, 0x0, true, false, false, false⟩,
  ⟨"EVR_LG_STATUS", 0x130040, 0x0, 1, 0x0, 1, 0x0, 0x0, 0x0, 0x0, 0x0, true, false, false, false⟩,
  ⟨"EVR_LG_POP", 0x130044, 0x0, 1, 0x0, 1, 0x0, 0x0, 0x0, 0x1, 0x0, false, false, false, false⟩,
  ⟨"EVR_LG_REC", 0x130048, 0x4, 8, 0x0, 1, 0x0, 0x0, 0x0, 0x0, 0x0, true, false, false, false⟩,
  ⟨"EVR_PF_INFO", 0x130068, 0x0, 1, 0x0, 1, 0x0, 0x0, 0x0, 0x0, 0x0, true, false, false, false⟩,
  ⟨"EVR_FAIL_INFO", 0x13006C, 0x0, 1, 0x0, 1, 0x0, 0x0, 0x0, 0x0, 0x0, true, false, false, false⟩,
  ⟨"EVR_LOST_CNT", 0x130070, 0x0, 1, 0x0, 1, 0x0, 0x0, 0x0, 0x0, 0xFFFFFFFF, true, false, false, false⟩,
  ⟨"EVR_COAL_CNT", 0x130074, 0x0, 1, 0x0, 1, 0x0, 0x0, 0x0, 0x0, 0xFFFFFFFF, true, false, false, false⟩,
  ⟨"EVR_NOR_SKIP_CNT", 0x130078, 0x0, 1, 0x0, 1, 0x0, 0x0, 0x0, 0x0, 0xFFFFFFFF, true, false, false, false⟩,
  ⟨"EVR_FILT", 0x130080, 0x4, 16, 0x0, 1, 0x7FFFF00, 0x7FFFF03, 0x0, 0x0, 0x0, false, false, false, false⟩]

/-- Registers of PMC, part 0. -/
def rowsPMC0 : List RegRow := [
  ⟨"PMC_CTRL", 0x140000, 0x0, 1, 0x0, 1, 0x0, 0x1, 0x0, 0x2, 0x0, false, false, false, false⟩,
  ⟨"PMC_USER_EN", 0x140004, 0x0, 1, 0x0, 1, 0x0, 0x1, 0x0, 0x0, 0x0, false, false, false, false⟩,
  ⟨"PMC_SNAP_TICK_LO", 0x140008, 0x0, 1, 0x0, 1, 0x0, 0x0, 0x0, 0x0, 0x0, true, false, false, false⟩,
  ⟨"PMC_SNAP_TICK_HI", 0x14000C, 0x0, 1, 0x0, 1, 0x0, 0x0, 0x0, 0x0, 0x0, true, false, false, false⟩,
  ⟨"PMC_STATUS", 0x140010, 0x0, 1, 0x0, 1, 0x0, 0x0, 0x0, 0x0, 0x0, true, false, false, false⟩,
  ⟨"PMC_OVF_SUM", 0x140014, 0x0, 1, 0x0, 1, 0x0, 0x0, 0x0, 0x0, 0x0, true, false, false, false⟩,
  ⟨"PMC_CNT_CFG", 0x141000, 0x200, 19, 0x4, 16, 0xFF00, 0x1FFFF, 0x0, 0x0, 0x0, false, false, false, false⟩,
  ⟨"PMC_OVF", 0x141040, 0x200, 19, 0x0, 1, 0x0, 0x0, 0xFFFF, 0x0, 0x0, false, false, false, false⟩,
  ⟨"PMC_CNT_LO", 0x141080, 0x200, 19, 0x8, 16, 0x0, 0xFFFFFFFF, 0x0, 0x0, 0x0, false, false, false, false⟩,
  ⟨"PMC_CNT_HI", 0x141084, 0x200, 19, 0x8, 16, 0x0, 0xFFFF, 0x0, 0x0, 0x0, false, false, false, false⟩,
  ⟨"PMC_SNAP_LO", 0x141100, 0x200, 19, 0x8, 16, 0x0, 0x0, 0x0, 0x0, 0x0, true, false, false, false⟩,
  ⟨"PMC_SNAP_HI", 0x141104, 0x200, 19, 0x8, 16, 0x0, 0x0, 0x0, 0x0, 0x0, true, false, false, false⟩]

/-- Registers of ASY, part 0. -/
def rowsASY0 : List RegRow := [
  ⟨"ASY_STATUS", 0x150000, 0x0, 1, 0x0, 1, 0x0, 0x0, 0x0, 0x0, 0x0, true, false, false, false⟩,
  ⟨"ASY_CTRL", 0x150004, 0x0, 1, 0x0, 1, 0x0, 0x0, 0x0, 0x1, 0x0, false, false, false, false⟩,
  ⟨"ASY_FLAGS", 0x150008, 0x0, 1, 0x0, 1, 0x0, 0x0, 0xF, 0x0, 0x0, false, false, false, false⟩,
  ⟨"ASY_TRIM", 0x150100, 0x4, 56, 0x0, 1, 0x0, 0xFFF0FFF, 0x0, 0x0, 0x0, false, false, true, false⟩]

/-- Registers of MON, part 0. -/
def rowsMON0 : List RegRow := [
  ⟨"MON_STATUS", 0x150800, 0x0, 1, 0x0, 1, 0x0, 0x0, 0x0, 0x0, 0x0, true, false, false, false⟩,
  ⟨"MON_FLAGS", 0x150804, 0x0, 1, 0x0, 1, 0x0, 0x0, 0xFF, 0x0, 0x0, false, false, false, false⟩,
  ⟨"MON_THERM_CFG", 0x150808, 0x0, 1, 0x0, 1, 0x35F5A, 0xFFFFF, 0x0, 0x0, 0x0, false, false, false, false⟩,
  ⟨"MON_TEMP", 0x150840, 0x4, 12, 0x0, 1, 0x0, 0x0, 0x0, 0x0, 0x0, true, false, false, false⟩,
  ⟨"MON_RAIL", 0x150880, 0x8, 8, 0x0, 1, 0x0, 0x0, 0x0, 0x0, 0x0, true, false, false, false⟩,
  ⟨"MON_RAIL_THR", 0x150884, 0x8, 8, 0x0, 1, 0x0, 0xFFFFFFFF, 0x0, 0x0, 0x0, false, false, false, false⟩]

/-- The source block numbers of R402. -/
def blockOf (a : Nat) : Nat :=
  if 0x0 ≤ a ∧ a < 0x10000 then 0 else
  if 0x10000 ≤ a ∧ a < 0x20000 then 1 else
  if 0x20000 ≤ a ∧ a < 0x40000 then 2 else
  if 0x40000 ≤ a ∧ a < 0x50000 then 3 else
  if 0x50000 ≤ a ∧ a < 0x60000 then 4 else
  if 0x80000 ≤ a ∧ a < 0xA0000 then 5 else
  if 0xA0000 ≤ a ∧ a < 0xC0000 then 6 else
  if 0xC0000 ≤ a ∧ a < 0xC8000 then 7 else
  if 0xC8000 ≤ a ∧ a < 0xD0000 then 8 else
  if 0xD0000 ≤ a ∧ a < 0xE0000 then 9 else
  if 0xE0000 ≤ a ∧ a < 0xF0000 then 10 else
  if 0xF0000 ≤ a ∧ a < 0x100000 then 11 else
  if 0x100000 ≤ a ∧ a < 0x110000 then 12 else
  if 0x110000 ≤ a ∧ a < 0x120000 then 13 else
  if 0x120000 ≤ a ∧ a < 0x130000 then 14 else
  if 0x130000 ≤ a ∧ a < 0x140000 then 15 else
  if 0x140000 ≤ a ∧ a < 0x150000 then 16 else
  if 0x150000 ≤ a ∧ a < 0x150800 then 17 else
  if 0x150800 ≤ a ∧ a < 0x160000 then 18 else
  if 0x800000 ≤ a ∧ a < 0x900000 then 9 else 0

/-- The rows of the block that an offset lies in. -/
def rowsAt (a : Nat) : List RegRow :=
  if 0x0 ≤ a ∧ a < 0x10000 then rowsGLB0 else
  if 0x10000 ≤ a ∧ a < 0x20000 then rowsTTU0 ++ rowsTTU1 ++ rowsTTU2 else
  if 0x20000 ≤ a ∧ a < 0x40000 then rowsSCN0 ++ rowsSCN1 else
  if 0x40000 ≤ a ∧ a < 0x50000 then rowsSLD0 else
  if 0x50000 ≤ a ∧ a < 0x60000 then rowsMPC0 ++ rowsMPC1 ++ rowsMPC2 else
  if 0x80000 ≤ a ∧ a < 0xA0000 then rowsCAM0 ++ rowsCAM1 else
  if 0xA0000 ≤ a ∧ a < 0xC0000 then rowsLNK0 ++ rowsLNK1 else
  if 0xC0000 ≤ a ∧ a < 0xC8000 then rowsDRC0 else
  if 0xC8000 ≤ a ∧ a < 0xD0000 then rowsCRB0 else
  if 0xD0000 ≤ a ∧ a < 0xE0000 then rowsHST0 ++ rowsHST1 else
  if 0xE0000 ≤ a ∧ a < 0xF0000 then rowsSVC0 ++ rowsSVC1 else
  if 0xF0000 ≤ a ∧ a < 0x100000 then rowsNET0 else
  if 0x100000 ≤ a ∧ a < 0x110000 then rowsDSP0 ++ rowsDSP1 else
  if 0x110000 ≤ a ∧ a < 0x120000 then rowsHVI0 ++ rowsHVI1 else
  if 0x120000 ≤ a ∧ a < 0x130000 then rowsEFP0 else
  if 0x130000 ≤ a ∧ a < 0x140000 then rowsEVR0 else
  if 0x140000 ≤ a ∧ a < 0x150000 then rowsPMC0 else
  if 0x150000 ≤ a ∧ a < 0x150800 then rowsASY0 else
  if 0x150800 ≤ a ∧ a < 0x160000 then rowsMON0 else
  []

/-- The row of a register, by its offset; `none` where the index of R474 names no register (R472). -/
def rowOf (a : Nat) : Option RegRow := (rowsAt a).find? (·.hit a)

/-- The ranges of R471 with the block that owns each. -/
def ranges : List (Nat × Nat × Nat) :=
  [(0x000000, 0x00000B, 0), (0x010000, 0x010317, 1), (0x020000, 0x02FFFF, 2), (0x030000, 0x030047, 2),
   (0x040000, 0x0402FF, 3), (0x050000, 0x05004F, 4), (0x058000, 0x05FFFF, 4), (0x080000, 0x08FFFF, 5),
   (0x090000, 0x090007, 5), (0x0A0000, 0x0B2FFF, 6), (0x0BF000, 0x0BF027, 6), (0x0C0000, 0x0C0217, 7),
   (0x0C8000, 0x0C8017, 8), (0x0D0000, 0x0D4FFF, 9), (0x0D6000, 0x0D63FF, 9), (0x0D7000, 0x0D7007, 9)] ++
  [(0x0E0000, 0x0E02FF, 10), (0x0F0000, 0x0F0FFF, 11), (0x100000, 0x1007FF, 12), (0x110000, 0x110817, 13),
   (0x120000, 0x120807, 14), (0x130000, 0x1300BF, 15), (0x140000, 0x1435FF, 16), (0x150000, 0x1507FF, 17),
   (0x150800, 0x1508BF, 18), (0x800000, 0x8FFFFF, 9)]

/-- The block that owns an offset: that of its range, GLB outside every range (R403, R471). -/
def ownerOf (a : Nat) : Nat := ((ranges.find? fun x => x.1 ≤ a && a ≤ x.2.1).map (·.2.2)).getD 0

/-- The LOW and HIGH reset thresholds of the rails, in mV (R438). -/
def railReset : List (Nat × Nat) :=
  [(713, 788), (760, 840), (855, 945), (1045, 1155), (1710, 1890), (1710, 1890), (3135, 3465), (3135, 3465)]

/-- The reset value of a register: its row's, but for SVC_PWIN_SIZE of windows 1 to 3 (R381) and the rail
thresholds (R438). -/
def resetOf (a : Nat) : BitVec 32 :=
  match rowOf a with
  | none => 0
  | some r =>
    if r.name = "SVC_PWIN_SIZE" then (if r.memb a = 0 then 0x1F else 0)
    else if r.name = "MON_RAIL_THR" then
      let p := railReset.getD (r.inst a) (0, 0)
      BitVec.ofNat 32 (p.1 + 0x10000 * p.2)
    else BitVec.ofNat 32 r.reset

end Sys2Proof.Machine
end

