-- ==== Sys2Proof/Machine/State.lean ====
section
/-! DEFINITION. The state of the block as plain data: every register, queue, counter, mode and pin the spec
gives it, the queue of waiting commands, the state after reset, and the reasons a step can stop. -/

namespace Sys2Proof.Machine

/-- No command of the block ends in a fault: a command whose conditions do not hold is discarded as the
spec says, or leaves the state as it is. -/
inductive Fault where
  deriving DecidableEq, Repr

/-- Why the block has no meaning for a command. `notModelled` is raised by an arm of `exec` that has no
meaning yet; it is safe, since no claim about such a command can be proved. -/
inductive Refusal where
  | notModelled (mnemonic : String)
  deriving DecidableEq, Repr

/-! ### Ingots (R65 to R81) -/

/-- A machine point: X, Y and focus offset, in LSB of 0.125 µm or in 1/16 LSB. -/
structure Pt where
  x : Int
  y : Int
  z : Int
  deriving DecidableEq, Repr

/-- A power profile (R74). -/
structure Profile where
  pMark : Nat
  pStart : Nat
  pEnd : Nat
  rampIn : Nat
  rampOut : Nat
  lon : Int
  loff : Int
  sky : Nat
  deriving DecidableEq, Repr

/-- A directory entry (R70). -/
structure Billet where
  off : Nat
  count : Nat
  headA : Nat
  headB : Nat
  tile : Nat
  kind : Nat
  start : Pt
  dur : Nat
  crc : Nat
  deriving DecidableEq, Repr

/-- An Ingot as the load checks read it: the header's fields (R68) and, once checked, its directory, head
lists, shared list and profiles. -/
structure Ingot where
  base : Nat
  len : Nat
  layerNo : Nat
  devIndex : Nat
  strict : Bool
  temperMode : Nat
  headMask : BitVec 64
  dirOff : Nat
  dirCount : Nat
  listOff : Nat
  sharedOff : Nat
  sharedCount : Nat
  profOff : Nat
  profCount : Nat
  temperOff : Nat
  nx : Nat
  ny : Nat
  x0 : Int
  y0 : Int
  dir : List Billet
  lists : List (List Nat)
  shared : List Nat
  profiles : List Profile
  deriving DecidableEq, Repr


/-! ### Memories -/

/-- A memory as a list of (address, byte) pairs: addresses strictly rising, no entry equal to what an
unlisted address reads as. -/
abbrev Memory := List Host.Cell

/-- One store that a command has issued and that is applied when the command's effect is complete.
`dram`: device DRAM (R293). `host`: host memory, in the order of issue (R318). `nor`: programmed NOR
bytes. `norErase`: an erased NOR range (R372, R386, R410). -/
inductive MemWrite where
  | dram (addr : Nat) (bytes : List Byte)
  | host (addr : Nat) (bytes : List Byte)
  | nor (addr : Nat) (bytes : List Byte)
  | norErase (addr len : Nat)
  /-- Zeros stored over a range of device DRAM. -/
  | dramZero (addr len : Nat)
  /-- The service scratchpad of Crucible (R312). -/
  | spad (addr : Nat) (bytes : List Byte)
  /-- A module reset: device DRAM and the scratchpad hold their reset contents again (R366). -/
  | dramClear
  deriving DecidableEq, Repr

/-- The memories: device DRAM (R293), what the device has written to host memory (R318), the 512 Mbit NOR (R372), and the
service scratchpad of Crucible (R312). -/
structure Mems where
  dram : Memory
  host : Memory
  nor : Memory
  spad : Memory
  deriving DecidableEq, Repr

/-- The OTP domain (R366, R376): never reset. -/
structure Fuses where
  /-- The SHA-384 hash programmed in each key slot; `none` while the slot is empty. -/
  keys : Vector (Option (List Byte)) 4
  /-- Bit k: key slot k is revoked. -/
  revoked : BitVec 4
  /-- The minimum security version. -/
  minVer : Nat
  deriving DecidableEq, Repr

/-! ### Register access (R12 to R18) -/

/-- An open latched view of one requester (R17): the group's first offset and the members not yet served,
each with its latched value. -/
structure View where
  req : Requester
  group : Nat
  left : List (Nat × Word)
  deriving DecidableEq, Repr

/-- A staged write of a _LO half or of a triple member (R17, R353). -/
structure Staged where
  req : Requester
  off : Nat
  val : Word
  deriving DecidableEq, Repr

/-! ### Event recorder (R401 to R420) -/

/-- An event in the intake queue (R406), with the fields a record takes from it. `t` is its time in ns. -/
structure Event where
  blk : Nat
  num : Nat
  inst : Nat
  glob : Bool
  sev : Nat
  t : Nat
  p0 : Word
  p1 : Word
  p2 : Word
  deriving DecidableEq, Repr

/-- A record (R401): an event with the occurrences merged into it, its absolute number and LAST_GASP. -/
structure Record where
  ev : Event
  rep : Nat
  num : Nat
  lg : Bool
  deriving DecidableEq, Repr

/-- An open record (R407) and the end of its coalescing window, in ns. -/
structure OpenRec where
  ev : Event
  rep : Nat
  till : Nat
  deriving DecidableEq, Repr

/-- A sector erase of the event log: ahead of the write position (R410), of every sector under CLR_NOR
(R420), or to leave NOR_FAILED (R417). -/
inductive LogErase where
  | ahead (sector : Nat)
  | all (sector : Nat)
  | recover (sector : Nat)
  deriving DecidableEq, Repr

/-- The event recorder. -/
structure Evr where
  /-- The intake queue, oldest first, at most 256 events (R406). -/
  intake : List Event
  /-- Events lost and not yet reported by an INTAKE_LOST record (R406). -/
  lostPend : Nat
  /-- The open records, at most 32 (R407). -/
  opens : List OpenRec
  /-- Absolute number of the next record (EVR_RAM_PROD, R408). -/
  next : Nat
  /-- The records held in the RAM ring, oldest first, at most 4,096 (R408). -/
  ram : List Record
  /-- Absolute number of the oldest record held (EVR_RAM_OLDEST). -/
  oldest : Nat
  /-- Records of the RAM ring with absolute numbers below this have been written to the NOR log or passed over. -/
  norNext : Nat
  /-- The last-gasp file, oldest first, at most 16 (R413, R415); AON. -/
  lg : List Record
  /-- A flush is in progress (R411). -/
  flushing : Bool
  /-- A power-fail flush is in progress (R414). -/
  pfFlush : Bool
  /-- Records written by the power-fail flush so far. -/
  pfWritten : Nat
  /-- When the power-fail flush began, as `up` counts. -/
  pfAt : Nat
  /-- CLR_RAM waits for its flush to complete (R420). -/
  clrRam : Bool
  /-- CLR_NOR is in progress (R420). -/
  clrNor : Bool
  /-- Writing resumes after NOR_EN once the next sector is erased (R417). -/
  recovering : Bool
  /-- R417. -/
  norFailed : Bool
  /-- R418. -/
  ramFailed : Bool
  /-- The records of the page program in progress, written from the write position up; the Bool says a
  record comes from the last-gasp file. -/
  prog : Option (List (Record × Bool))
  /-- The sector erase in progress. -/
  erase : Option LogErase
  /-- The write slot, 0 to 262,143 (EVR_NOR_POS, R412); AON. -/
  pos : Nat
  /-- Bit k: sector k of the log is erased (R410). -/
  erased : BitVec 128
  /-- The record requested through EVR_RD_IDX and not yet loaded (R419). -/
  rdPend : Bool
  /-- That request names a NOR slot. -/
  rdNor : Bool
  /-- The bytes shown in EVR_RD_REC0 to EVR_RD_REC7. -/
  rdRec : List Byte
  rdValid : Bool
  rdStale : Bool
  /-- Absolute numbers of records found uncorrectable (R416). -/
  lostNums : List Nat
  /-- Absolute numbers of records that entered the last-gasp file, which are not the RAM ring's (R408). -/
  lgNums : List Nat
  deriving DecidableEq, Repr

/-! ### Host interface (R317 to R347) -/

/-- The states of a ring (HST_RING_STATUS). -/
inductive RingState where
  | disabled | enabled | disabling | error
  deriving DecidableEq, Repr

/-- A fetched request entry and its index. -/
structure Desc where
  idx : Nat
  bytes : List Byte
  deriving DecidableEq, Repr

/-- A completion to post (R327). An INFO field that its opcode does not fill for the outcome is `none`: its
value is open. -/
structure Compl where
  idx : Nat
  status : Nat
  irq : Bool
  final : Bool
  info0 : Option Nat
  info1 : Option Nat
  deriving DecidableEq, Repr

/-- Where a completion goes: the ring, the entry it completes and its IRQ flag. -/
structure DescRef where
  ring : Nat
  idx : Nat
  irq : Bool
  deriving DecidableEq, Repr

/-- A chain in execution (R334): the CHAIN descriptor it completes, the address of the entry in hand, the
entries of the block still to run, that one included, and the steps executed. -/
structure ChainRun where
  addr : Nat
  left : Nat
  steps : Nat
  deriving DecidableEq, Repr

/-- What the descriptor in progress on a ring waits for. -/
inductive Work where
  /-- A COPY with `done` of `len` bytes written (R337). -/
  | copy (src dst len done : Nat)
  /-- A LOAD whose checks run, with the header as it was read (R82). -/
  | load (lease : Nat) (header : List Byte)
  /-- A LATTICE_LOAD that copies (R141). -/
  | lattice (head bank : Nat)
  /-- A registration run (R144). -/
  | registration
  /-- An Assay run (R430). -/
  | assay
  /-- A KLP_PASS whose source data is read from host memory (R341). -/
  | passFetch (head rpl rplMax : Nat)
  /-- A KLP_PASS that awaits its reply (R341). -/
  | passReply (head rpl rplMax : Nat)
  /-- A REG_WRITE that waits for the boundary of its commit (R339). -/
  | regCommit (mask : Nat)
  /-- An AX_MOVE that waits for its commit boundary, and whether it was refused at once (R342). -/
  | axMove (axis : Nat) (full : Bool)
  /-- An AX_CMD that waits for the boundary that takes it (R342). -/
  | axCmd (axis : Nat)
  /-- A NET_TX whose frame is read from host memory, or is in transmission (R343). -/
  | netTx (port : Nat) (sent : Bool)
  /-- The entries of a chain block are read from host memory (R334). -/
  | chainFetch
  deriving DecidableEq, Repr

/-- A buffer posted by FRAME_BUF or NET_RX (R343). -/
structure Buffer where
  idx : Nat
  irq : Bool
  addr : Nat
  len : Nat
  deriving DecidableEq, Repr

/-- The descriptor in progress. -/
structure Current where
  desc : Desc
  work : Work
  deriving DecidableEq, Repr

/-- One ring pair (R321 to R335, R344). Indices are free-running u16 values (R324). -/
structure Ring where
  state : RingState
  sqTail : BitVec 16
  sqHead : BitVec 16
  cqTail : BitVec 16
  cqHead : BitVec 16
  recProd : BitVec 16
  recCons : BitVec 16
  /-- Entries fetched and not begun, oldest first. -/
  fetched : List Desc
  cur : Option Current
  chain : Option (Desc × ChainRun)
  /-- The chain entry in hand, not begun. -/
  chainHead : Option Desc
  bufs : List Buffer
  /-- FRAME and NET_RX rings: the entries begun and not completed, in ring order, each with its completion where that
  waits for an earlier entry's (R331). -/
  wait : List (Nat × Option Compl)
  /-- Completions that a full completion ring holds back under BLOCK (R335). -/
  held : List Compl
  /-- STARTs accepted and pending RELEASED completions owed on this ring (R328). -/
  owedLate : Nat
  /-- REJ_CAUSE of R323. -/
  rejCause : Nat
  /-- The indices changed since the last write-back block (R326). -/
  wbPend : Bool
  /-- EVENT rings: absolute number of the next record to deliver (R409). -/
  cursor : Nat
  deriving DecidableEq, Repr

/-- What an outstanding host-memory read is for (R319, R333). -/
inductive ReadUse where
  | fetch (first count : Nat)
  | chainEntry
  | copyStep (len : Nat)
  | passData (len : Nat)
  | frameData (len : Nat)
  deriving DecidableEq, Repr

/-- An outstanding host-memory read. -/
structure HostRead where
  id : Nat
  ring : Nat
  addr : Nat
  len : Nat
  use : ReadUse
  deriving DecidableEq, Repr

/-- The states of a lease entry (R85). -/
inductive LeaseState where
  | free | loading | loaded | armed | running
  deriving DecidableEq, Repr

/-- An accepted START (R338). -/
structure StartRef where
  ref : Option DescRef
  report : Nat
  tick : Nat
  deriving DecidableEq, Repr

/-- One lease entry (R84 to R89, R93, R94). -/
structure Lease where
  state : LeaseState
  base : Nat
  /-- Guarded length, INGOT_LEN rounded up to 4 KiB. -/
  len : Nat
  layerNo : Nat
  /-- A write reached the range while LOADING (R94). -/
  written : Bool
  /-- A RELEASE is deferred (REL_PEND), and where its RELEASED completion goes. -/
  relPend : Bool
  relRef : Option DescRef
  start : Option StartRef
  ingot : Option Ingot
  /-- The registration run's own lease (R144). -/
  own : Bool
  deriving DecidableEq, Repr

/-- One MSI-X table entry (R317, R329). -/
structure MsixEntry where
  addrLo : Word
  addrHi : Word
  data : Word
  ctrl : Word
  deriving DecidableEq, Repr

/-- The host interface. -/
structure Hst where
  rings : Vector Ring 256
  /-- The ring at which the engine's round-robin order goes on (R332). -/
  turn : Nat
  /-- The host-memory reads outstanding, oldest first (R333). -/
  reads : List HostRead
  /-- Reads that wait until one outstanding completes; `id` is given as a read is issued (R333). -/
  readWait : List HostRead
  readId : Nat
  leases : Vector Lease 16
  msix : Vector MsixEntry 64
  /-- The MSI-X pending-bit array. -/
  pba : BitVec 64
  /-- Bit v: vector v lies in its moderation spacing (R329). -/
  spacing : BitVec 64
  /-- Bit v: a condition of vector v waits for the end of the spacing (R329). -/
  waiting : BitVec 64
  linkUp : Bool
  speed : Nat
  width : Nat
  bme : Bool
  /-- MSI-X Enable and Function Mask of the function's configuration space (R317, R329). -/
  msixOn : Bool
  msixMask : Bool
  /-- AER's uncorrectable error status (R319). -/
  aer : Word
  /-- AER's First Error Pointer. -/
  aerFirst : Nat
  /-- Status register [13:12]: Received Master Abort, Received Target Abort (R319). -/
  aborts : BitVec 2
  deriving DecidableEq, Repr

/-! ### DRAM and Crucible (R293 to R316) -/

/-- One channel of the DRAM controller. -/
structure DramChan where
  up : Bool
  hot : Bool
  /-- Accumulated drift since the last full training, ps (R309). -/
  drift : Int
  /-- Activations per (bank, requester) in the current row-hammer window (R310). -/
  acts : List ((Nat × Nat) × Nat)
  /-- Throttled (bank, requester) pairs of the window. -/
  throttled : List (Nat × Nat)
  deriving DecidableEq, Repr

/-- The DRAM controller and Crucible. -/
structure Drc where
  initDone : Bool
  chans : Vector DramChan 2
  /-- The channel under full retraining, if any (R309). -/
  training : Option Nat
  /-- Channels still to retrain in the retraining in progress. -/
  trainLeft : List Nat
  needed : Bool
  /-- The retraining that waits is held off until the next layer gap. -/
  heldOff : Bool
  /-- The next burst that patrol scrub reads (R305). -/
  scrubPos : Nat
  scrubPasses : Nat
  /-- The next word that Crucible scrub reads (R314). -/
  crbPos : Nat
  crbPasses : Nat
  deriving DecidableEq, Repr

/-! ### Start-up and the service cluster (R366 to R386) -/

/-- The boot states of R371. -/
inductive BootState where
  | dramInit | bootA | bootB | bootMbox | fwRun | bootFail
  deriving DecidableEq, Repr

/-- An OTP command in progress (R376). -/
inductive OtpOp where
  | minVer (ver : Nat)
  | revoke (key : Fin 4)
  | program (key : Fin 4) (hash : List Byte)
  deriving DecidableEq, Repr

/-- A NOR operation of SVC_NOR_CTRL in progress (R386). -/
inductive NorOp where
  | erase (addr : Nat)
  | program (addr : Nat) (bytes : List Byte)
  deriving DecidableEq, Repr

/-- The service cluster. -/
structure Svc where
  boot : BootState
  /-- Sources still to try after the present one (R370). -/
  sources : List BootState
  bootsel : Nat
  dramFail : Bool
  source : Nat
  resA : Nat
  resB : Nat
  resMbox : Nat
  /-- A mailbox image waits for its check, with its length in bytes (R373). -/
  mboxGo : Option Nat
  /-- KEY_IDX and SEC_VER of the running image. -/
  runKey : Option (Fin 4)
  runVer : Nat
  /-- Locked groups (R377). -/
  locks : BitVec 7
  otp : Option OtpOp
  otpRej : Bool
  running : BitVec 4
  /-- Pending local interrupt lines of each pair (R329, R383). -/
  lines : Vector (BitVec 64) 4
  /-- Pairs whose local interrupt lines are masked (R380). -/
  masked : BitVec 4
  /-- The address at which each pair last started (R371, R380). -/
  startedAt : Vector Nat 4
  nor : Option NorOp
  h2fFull : Bool
  f2hFull : Bool
  /-- A module reset has been requested and not yet taken. -/
  resetReq : Bool
  /-- The power-fail sequence runs (R369). -/
  pfail : Bool
  /-- The module reset of a power-fail sequence waits for its release (R369). -/
  held : Bool
  deriving DecidableEq, Repr

/-! ### Ticks and time (R37 to R64, R348 to R365) -/

/-- The states of a domain (R355). -/
inductive DomState where
  | off | acquire | locked | holdover | lost
  deriving DecidableEq, Repr

/-- A regrid accepted and not yet in force (R44, R45). -/
structure Regrid where
  n : Nat
  sec : Nat
  ns : Nat
  deriving DecidableEq, Repr

/-- What missed its deadline in the tick in progress (R48). -/
structure Misses where
  prop : BitVec 64
  /-- The arbitrate stage missed: the shared Billets it had resolved and the spots it had cleared by then. -/
  arb : Option (List Nat × BitVec 64)
  fin : BitVec 64
  pwr : BitVec 64
  axl : BitVec 16
  deriving DecidableEq, Repr

/-- A pulse of TICK_OUT (R62): the tick at whose boundary it aims, and its lead and width in sub-tick units. -/
structure TickPulse where
  tick : Nat
  lead : Nat
  width : Nat
  deriving DecidableEq, Repr

/-- The tick and time unit. -/
structure Ttu where
  /-- Index of the current tick. -/
  index : Nat
  /-- The local clock, in 2^-32 ns; AON. -/
  lcl : Nat
  /-- The domain clocks, in 2^-32 ns; AON. -/
  dom : Vector Nat 2
  /-- Reference-clock edges since power-on, by which the device measures its own times (the model's own field); AON. -/
  up : Nat
  /-- Reference-clock edges since the last tick boundary, and the billionths of an edge by which that boundary lay past
  the edge before it (R37, R352). -/
  since : Nat
  frac : Nat
  /-- The active domain in force (ACT). -/
  act : Fin 2
  /-- A requested active domain that waits for the next boundary (R356). -/
  selPend : Option (Fin 2)
  domState : Vector DomState 2
  good : Vector Nat 2
  /-- A regrid has completed since reset. -/
  anchored : Bool
  lock : Bool
  /-- The phase error of the last boundary, in quarters of 2^-32 ns (R41). -/
  phase : Int
  steerSat : Bool
  slipped : Bool
  regrid : Option Regrid
  /-- The boundary B of an accepted regrid has passed: the gap runs (R45). -/
  gap : Bool
  /-- A tick is in progress: its stages have not run. -/
  inTick : Bool
  miss : Misses
  /-- Active-domain time at that boundary, in 2^-32 ns. -/
  gapFrom : Nat
  /-- TICK_OUT settings in force, and the last pulse, until the tick of its boundary ends (R62). -/
  outCfg : Word
  outDiv : Word
  tickOut : Option TickPulse
  /-- PPS_OUT is high until `up` reaches this count (R361). -/
  ppsTill : Nat
  /-- The last whole second for which PPS_OUT rose or was passed over. -/
  ppsSec : Nat
  ppsInUnread : Bool
  noLock : Bool
  deriving DecidableEq, Repr

/-- An Ethernet frame in transmission, or held back by PAUSE: its NET_TX fields and bytes (R343, R349), and whether it
has passed the reference plane (R359). -/
structure TxFrame where
  tsReq : Bool
  tsId : Nat
  bytes : List Byte
  bad : Bool
  passed : Bool
  deriving DecidableEq, Repr

/-- An entry of the transmit timestamp queue (R359), in whole ns of the local clock. -/
structure TxStamp where
  id : Nat
  t : Nat
  deriving DecidableEq, Repr

/-- One Ethernet port. -/
structure EthPort where
  linkUp : Bool
  speed : Nat
  anDone : Bool
  /-- Transmission is paused until `up` reaches this count (R349). -/
  pauseTill : Nat
  tx : Option TxFrame
  txts : List TxStamp
  /-- The bytes of the last frame that left the port, FCS included. -/
  wire : List Byte
  deriving DecidableEq, Repr

/-! ### Lattice banks (R129 to R133) -/

/-- The states of a lattice bank (R129). -/
inductive BankState where
  | empty | loading | ready | failed
  deriving DecidableEq, Repr

/-- A lattice bank in Crucible and the image bytes it holds. -/
structure Bank where
  state : BankState
  image : List Byte
  deriving DecidableEq, Repr

/-! ### Head engines (R99 to R127) -/

/-- The kinds of segment: those of records (R101), run-ins and run-outs (R112), and implicit jumps (R73,
R113). -/
inductive SegKind where
  | jump | mark | poly | dwell | runIn | runOut | implicit
  deriving DecidableEq, Repr

/-- One segment of a Billet's path. `joined`: it continues the motion run of the segment before it.
`expo`: the exposure run it belongs to, counted from 1; 0 for none. `dur`: a dwell's sub-tick units. -/
structure Seg where
  kind : SegKind
  a : Pt
  b : Pt
  prof : Nat
  speed : Nat
  vid : Nat
  dur : Nat
  joined : Bool
  expo : Nat
  deriving DecidableEq, Repr

/-- A joint in the look-ahead window (R108, R109): the later segment's number, the blend half-width and the
joint speed, formed when the joint entered the window. -/
structure Joint where
  seg : Nat
  b : Nat
  w : Nat
  deriving DecidableEq, Repr

/-- Why a Billet ends before its last record: an invalid record (R92), a segment outside the lattice-valid
area (R138), an uncorrectable lattice word (R143). -/
inductive EndCause where
  | record | oob | ue
  deriving DecidableEq, Repr

/-- The Billet in execution. -/
structure Cur where
  billet : Nat
  shared : Bool
  /-- Its first record's first work has been committed (R153, R154). -/
  started : Bool
  path : List Seg
  /-- 1 if the path begins with the implicit jump of R73, else 0. -/
  lead : Nat
  /-- Number of the first segment of the motion run in hand, or of the next one. -/
  pos : Nat
  /-- Segments checked under R138 so far. -/
  checked : Nat
  cause : Option EndCause
  /-- Ticks since its implicit jump began in which the head was not held (R155). -/
  ticks : Nat
  joints : List Joint
  profiles : List Profile
  deriving DecidableEq, Repr

/-- The motion run or dwell in hand: arc length, velocity and acceleration in Q32.32 (R105), the ticks that
its start is delayed (R116), and a dwell's remaining units. -/
structure Run where
  s : Int
  v : Int
  a : Int
  delay : Nat
  left : Nat
  deriving DecidableEq, Repr

/-- The exposure run in hand (R102, R116, R119). -/
structure Expo where
  num : Nat
  /-- Its marked length L in LSB, and the profiles of its first and last segments. -/
  len : Nat
  first : Profile
  last : Profile
  /-- Its on edge and its off edge have been placed. -/
  onSet : Bool
  offSet : Bool
  leading : Bool
  trailing : Bool
  deriving DecidableEq, Repr

/-- Motion limits in tick units (R105), with the register velocities that R106 compares with. -/
structure Lims where
  jv : Int
  ja : Int
  mv : Int
  ma : Int
  zv : Int
  za : Int
  j : Int
  tol : Nat
  jvMm : Nat
  mvMm : Nat
  zvMm : Nat
  deriving DecidableEq, Repr

/-- What a head waits for between runs (R104). -/
inductive WaitKind where
  | none | settle | rest
  deriving DecidableEq, Repr

/-- The tick in which a head was held, and for what; `run`: it was not held. -/
inductive Hold where
  | run | miss | abort | defer | link | gated | ue
  deriving DecidableEq, Repr

/-- What a head's last computed tick sends to the head (R121, R122, R50): galvo samples, focus, edges,
scheduled and seam pairs, and whether the laser was on at its start and at any instant of it. -/
structure HeadOut where
  qx : Int × Int × Int × Int
  qy : Int × Int × Int × Int
  z0 : Int
  dz : Int
  laser0 : Bool
  on : Bool
  edges : List (Nat × Bool)
  sched : Nat × Nat
  seam : Nat × Nat
  /-- Machine points at s_0 and s_3 in LSB (R164). -/
  p0 : Pt
  p3 : Pt
  /-- The commanded pair (R174) and the shaped pair (R180). -/
  power : Nat × Nat
  shaped : Nat × Nat
  deriving DecidableEq, Repr

/-- The scan core's state of one head. -/
structure Head where
  banks : Vector Bank 2
  active : Fin 2
  cur : Option Cur
  run : Option Run
  expo : Option Expo
  /-- Units from the next boundary to the earliest next start (R104), and the off edge's time from there. -/
  wait : Int
  waitKind : WaitKind
  offAt : Int
  /-- Edges waiting, in units from the next boundary (R117). -/
  edges : List (Nat × Bool)
  laser : Bool
  /-- The laser state with which the last computed tick ended, a forced off edge included (R125, R193). -/
  lit : Bool
  /-- A hold interrupted an exposure run: the laser comes on again at the resume boundary (R115). -/
  relight : Bool
  /-- Integer arc length at the end of the last tick of the exposure run, and P_MARK there (R119). -/
  sigma : Nat
  pMark : Nat
  vid : Nat
  /-- Position at the end of the last committed tick, in 1/16 LSB (R121, R125). -/
  pos : Pt
  /-- The last tick's q3 and z3, to be carried over; none before a first tick (R121). -/
  q3 : Option Pt
  lims : Lims
  /-- Committed limits that wait (R107), and whether this tick's planner is still to try them. -/
  limPend : Option Lims
  limTry : Bool
  /-- The claim list: CLAIMED Billets and the tick of their grant (R158). -/
  claims : List (Nat × Nat)
  /-- The run-dry estimate, in units and ticks, and MORE (R155), as grants have raised it since (R157). -/
  est : Nat
  rd : Nat
  more : Bool
  /-- The run-dry ticks that the last propose stage computed, which SLD_HEAD_STATUS shows (R155, R173). -/
  rdShown : Nat
  /-- Link-down (R31, R232). -/
  down : Bool
  /-- Plume state (R168): AGE, PRI, its stamp, RUNCNT; a spot, and deferred, in the last tick. -/
  age : Nat
  pri : Bool
  stamp : Nat
  runCnt : Nat
  spot : Bool
  deferred : Bool
  /-- Consecutive deferred ticks, for SLD_DEFER_MAX (R173). -/
  deferRun : Nat
  /-- PRI is to be gained, or lost, for the tick just closed (R168). -/
  gainDue : Bool
  lossDue : Bool
  hold : Hold
  /-- STATE of SCN_MOTION_STATUS. -/
  code : Nat
  out : HeadOut
  /-- Galvo X and Y commands of sub-step 0 with their applied ticks, newest first (R124), and the count of
  consecutive values beyond the limit. -/
  history : List (Nat × Int × Int)
  follow : Nat
  /-- An uncorrectable word that scrub found in the active bank: the first tick of its response, and the node (R143). -/
  latDue : Option (Nat × Nat)
  deriving DecidableEq, Repr

/-! ### Layers, staging and shared Billets (R85 to R92, R152 to R162) -/

/-- A staging slot in use (R90): its number, its Billet, whether it is ready, and the records it holds. -/
structure Slot where
  slot : Nat
  billet : Nat
  /-- Its records have arrived, and a snapshot has found them there (R47, R91). -/
  arrived : Bool
  ready : Bool
  /-- An own Billet that its head has begun. -/
  begun : Bool
  recs : List Byte
  deriving DecidableEq, Repr

/-- The staging of an ARMED or RUNNING Ingot (R91). -/
structure Staging where
  queues : Vector (List Slot) 64
  /-- Own Billets of each head fetched so far, and begun so far (LIST_POS). -/
  fetched : Vector Nat 64
  begun : Vector Nat 64
  pool : List Slot
  /-- Entries of the shared list fetched so far. -/
  sharedNext : Nat
  /-- Billets skipped while the Ingot was ARMED. -/
  skipped : List Nat
  deriving DecidableEq, Repr

/-- The states of a shared Billet (R153). -/
inductive ShState where
  | pending
  | offered (age : Nat)
  | claimed (h : Nat)
  | started (h : Nat)
  | exposed (h : Nat)
  | skipped
  | withheld
  deriving DecidableEq, Repr

/-- A shared Billet of the running layer, in shared-list order. -/
structure Shared where
  billet : Nat
  state : ShState
  /-- Heads excluded by a hand-back. -/
  excluded : BitVec 64
  /-- It may not be resolved before this tick (R153: offered again from T+1). -/
  notBefore : Nat
  /-- Whether the last exposure run executed of it had a trailing taper (R161). -/
  lastTrail : Option Bool
  /-- The predecessor, as a position in the shared list, whose end SEAM_ONESIDE awaits (R161). -/
  judge : Option Nat
  deriving DecidableEq, Repr

/-- The plume settings in force for a layer (R163). -/
structure Plume where
  en : Bool
  fx : Int
  fy : Int
  len : Nat
  tan : Nat
  deriving DecidableEq, Repr

/-- The running layer. -/
structure Layer where
  lease : Fin 16
  ingot : Ingot
  first : Nat
  tLast : Option Nat
  /-- T_a of an accepted ABORT (R85). -/
  abortAt : Option Nat
  /-- The tick whose boundary ends the layer, once it is known (R87). -/
  endAt : Option Nat
  exposed : Nat
  skipped : Nat
  withheld : Nat
  /-- Own Billets of each head that have not ended. -/
  ownLeft : Vector Nat 64
  /-- Heads whose own Billets have been withheld for the rest of the layer (R31, R87). -/
  lostHeads : BitVec 64
  fallback : Bool
  plume : Plume
  shared : List Shared
  stage : Staging
  deriving DecidableEq, Repr

/-- A LATTICE_LOAD that copies (R130): its ring, bank and image, whether its descriptor still waits for it, and whether the
bank still loads, which SCN reset ends. -/
structure LatLoad where
  ring : Nat
  head : Fin 64
  bank : Fin 2
  addr : Nat
  owned : Bool
  live : Bool
  deriving DecidableEq, Repr

/-- The scan core beside its heads. -/
structure Scn where
  /-- LATTICE_LOADs that copy, oldest first (R130). -/
  loads : List LatLoad
  layer : Option Layer
  /-- The ARMED lease and its staging. -/
  armed : Option (Fin 16 × Staging)
  layerNo : Nat
  tick0 : Nat
  /-- Index of the last tick closed. -/
  lastTick : Nat
  /-- Points of the last tick closed, for PRI_CONFLICT (R169): head and its two points. -/
  points : List (Nat × Pt × Pt)
  deriving DecidableEq, Repr

/-! ### Melt-pool control (R174 to R198) -/

/-- The states of a loop (R183). -/
inductive LoopState where
  | open | closed | fbHold | fbOpen | gated
  deriving DecidableEq, Repr

/-- One loop: its state, histories, integrator and output (R179, R183 to R185, R188). -/
structure Loop where
  state : LoopState
  /-- The pending command: 0 none, 1 OPEN, 2 CLOSE. -/
  cmd : Nat
  /-- Biquad histories x1, x2, v1, v2 of biquads 1 and 2. -/
  h1 : Int × Int × Int × Int
  h2 : Int × Int × Int × Int
  xprev : Int
  uprev : Int
  integ : Int
  limHi : Bool
  limLo : Bool
  /-- The output u_l in force. -/
  out : Int
  /-- The next iteration is the first after a close (R184). -/
  fresh : Bool
  /-- Advancing ticks since the state was entered, and consecutive good ticks. -/
  count : Nat
  good : Nat
  /-- The freeze count and the last sample (R185). -/
  freeze : Nat
  lastSample : Option Nat
  /-- Level 1: the newest source value; the trigger that waits (0 none, 1 a new value, 2 the period); whether
  a value outside its window has arrived since the last boundary; ticks since the last value; ticks to the
  next ON_PERIOD trigger; and whether FAIL_OUT has been written. -/
  src : Int
  trig : Nat
  bad : Bool
  stale : Nat
  period : Nat
  failed : Bool
  deriving DecidableEq, Repr

/-- What a head's photodiodes reported for one applied tick: per photodiode eight samples (R180, R242). -/
structure Samples where
  tick : Nat
  pds : List (List Nat)
  deriving DecidableEq, Repr

/-- MPC's record of one head: shaped pairs and emission of its last ticks, keyed by applied tick (R180). -/
structure HeadMpc where
  /-- (applied tick, psh0, psh8, emitting), newest first, at most 64. -/
  shaped : List (Nat × Nat × Nat × Bool)
  /-- Sample sets received, newest first, at most 64. -/
  sets : List Samples
  /-- Sample sets received in the tick in progress: they belong to the next snapshot (R47). -/
  newSets : List Samples
  /-- REF_TRIM in force, and the value written in the tick in progress (R189). -/
  refTrim : Int
  trimNext : Option Int
  /-- Photodiodes declared at link-up (R185, R233). -/
  pd : Nat
  deriving DecidableEq, Repr

/-- A Temper grid (R80, R81). -/
structure Grid where
  nx : Nat
  ny : Nat
  x0 : Int
  y0 : Int
  deriving DecidableEq, Repr

/-- Where the cells applied to a layer come from (R80, R81, R190). -/
inductive TemperMap where
  | unity
  | carried (g : Grid)
  | embedded (g : Grid) (addr : Nat)
  deriving DecidableEq, Repr

/-- The phases of Temper learning (R191). -/
inductive LearnPhase where
  | idle | learning | grace | finalising
  deriving DecidableEq, Repr

/-- The Temper unit: the map in force, and the learning in progress. Carried and learned maps and the accumulators lie in
the MPC region of device DRAM (R190, R297). -/
structure Temper where
  map : TemperMap
  ready : Bool
  /-- Which of the two map buffers holds the map learned last, which is the carried one while such a layer runs. -/
  buf : Bool
  learnGrid : Option Grid
  phase : LearnPhase
  /-- Whether the layer that is learned carries its map; else its codes, where they are not 0x8000, are those listed. -/
  carry : Bool
  old : List (Nat × Nat)
  /-- Cells that have applied 0x8000 in the layer because their code was uncorrectable (R190). -/
  lost : List Nat
  /-- The new map has been written, and READY waits only for the end of finalisation. -/
  written : Bool
  /-- First tick and end tick of the learned layer. -/
  from_ : Nat
  until_ : Option Nat
  /-- The window of the last layer whose learning has ended: records of it arrive too late. -/
  prev : Option (Nat × Nat)
  deriving DecidableEq, Repr

/-- Melt-pool control beside its registers. -/
structure Mpc where
  loops : Vector Loop 128
  heads : Vector HeadMpc 64
  temper : Temper
  estopA : Bool
  estopB : Bool
  emrel : Bool
  /-- EMREL_DELAY has elapsed since the release was asserted. -/
  delayDone : Bool
  /-- Boundaries until EMREL de-asserts after a clear of REQ (R193). -/
  emrelOff : Option Nat
  /-- PWR_EN as the tick in progress began with it, and as it stands. -/
  pwrTick : Bool
  armed : Bool
  /-- The next kick value is 0x0000_A55A. -/
  kickA : Bool
  /-- An orderly laser stop is in progress (R196). -/
  stopping : Bool
  /-- EMREL de-asserts at the end boundary of a layer, or at the next boundary. -/
  stopWait : Bool
  deriving DecidableEq, Repr


/-! ### Camera pipelines (R199 to R226) -/

/-- The states of a pipeline (R203). -/
inductive CamState where
  | off | ident | idle | inFrame
  deriving DecidableEq, Repr

/-- An exposure generation (R216): its number, its EXP_NS and its register writes. -/
structure ExpGen where
  num : Nat
  expNs : Nat
  writes : List Nat
  deriving DecidableEq, Repr

/-- What the CCI master puts on its bus (R215, R220): START or a repeated START, a byte sent, bytes read, STOP. -/
inductive CciSym where
  | start
  | byte (b : Byte)
  | read (n : Nat)
  | stop
  deriving DecidableEq, Repr

/-- A transferred generation that has not yet applied (R217): its apply frame, and whether it was
transferred after the last failure (R219). -/
structure ExpWait where
  num : Nat
  expNs : Nat
  apply : Nat
  clean : Bool
  deriving DecidableEq, Repr

/-- A region of interest: index, first column and row, size. -/
structure Roi where
  idx : Nat
  x0 : Nat
  y0 : Nat
  w : Nat
  h : Nat
  deriving DecidableEq, Repr

/-- The settings that govern a frame: the RWQ registers, and the SH registers as they stood at its FS (R207). -/
structure CamCfg where
  dt : Nat
  width : Nat
  height : Nat
  pad : Nat
  black : Nat
  thresh : Nat
  assoc : Nat
  rois : List Roi
  defects : List (Nat × Nat)
  heads : Nat
  m00 : Int
  m01 : Int
  m10 : Int
  m11 : Int
  tx : Int
  ty : Int
  deriving DecidableEq, Repr

/-- A frame (R203 to R207). A line holds the pixels received for it; the rest of it is pad. -/
structure CamFrame where
  cfg : CamCfg
  seq : Nat
  gen : Nat
  expUnits : Nat
  uncertain : Bool
  fn : Nat
  soeTick : Nat
  soeSub : Nat
  /-- The start of exposure lay before the first tick of the grid (R205). -/
  early : Bool
  lines : List (List Nat)
  emb : Option (List Byte)
  /-- The tick of its last accepted packet. -/
  lastPkt : Nat
  damaged : Bool
  short : Bool
  cut : Bool
  /-- It has been counted in CAM_FRAME_FIX_CNT. -/
  fixed : Bool
  closeTick : Nat
  /-- The buffer taken for its output (R221, R222). -/
  buf : Option (Nat × Buffer)
  deriving DecidableEq, Repr

/-- One camera pipeline. -/
structure Cam where
  state : CamState
  /-- A frame gap is open (R203). -/
  gap : Bool
  idOk : Bool
  /-- FRAME_SEQ of the last opened frame, before it wraps (R205). -/
  seq : Nat
  /-- The count of `up` at the last accepted FS since the pipeline was enabled, and the frame period that the last two
  show, in edges (R205, R144). -/
  fsAt : Option Nat
  period : Option Nat
  frame : Option CamFrame
  /-- Closed frames whose feature records are not yet posted, oldest first (R213). -/
  closed : List CamFrame
  /-- The number given at the last commit (LAST_GEN). -/
  lastGen : Nat
  /-- The generation in force and its EXP_NS. -/
  gen : Nat
  genNs : Nat
  pend : Option ExpGen
  xfer : Option ExpGen
  waiting : List ExpWait
  /-- What the CCI master has on its bus in the transfer or identity read in hand, or had in the last one (R215, R220). -/
  cci : List CciSym
  /-- Frames opened carry EXP_UNCERTAIN (R219). -/
  uncertain : Bool
  lastRes : Nat
  resGen : Nat
  deriving DecidableEq, Repr

/-- What the history holds of a head for a tick (R210). -/
structure HistHead where
  x : Int
  y : Int
  on : Bool
  vid : Nat
  deriving DecidableEq, Repr

/-- What the pipelines share: the history, newest tick first, at most 8,192 ticks (R210); the first tick of
the current grid (R205); and the full-frame budget in eighths of a byte, with the count of `up` at
which it was last refilled (R222). -/
structure CamShared where
  hist : List (Nat × List (Option HistHead))
  gridFirst : Nat
  bucket : Nat
  bucketAt : Nat
  deriving DecidableEq, Repr

/-! ### Field ports (R279 to R292) -/

/-- The states of a field port (R283). -/
inductive PortState where
  | off | diag | run | tripped
  deriving DecidableEq, Repr

/-- One field port: its state, VALID, its contact (true: closed) and whether it counts as active whatever
the polarity since it tripped or was switched off (R283); the duty in force, and the one last written by a
level 1 loop (R282); when it tripped and when it entered DIAG, as `up` counts (R283, R284); STALE (R433). -/
structure Port where
  state : PortState
  valid : Bool
  raw : Bool
  lost : Bool
  duty : Nat
  dutyL1 : Nat
  tripAt : Nat
  diagAt : Nat
  stale : Bool
  deriving DecidableEq, Repr

/-! ### Machine axes (R259 to R278) -/

/-- The states of an axis (R261). -/
inductive AxState where
  | disabled | measure | ramp | ready | moving | homing | still | unpowered | fault
  deriving DecidableEq, Repr

/-- What the motion of an axis follows: queued moves (R267), a search (R275), a stop at DEC (R261, R275) or
an emergency stop (R270). -/
inductive AxDo where
  | rest | moves | search | decStop | eStop
  deriving DecidableEq, Repr

/-- What a stop ends in. `homed`: the frame is to be shifted so that the latched position reads HOME_OFS. -/
inductive AxAfter where
  | ready
  /-- `failed`: a search that the DISABLE stopped sets HOME_FAIL. -/
  | disable (failed : Bool)
  | fault (cause : Nat)
  | homed (latch : Int)
  | homeFail
  deriving DecidableEq, Repr

/-- A staged move (R266), and the ring whose AX_MOVE placed it (R342). -/
structure AxMove where
  target : Int
  speed : Nat
  blend : Bool
  rel : Bool
  ring : Option Nat
  deriving DecidableEq, Repr

/-- A queued move: its resolved target in microsteps. `planned`: the axis has planned toward rest at its
end (R268). -/
structure QMove where
  target : Int
  speed : Nat
  blend : Bool
  planned : Bool
  deriving DecidableEq, Repr

/-- The limits of an axis in tick units (R267), and VMAX in microsteps per second. -/
structure AxLims where
  vmax : Nat
  v : Int
  acc : Int
  dec : Int
  edec : Int
  j : Int
  deriving DecidableEq, Repr

/-- A latched homing edge (R275): P_L, the instant and the window's end in sub-tick units, the transitions
since, and whether the port was active after the last one. -/
structure HomeLatch where
  pl : Int
  at_ : Nat
  till : Nat
  count : Nat
  active : Bool
  deriving DecidableEq, Repr

/-- A tick of an axis: position, velocity and acceleration at its start, in Q32.32, signed. -/
structure AxTick where
  s : Int
  v : Int
  a : Int
  deriving DecidableEq, Repr

/-- A pulse of a winding measurement (R273): driven, or decaying, for so many sub-step instants by the next sample; or waiting
for the current to fall before the next pulse. -/
inductive WindStage where
  | drive (n : Nat)
  | decay (n : Nat)
  | wait
  deriving DecidableEq, Repr

/-- A winding measurement (R273): the phase under test, whether its pulse is the negative one, and the sums of t1 and t2 of the
phase's pulses in sub-step instants. -/
structure WindRun where
  phase : Fin 2
  neg : Bool
  stage : WindStage
  t1 : Nat
  t2 : Nat
  deriving DecidableEq, Repr

/-- One axis. Position s is in Q32.32 microsteps of the current frame; d, v and a run along `dir` from
`origin`. θ, floor(s), HOMED and the enable state are AON (R272). -/
structure Axis where
  state : AxState
  /-- The command that waits for the next boundary, 0 for none, and the ring whose AX_CMD it is. -/
  cmd : Nat
  cmdRing : Option Nat
  staged : List AxMove
  queue : List QMove
  doing : AxDo
  after : AxAfter
  s : Int
  origin : Int
  dir : Int
  d : Int
  v : Int
  a : Int
  last : AxTick
  theta : Nat
  homed : Bool
  /-- Tick k of the amplitude ramp in progress, and the state that follows it (R262). -/
  rampTick : Nat
  rampTo : AxState
  amp : Nat
  lims : AxLims
  limPend : Option AxLims
  /-- The waiting limits are to be tried in this tick (R269). -/
  limTry : Bool
  /-- Position at which the search began, the edge latched, and an edge to be latched (tick and unit). -/
  homeFrom : Int
  latch : Option HomeLatch
  latchDue : Option (Nat × Nat)
  /-- A limit or chatter decision of this tick (R274, R275). -/
  limitDue : Bool
  /-- A frame shift for the next boundary, in microsteps (R275). -/
  shift : Option Int
  /-- Ticks at rest with an empty queue (R271). -/
  restTicks : Nat
  /-- Phase references, and the duties loaded at the last carrier-period start, in 2^-16. -/
  refs : Int × Int
  duty : Int × Int
  /-- 0: every gate off. 1: driven. 2: low sides on. -/
  bridge : Nat
  wind : Option WindRun
  /-- Consecutive samples of each phase above MOVE_DET_MA (R272). -/
  moved : Nat × Nat
  /-- The enable state that VAUX has held through the last reset (R272). -/
  enHeld : Bool
  deriving DecidableEq, Repr

/-- The high-voltage island: powered; the sample sets of the last tick, by axis and phase, an empty list
where none arrived (R259, R263); and the microstep table entries that do not hold their reset value. -/
structure Island where
  powered : Bool
  linkOk : Bool
  samples : List (List (List Int))
  tab : List (Nat × Int)
  deriving DecidableEq, Repr

/-! ### Head lanes (R227 to R258) -/

/-- The states of a head lane (R232). -/
inductive LaneState where
  | off | align | capx | measure | sync | active | idle | exit | down
  deriving DecidableEq, Repr

/-- A downlink message that awaits its acknowledgement (R243): SEQ, OPCODE, payload and resends so far. -/
structure LaneMsg where
  seq : Nat
  op : Nat
  payload : List Byte
  resends : Nat
  /-- It has been ended with EDB and is to be sent again (R245). -/
  cut : Bool
  deriving DecidableEq, Repr

/-- The TICK packet of the last boundary, kept for its copy (R245): SEQ, bytes 0 to 51 and whether it has been
acknowledged. -/
structure TickPacket where
  seq : Nat
  bytes : List Byte
  acked : Bool
  deriving DecidableEq, Repr

/-- A delay measurement (R235): the values of M − TH, the probes unanswered and the ID of the outstanding one. -/
structure ProbeRun where
  values : List Int
  missed : Nat
  id : Nat
  deriving DecidableEq, Repr

/-- What the device sends on a lane (R230, R237, R239). A packet is shown with its CRC; `edb` ends the packet in progress. -/
inductive LaneSent where
  | ts1 | ts2
  | fc (ack crd : Nat)
  | probe (id : Nat)
  | packet (bytes : List Byte)
  | edb
  | tmk (b1 b2 : Nat)
  | idleEntry
  | exitBurst
  | shortTraining
  | fill
  | raw (bits : List Bool)
  deriving DecidableEq, Repr

/-- A lane's receiver (R229, R231, R251): whether it has symbol alignment, the last twenty bits, the bits since the last symbol
boundary and the running disparity; the symbols since each code error of the last 1,024; and, of the run of bits being
received, the code errors and whether there were 16 in 1,024 symbols. -/
structure LaneRx where
  aligned : Bool
  last : Nat
  phase : Nat
  rd : Bool
  ages : List Nat
  count : Nat
  excess : Bool
  deriving DecidableEq, Repr

def LaneRx.reset : LaneRx where
  aligned := false
  last := 0
  phase := 0
  rd := false
  ages := []
  count := 0
  excess := false

/-- The PRBS unit of a lane (R253, R254): the generator's last bits, the bits since its last flip of RATE_LOG2, the flips of
INJ_BIT that wait, and the bits it has sent of the run in hand; the checker's last bits, how many of them it holds, the bits
in agreement, which of the last 64 were in error, and the errors of the run in hand. -/
structure Prbs where
  gen : Nat
  since : Nat
  flips : Nat
  out : List Bool
  ref : Nat
  fill : Nat
  good : Nat
  bad : List Bool
  errs : Nat
  deriving DecidableEq, Repr

def Prbs.reset : Prbs where
  gen := 0
  since := 0
  flips := 0
  out := []
  ref := 0
  fill := 0
  good := 0
  bad := []
  errs := 0

/-- One lane. -/
structure Lane where
  state : LaneState
  /-- RETX_UNAVAIL (R236). -/
  retx : Bool
  /-- Consecutive TS1 or TS2, and consecutive TS2, received with the lane's number; whether TS2 is sent; and
  whether sets with the lane's number, and with another, have been received since OFF or DOWN (R232). -/
  tsRun : Nat
  ts2Run : Nat
  sendTs2 : Bool
  tsOwn : Bool
  tsOther : Bool
  /-- Downlink credit: whether an FC has arrived, CRD of the last, and credits consumed (R244). -/
  fcSeen : Bool
  crd : Nat
  used : Nat
  /-- Uplink credits granted, and the last ACK_SEQ sent. -/
  grant : Nat
  ack : Nat
  /-- SEQ of the next new downlink packet, and of the last accepted SAMPLE, STATUS and MESSAGE (R239). -/
  seq : Nat
  up : Vector (Option Nat) 3
  tickPkt : Option TickPacket
  msg : Option LaneMsg
  /-- Messages that wait: OPCODE and payload. -/
  msgs : List (Nat × List Byte)
  /-- Photodiodes that CONFIG told the head to report (R234). -/
  pdMask : Nat
  probe : Option ProbeRun
  probeId : Nat
  /-- The trained d, in lane units (R235). -/
  d : Int
  hstat : Nat
  /-- IDLE_REQ has been sent (R248); the new N and the index of the last old tick of a regrid in IDLE (R243, R249). -/
  idleReq : Bool
  idleRegrid : Option (Nat × Nat)
  /-- Consecutive ticks without an accepted uplink packet, with COAST (and the last such tick), and with a
  TICK packet withheld (R251). -/
  quiet : Nat
  coast : Nat
  coastTick : Nat
  stall : Nat
  /-- The first tick of the device whose work is sent since the lane entered ACTIVE (R232). -/
  tickFrom : Nat
  /-- An eye scan runs (R255). -/
  eye : Bool
  rx : LaneRx
  prbs : Prbs
  /-- The running disparity after what has been sent. -/
  txRd : Bool
  /-- What the device has sent since the last boundary, oldest first. -/
  sent : List LaneSent
  deriving DecidableEq, Repr


/-! ### Panel outputs (R387 to R400) -/

/-- The states of an output (R389). -/
inductive DspState where
  | off | detect | ready | train | run | linkFail
  deriving DecidableEq, Repr

/-- One panel output. -/
structure Dsp where
  state : DspState
  cause : Nat
  /-- A commit waits for the next vertical blanking (R392). -/
  pend : Bool
  /-- Frames are being sent; the frame in progress is blank; training was begun by a commit in RUN (R393). -/
  video : Bool
  blank : Bool
  byCommit : Bool
  /-- Every frame shows only BG until the next commit (R397). -/
  bgOnly : Bool
  /-- Consecutive checked frames that mismatched, and the rectangles that mismatched in the last frame. -/
  missRun : Nat
  missed : Nat
  /-- Consecutive blankings without a commit taken, and the end of an extended front porch, as `up` counts, 0
  for none (R398). -/
  idle : Nat
  porch : Nat
  /-- An unplug in LINK_FAIL (R389). -/
  unplugged : Bool
  /-- MSA_TIMING_PAR_IGNORE_EN as last written to the sink (R398). -/
  parIgnore : Bool
  /-- Lines of the frame in progress that show BG from a column on (R396). -/
  under : List (Nat × Nat)
  deriving DecidableEq, Repr


/-! ### Assay and the monitors (R429 to R444) -/

/-- An Assay run (R430 to R437). -/
structure AsyRun where
  mask : Nat
  addr : Nat
  refUv : Nat
  refUnc : Nat
  avg : Nat
  trim : Bool
  gainTol : Nat
  ofsTol : Nat
  /-- Tick index at the start of the first phase. -/
  tick : Nat
  /-- Channels still to begin, the channel in progress and its phase, 1 to 4. -/
  left : List Nat
  chan : Nat
  phase : Nat
  m0 : Int
  m1 : Int
  m0b : Int
  /-- Trims before the channel, and a clamp acted. -/
  old : Word
  clamped : Bool
  abort : Bool
  /-- Channels not PASS, and the entries of the channels finished. -/
  failed : Nat
  rows : List Byte
  deriving DecidableEq, Repr

/-- The monitors: per rail, whether LOW and HIGH may be flagged again (R439); per site, the conversions that
have failed in a row (R441). -/
structure Mon where
  lowArmed : BitVec 8
  highArmed : BitVec 8
  fails : List Nat
  deriving DecidableEq, Repr



/-! ### Registration (R144 to R149) -/

/-- A fiducial of the table (R145): identifier, certified uncertainty in nm, pipeline. -/
structure Fiducial where
  id : Nat
  fx : Int
  fy : Int
  unc : Nat
  cam : Nat
  deriving DecidableEq, Repr

/-- A visit of a registration run (R146): its fiducial's number in the table, its head, its point, and the point's command
g_x, g_y under the bank in force as the run's layer starts (R147). -/
structure Visit where
  fid : Nat
  head : Nat
  at_ : Pt
  gx : Int
  gy : Int
  deriving DecidableEq, Repr

/-- What a registration run takes of a head as its layer starts (R147): the nominal matrix M00, M01, M10, M11 of its active
bank, and its six drift terms in register order. -/
structure HeadCal where
  mat : List Int
  drift : List Int
  deriving DecidableEq, Repr

/-- A registration run in progress: the ring of its REGISTER, its lease, the record's address, HEADS,
REG_TARGET, the table, the visits in visit order, what it took of each head, the visits that have ended with their cameras'
FRAME_SEQ of that moment, the visits begun, and the status its layer ended with. -/
structure RegRun where
  ring : Nat
  lease : Fin 16
  result : Nat
  heads : BitVec 64
  target : Nat
  fids : List Fiducial
  visits : List Visit
  cals : List HeadCal
  done : List (Nat × Nat)
  begun : Nat
  ended : Option Nat
  deriving DecidableEq, Repr

/-! ### The whole -/

/-- Everything the module holds beside its memories and its OTP. -/
structure Chip where
  /-- The variant's number of enabled heads: 64, 32 or 16 (R1). -/
  heads : Nat
  /-- The registers that do not hold their reset value, by offset; of a shadowed register, its shadow copy (R16). -/
  regs : List (Nat × Word)
  /-- The active copies of shadowed registers that do not hold their reset value (R16). -/
  acts : List (Nat × Word)
  /-- The value the last register read returned, and the bytes the last memory read returned (the model's own). -/
  rdata : Word
  rbytes : List Byte
  /-- Whether the last memory read was poisoned, refused or faulted (the model's own). -/
  rbad : Bool
  views : List View
  staged : List Staged
  /-- Stores issued by the command in progress, oldest first; empty between commands (the model's own). -/
  outbox : List MemWrite
  /-- Errors that the DRAM devices return to the command in progress; empty between commands (the model's own). -/
  derr : List DramErr
  /-- The number of free values drawn so far (the model's own). -/
  fresh : Nat
  evr : Evr
  /-- Occurrences not yet counted in the performance counters (R425): block, EVSEL, unit, number. -/
  pmcPend : List (Nat × Nat × Nat × Nat)
  /-- PMC counting is stopped (R424). -/
  frozen : Bool
  hst : Hst
  drc : Drc
  svc : Svc
  ttu : Ttu
  eth : Vector EthPort 4
  hd : Vector Head 64
  scn : Scn
  mpc : Mpc
  cam : Vector Cam 16
  camShared : CamShared
  port : Vector Port 24
  axis : Vector Axis 8
  island : Island
  lane : Vector Lane 76
  dsp : Vector Dsp 2
  asy : Option AsyRun
  mon : Mon
  reg : Option RegRun
  deriving DecidableEq, Repr

/-- What a command's effect may read beside the module's own state. -/
structure Env where
  mem : Mems
  fuses : Fuses

/-- The machine: the commands that wait, first in first out, the OTP, the memories and the module. -/
structure State where
  pending : List Instr
  fuses : Fuses
  mem : Mems
  chip : Chip
  deriving DecidableEq, Repr


/-! ### Reset -/

def Evr.reset : Evr where
  intake := []
  lostPend := 0
  opens := []
  next := 0
  ram := []
  oldest := 0
  norNext := 0
  lg := []
  flushing := false
  pfFlush := false
  pfWritten := 0
  pfAt := 0
  clrRam := false
  clrNor := false
  recovering := false
  norFailed := false
  ramFailed := false
  prog := none
  erase := none
  pos := 0
  erased := BitVec.allOnes 128
  rdPend := false
  rdNor := false
  rdRec := []
  rdValid := false
  rdStale := false
  lostNums := []
  lgNums := []

def Ring.reset : Ring where
  state := .disabled
  sqTail := 0
  sqHead := 0
  cqTail := 0
  cqHead := 0
  recProd := 0
  recCons := 0
  fetched := []
  cur := none
  chain := none
  chainHead := none
  bufs := []
  wait := []
  held := []
  owedLate := 0
  rejCause := 0
  wbPend := false
  cursor := 0

def Lease.reset : Lease where
  state := .free
  base := 0
  len := 0
  layerNo := 0
  written := false
  relPend := false
  relRef := none
  start := none
  ingot := none
  own := false

def Hst.reset : Hst where
  rings := Vector.replicate 256 Ring.reset
  turn := 0
  reads := []
  readWait := []
  readId := 0
  leases := Vector.replicate 16 Lease.reset
  msix := Vector.replicate 64 ⟨0, 0, 0, 1⟩
  pba := 0
  spacing := 0
  waiting := 0
  linkUp := false
  speed := 0
  width := 0
  bme := false
  msixOn := true
  msixMask := false
  aer := 0
  aerFirst := 0
  aborts := 0

def Drc.reset : Drc where
  initDone := false
  chans := Vector.replicate 2 ⟨false, false, 0, [], []⟩
  training := none
  trainLeft := []
  needed := false
  heldOff := false
  scrubPos := 0
  scrubPasses := 0
  crbPos := 0
  crbPasses := 0

def Svc.reset : Svc where
  boot := .dramInit
  sources := []
  bootsel := 0
  dramFail := false
  source := 0
  resA := 0
  resB := 0
  resMbox := 0
  mboxGo := none
  runKey := none
  runVer := 0
  locks := 0
  otp := none
  otpRej := false
  running := 1
  lines := Vector.replicate 4 0
  masked := 0
  startedAt := Vector.replicate 4 0
  nor := none
  h2fFull := false
  f2hFull := false
  resetReq := false
  pfail := false
  held := false

def Ttu.reset : Ttu where
  index := 0
  lcl := 0
  dom := Vector.replicate 2 0
  up := 0
  since := 0
  frac := 0
  act := 0
  selPend := none
  domState := Vector.replicate 2 .off
  good := Vector.replicate 2 0
  anchored := false
  lock := false
  phase := 0
  steerSat := false
  slipped := false
  regrid := none
  gap := false
  inTick := false
  miss := ⟨0, none, 0, 0, 0⟩
  outCfg := 0
  outDiv := 0
  gapFrom := 0
  tickOut := none
  ppsTill := 0
  ppsSec := 0
  ppsInUnread := false
  noLock := true

def EthPort.reset : EthPort where
  linkUp := false
  speed := 0
  anDone := false
  pauseTill := 0
  tx := none
  txts := []
  wire := []

/-- The reset limits of R125 in tick units at N = 2,000 (R105). -/
def Lims.reset : Lims where
  jv := 858993459200
  ja := 2147483648
  mv := 429496729600
  ma := 429496730
  zv := 42949672960
  za := 42949673
  j := 26843546
  tol := 40
  jvMm := 10000
  mvMm := 5000
  zvMm := 500

def HeadOut.reset : HeadOut where
  qx := (0, 0, 0, 0)
  qy := (0, 0, 0, 0)
  z0 := 0
  dz := 0
  laser0 := false
  on := false
  edges := []
  sched := (0, 0)
  seam := (65536, 65536)
  p0 := ⟨0, 0, 0⟩
  p3 := ⟨0, 0, 0⟩
  power := (0, 0)
  shaped := (0, 0)

def Head.reset : Head where
  banks := Vector.replicate 2 ⟨.empty, []⟩
  active := 0
  cur := none
  run := none
  expo := none
  wait := 0
  waitKind := .none
  offAt := 0
  edges := []
  laser := false
  lit := false
  relight := false
  sigma := 0
  pMark := 0
  vid := 0
  pos := ⟨0, 0, 0⟩
  q3 := none
  lims := Lims.reset
  limPend := none
  limTry := false
  claims := []
  est := 0
  rd := 0
  more := false
  rdShown := 0
  down := false
  age := 0
  pri := false
  stamp := 0
  runCnt := 0
  spot := false
  deferred := false
  deferRun := 0
  gainDue := false
  lossDue := false
  hold := .run
  code := 0
  out := HeadOut.reset
  history := []
  follow := 0
  latDue := none

def Staging.reset : Staging where
  queues := Vector.replicate 64 []
  fetched := Vector.replicate 64 0
  begun := Vector.replicate 64 0
  pool := []
  sharedNext := 0
  skipped := []

def Loop.reset : Loop where
  state := .open
  cmd := 0
  h1 := (0, 0, 0, 0)
  h2 := (0, 0, 0, 0)
  xprev := 0
  uprev := 0
  integ := 0
  limHi := false
  limLo := false
  out := 0
  fresh := false
  count := 0
  good := 0
  freeze := 0
  lastSample := none
  src := 0
  trig := 0
  bad := false
  stale := 0
  period := 0
  failed := false

def Temper.reset : Temper where
  map := .unity
  ready := false
  buf := false
  learnGrid := none
  phase := .idle
  carry := false
  old := []
  lost := []
  written := false
  from_ := 0
  until_ := none
  prev := none

def Mpc.reset : Mpc where
  loops := Vector.replicate 128 Loop.reset
  heads := Vector.replicate 64 ⟨[], [], [], 0, none, 0⟩
  temper := Temper.reset
  estopA := false
  estopB := false
  emrel := false
  delayDone := false
  emrelOff := none
  pwrTick := false
  armed := false
  kickA := true
  stopping := false
  stopWait := false


def Cam.reset : Cam where
  state := .off
  gap := false
  idOk := false
  seq := 0
  fsAt := none
  period := none
  frame := none
  closed := []
  lastGen := 0
  gen := 0
  genNs := 0
  pend := none
  xfer := none
  waiting := []
  cci := []
  uncertain := false
  lastRes := 0
  resGen := 0

def Port.reset : Port where
  state := .off
  valid := false
  raw := false
  lost := false
  duty := 0
  dutyL1 := 0
  tripAt := 0
  diagAt := 0
  stale := false

/-- The reset limits of R277 in tick units at N = 2,000 (R267). -/
def AxLims.reset : AxLims where
  vmax := 2560000
  v := 27487790694
  acc := 137439
  dec := 137439
  edec := 687195
  j := 1374

def Axis.reset : Axis where
  state := .disabled
  cmd := 0
  cmdRing := none
  staged := []
  queue := []
  doing := .rest
  after := .ready
  s := 0
  origin := 0
  dir := 1
  d := 0
  v := 0
  a := 0
  last := ⟨0, 0, 0⟩
  theta := 0
  homed := false
  rampTick := 0
  rampTo := .ready
  amp := 0
  lims := AxLims.reset
  limPend := none
  limTry := false
  homeFrom := 0
  latch := none
  latchDue := none
  limitDue := false
  shift := none
  restTicks := 0
  refs := (0, 0)
  duty := (0, 0)
  bridge := 0
  wind := none
  moved := (0, 0)
  enHeld := false

def Lane.reset : Lane where
  state := .off
  retx := false
  tsRun := 0
  ts2Run := 0
  sendTs2 := false
  tsOwn := false
  tsOther := false
  fcSeen := false
  crd := 0
  used := 0
  grant := 0
  ack := 0
  seq := 0
  up := Vector.replicate 3 none
  tickPkt := none
  msg := none
  msgs := []
  pdMask := 0
  probe := none
  probeId := 0
  d := 0
  hstat := 0
  idleReq := false
  idleRegrid := none
  quiet := 0
  coast := 0
  coastTick := 0
  stall := 0
  tickFrom := 0
  eye := false
  rx := .reset
  prbs := .reset
  txRd := false
  sent := []


def Dsp.reset : Dsp where
  state := .off
  cause := 0
  pend := false
  video := false
  blank := false
  byCommit := false
  bgOnly := false
  missRun := 0
  missed := 0
  idle := 0
  porch := 0
  unplugged := false
  parIgnore := false
  under := []





/-- The module right after reset (R476): every register at its table's reset value. -/
def Chip.reset : Chip where
  heads := 64
  regs := []
  acts := []
  rdata := 0
  rbytes := []
  rbad := false
  views := []
  staged := []
  outbox := []
  derr := []
  fresh := 0
  evr := Evr.reset
  pmcPend := []
  frozen := false
  hst := Hst.reset
  drc := Drc.reset
  svc := Svc.reset
  ttu := Ttu.reset
  eth := Vector.replicate 4 EthPort.reset
  hd := Vector.replicate 64 Head.reset
  scn := ⟨[], none, none, 0, 0, 0, []⟩
  mpc := Mpc.reset
  cam := Vector.replicate 16 Cam.reset
  camShared := ⟨[], 0, 268435456, 0⟩
  port := Vector.replicate 24 Port.reset
  axis := Vector.replicate 8 Axis.reset
  island := ⟨false, false, [], []⟩
  lane := Vector.replicate 76 Lane.reset
  dsp := Vector.replicate 2 Dsp.reset
  asy := none
  mon := ⟨255, 255, List.replicate 12 0⟩
  reg := none

/-- The machine right after the first power-up. -/
def State.reset : State where
  pending := []
  fuses := ⟨Vector.replicate 4 none, 0, 0⟩
  mem := ⟨[], [], [], []⟩
  chip := Chip.reset

end Sys2Proof.Machine
end

