-- ==== Sys2Proof/Machine/Ops.lean ====
section
/-! DEFINITION. The named operations over registers, sticky flags, counters, events, time and memory that
every command is written with. -/

namespace Sys2Proof.Machine

/-! ### Tables in canonical form -/

/-- Insertion of a pair at its place in a list whose keys rise strictly. -/
def insertKey {α : Type} (k : Nat) (v : α) : List (Nat × α) → List (Nat × α)
  | [] => [(k, v)]
  | (k', v') :: l => if k < k' then (k, v) :: (k', v') :: l else if k = k' then (k, v) :: l else (k', v') :: insertKey k v l

/-- Removal of a key. -/
def eraseKey {α : Type} (k : Nat) : List (Nat × α) → List (Nat × α)
  | [] => []
  | (k', v') :: l => if k = k' then eraseKey k l else (k', v') :: eraseKey k l

/-- The value listed for a key. -/
def findKey {α : Type} (k : Nat) : List (Nat × α) → Option α
  | [] => none
  | (k', v') :: l => if k = k' then some v' else findKey k l

/-- One element of a vector of units replaced by its image. -/
def upd {α : Type} {n : Nat} (v : Vector α n) (i : Fin n) (f : α → α) : Vector α n := v.set i (f v[i])

/-- Every element of a vector of units replaced by its image. -/
def updAll {α : Type} {n : Nat} (v : Vector α n) (f : Fin n → α → α) : Vector α n := Vector.ofFn fun i => f i v[i]

/-- A unit number of a command or of a register field, if it names a unit. -/
def inst? (n i : Nat) : Option (Fin n) := if h : i < n then some ⟨i, h⟩ else none

/-! ### Memory -/

/-- The byte at an address; an unlisted address reads as `d`. -/
def Memory.read (d : Byte) (m : Memory) (a : Nat) : Byte := (findKey a m).getD d

/-- A write keeps the canonical form: writing what an unlisted address reads as removes the entry. -/
def Memory.write (d : Byte) (m : Memory) (a : Nat) (b : Byte) : Memory :=
  if b = d then eraseKey a m else insertKey a b m

/-- Bytes written from an address upward. -/
def Memory.writes (d : Byte) (m : Memory) (a : Nat) : List Byte → Memory
  | [] => m
  | b :: bs => Memory.writes d (Memory.write d m a b) (a + 1) bs

/-- Addresses in `[a, a + n)` removed: they read as an unlisted address does. -/
def Memory.clear (m : Memory) (a n : Nat) : Memory := m.filter fun c => !(a ≤ c.1 && c.1 < a + n)

/-- Keys rise strictly. -/
def rising {α : Type} : List (Nat × α) → Bool
  | [] => true
  | [_] => true
  | x :: y :: l => decide (x.1 < y.1) && rising (y :: l)

/-- The canonical form: addresses strictly rising, no entry equal to what an unlisted address reads as. -/
def Memory.wf (d : Byte) (m : Memory) : Bool := rising m && m.all fun c => c.2 != d

/-- What an unlisted byte reads as: device DRAM, host memory and the scratchpad 0, NOR all ones, its erased state (R410).
DESIGN CHOICE but for NOR (log entry 5). -/
def dramDefault : Byte := 0
def norDefault : Byte := 0xFF

/-- One store of the outbox applied. -/
def MemWrite.apply (m : Mems) : MemWrite → Mems
  | .dram a bs => { m with dram := Memory.writes dramDefault m.dram a bs }
  | .host a bs => { m with host := Memory.writes dramDefault m.host a bs }
  | .nor a bs => { m with nor := Memory.writes norDefault m.nor a bs }
  | .norErase a n => { m with nor := Memory.clear m.nor a n }
  | .dramZero a n => { m with dram := Memory.clear m.dram a n }
  | .spad a bs => { m with spad := Memory.writes dramDefault m.spad a bs }
  | .dramClear => { m with dram := [], spad := [] }

/-- The canonical form of the memories. -/
def Mems.wf (m : Mems) : Bool :=
  Memory.wf dramDefault m.dram && Memory.wf dramDefault m.host && Memory.wf norDefault m.nor &&
    Memory.wf dramDefault m.spad

/-- The newest pending store of a DRAM byte, if the command in progress has issued one. -/
def pendingDram (a : Nat) : List MemWrite → Option Byte
  | [] => none
  | w :: ws =>
    match pendingDram a ws with
    | some b => some b
    | none =>
      match w with
      | .dram a' bs => if a' ≤ a ∧ a < a' + bs.length then some (bs.getD (a - a') 0) else none
      | .dramZero a' n => if a' ≤ a ∧ a < a' + n then some 0 else none
      | .dramClear => some dramDefault
      | _ => none

/-- A DRAM byte as the command in progress sees it: a read returns the latest write accepted (R295). -/
def Chip.dramByte (e : Env) (c : Chip) (a : Nat) : Byte :=
  (pendingDram a c.outbox).getD (Memory.read dramDefault e.mem.dram a)

/-- A NOR byte. -/
def norByte (e : Env) (a : Nat) : Byte := Memory.read norDefault e.mem.nor a

/-- A byte of the service scratchpad. -/
def spadByte (e : Env) (a : Nat) : Byte := Memory.read dramDefault e.mem.spad a

/-- A store issued. -/
def Chip.issue (c : Chip) (w : MemWrite) : Chip := { c with outbox := c.outbox ++ [w] }

/-- The effect of a command on the whole machine: what it does to the module, and then its stores in the
order of issue. -/
def State.effect (s : State) (f : Env → Chip → Chip) : State :=
  let c := f ⟨s.mem, s.fuses⟩ s.chip
  { s with mem := c.outbox.foldl MemWrite.apply s.mem, chip := { c with outbox := [], derr := [] } }

/-! ### Registers (R11 to R16) -/

/-- The stored value of a register: the last value written or set by the device, else its reset value. -/
def Chip.rd (c : Chip) (a : Nat) : Word := (findKey a c.regs).getD (resetOf a)

/-- A register's stored value replaced. -/
def Chip.wr (c : Chip) (a : Nat) (v : Word) : Chip :=
  { c with regs := if v = resetOf a then eraseKey a c.regs else insertKey a v c.regs }

/-- The active copy of a shadowed register (R16). -/
def Chip.act (c : Chip) (a : Nat) : Word := (findKey a c.acts).getD (resetOf a)

/-- The active copy replaced. -/
def Chip.setAct (c : Chip) (a : Nat) (v : Word) : Chip :=
  { c with acts := if v = resetOf a then eraseKey a c.acts else insertKey a v c.acts }

/-- The commit of one shadowed register: the shadow as it stands (R16). -/
def Chip.commitReg (c : Chip) (a : Nat) : Chip := c.setAct a (c.rd a)

/-- Whether an offset holds a shadowed register. -/
def isShadowed (a : Nat) : Bool :=
  match rowOf a with
  | some r => r.sh
  | none => false

/-- The commit of every shadowed register with an offset that `p` selects, all at once (R54). -/
def Chip.commitAll (c : Chip) (p : Nat → Bool) : Chip :=
  let ks := (c.regs.map (·.1) ++ c.acts.map (·.1)).filter fun a => p a && isShadowed a
  ks.foldl Chip.commitReg c

def Chip.rdn (c : Chip) (a : Nat) : Nat := (c.rd a).toNat
def Chip.wrn (c : Chip) (a v : Nat) : Chip := c.wr a (BitVec.ofNat 32 v)
def Chip.actn (c : Chip) (a : Nat) : Nat := (c.act a).toNat

/-- Field `[hi:lo]` of a stored register. -/
def Chip.fld (c : Chip) (a hi lo : Nat) : Nat := bitsOf (c.rdn a) hi lo

/-- Field `[hi:lo]` of an active copy. -/
def Chip.actFld (c : Chip) (a hi lo : Nat) : Nat := bitsOf (c.actn a) hi lo

/-- A stored register read as s32. -/
def Chip.rdInt (c : Chip) (a : Nat) : Int := (c.rd a).toInt
def Chip.actInt (c : Chip) (a : Nat) : Int := (c.act a).toInt

/-- A stored field replaced by the device. -/
def Chip.setFld (c : Chip) (a hi lo v : Nat) : Chip := c.wrn a (setBits (c.rdn a) hi lo v)

/-- One bit of a stored register. -/
def Chip.bit (c : Chip) (a i : Nat) : Bool := bitOf (c.rdn a) i

/-- Sticky bits set; they stay until software clears them (R15). -/
def Chip.sticky (c : Chip) (a mask : Nat) : Chip := c.wr a (c.rd a ||| BitVec.ofNat 32 mask)

/-- Bits cleared by the device. -/
def Chip.clearBits (c : Chip) (a mask : Nat) : Chip := c.wr a (c.rd a &&& ~~~ BitVec.ofNat 32 mask)

/-- A counter raised, saturating at `2^n - 1`. -/
def Chip.bumpN (c : Chip) (n a k : Nat) : Chip := c.wrn a (min (c.rdn a + k) (2 ^ n - 1))

/-- A 32-bit counter raised by one, saturating at 0xFFFF_FFFF. -/
def Chip.bump (c : Chip) (a : Nat) : Chip := c.bumpN 32 a 1

/-- A _LO/_HI pair as one number. -/
def Chip.rdPair (c : Chip) (lo : Nat) : Nat := c.rdn lo + 2 ^ 32 * c.rdn (lo + 4)

/-- A _LO/_HI pair replaced. -/
def Chip.wrPair (c : Chip) (lo v : Nat) : Chip := (c.wrn lo (v % 2 ^ 32)).wrn (lo + 4) (v / 2 ^ 32 % 2 ^ 32)

/-! ### Time -/

/-- One ns in the clocks' unit of 2^-32 ns (R352). -/
def nsUnit : Nat := 2 ^ 32

/-- Clock time in whole ns, truncated (R350). -/
def clockNs (x : Nat) : Nat := x / nsUnit

/-- Seconds, modulo 2^48, of a time in ns. -/
def secOf (ns : Nat) : Nat := ns / 1000000000 % 2 ^ 48

/-- The event timestamp format of R7: seconds [33:0] above 30-bit nanoseconds. -/
def tsFormat (ns : Nat) : Nat := secOf ns % 2 ^ 34 * 2 ^ 30 + ns % 1000000000

/-- Active-domain time in ns (R363). -/
def Chip.now (c : Chip) : Nat := clockNs c.ttu.dom[c.ttu.act]

/-- INC of the local clock (R352). -/
def Chip.inc (c : Chip) : Nat := c.rdPair Reg.TTU_LCL_INC_LO

/-- The clocks advanced by a number of reference-clock edges (R352, R354). -/
def Chip.advance (c : Chip) (edges : Nat) : Chip :=
  let i := c.inc
  { c with ttu := { c.ttu with
      up := c.ttu.up + edges
      since := c.ttu.since + edges
      lcl := c.ttu.lcl + edges * i
      dom := updAll c.ttu.dom fun d x =>
        (x + edges * ((i : Int) + c.rdInt (Reg.TTU_DOM_ADJ d))).toNat } }

/-- The tick period N in force (R38). -/
def Chip.N (c : Chip) : Nat := c.rdn Reg.TTU_TICK_PERIOD_ACT

/-- The sub-tick unit of the present instant (R5, R37). -/
def Chip.subTick (c : Chip) : Nat := min c.ttu.since (c.N - 1)

/-- Billionths of a reference-clock edge. -/
def edgeParts : Int := 1000000000

/-- The shortest and longest tick that STEER_LIMIT allows, in billionths of an edge; before the first regrid TTU does
not steer (R37, R42). -/
def Chip.spanLimits (c : Chip) : Int × Int :=
  let nominal : Int := c.N * edgeParts
  let d : Int := if c.ttu.anchored then c.N * 1000 * c.fld Reg.TTU_STEER_CFG 7 0 else 0
  (nominal - d, nominal + d)

/-- Reference-clock edges pass. In a tick they stop short of the boundary, which has its own command (DESIGN CHOICE, log
entry 1). -/
def Chip.wait (c : Chip) (edges : Nat) : Chip :=
  if c.ttu.inTick then c.advance (min edges (((c.ttu.frac + c.spanLimits.1) / edgeParts).toNat - c.ttu.since))
  else c.advance edges

/-- What the block does while no command waits: one edge passes. -/
def Chip.idle (c : Chip) : Chip := c.wait 1

/-- Reference-clock edges in one millisecond. -/
def edgesPerMs : Nat := 800000

/-! ### Free values -/

/-- A free value of `n` bits, and the state after drawing it. Nothing constrains it. -/
def Chip.draw (c : Chip) (n : Nat) : Nat × Chip :=
  (Config.freeValue c.fresh % 2 ^ n, { c with fresh := c.fresh + 1 })

/-! ### Events (R401 to R406) -/

/-- Block numbers of R402. -/
def blkGLB : Nat := 0x00
def blkTTU : Nat := 0x01
def blkSCN : Nat := 0x02
def blkSLD : Nat := 0x03
def blkMPC : Nat := 0x04
def blkCAM : Nat := 0x05
def blkLNK : Nat := 0x06
def blkDRC : Nat := 0x07
def blkCRB : Nat := 0x08
def blkHST : Nat := 0x09
def blkSVC : Nat := 0x0A
def blkNET : Nat := 0x0B
def blkDSP : Nat := 0x0C
def blkHVI : Nat := 0x0D
def blkEFP : Nat := 0x0E
def blkEVR : Nat := 0x0F
def blkPMC : Nat := 0x10
def blkASY : Nat := 0x11
def blkMON : Nat := 0x12

/-- SEV of R401. -/
def sevINFO : Nat := 0
def sevWARN : Nat := 1
def sevERROR : Nat := 2
def sevCRITICAL : Nat := 3

/-- The unit an event names (R405): none, a head (or its lane or laser loop), or another unit. -/
inductive Inst where
  | none
  | head (n : Nat)
  | other (n : Nat)
  deriving DecidableEq, Repr

/-- GANG_EN of GLB_GANG_CFG (R35). -/
def Chip.gangEn (c : Chip) : Bool := c.bit Reg.GLB_GANG_CFG 4

/-- This device's gang index (R35). -/
def Chip.devIndex (c : Chip) : Nat := c.fld Reg.GLB_GANG_CFG 1 0

/-- The number of a unit in its own device. -/
def Inst.local : Inst → Nat
  | .none => 0
  | .head n => n
  | .other n => n

/-- INST and GLOBAL of a record (R405). -/
def Chip.instOf (c : Chip) : Inst → Nat × Bool
  | .none => (0, false)
  | .head n => if c.gangEn then (64 * c.devIndex + n, true) else (n, false)
  | .other n => (n, false)

/-- An occurrence for the performance counters (R421, R422): block, EVSEL, unit, number. -/
def Chip.tally (c : Chip) (blk evsel inst n : Nat) : Chip :=
  if n = 0 then c else { c with pmcPend := c.pmcPend ++ [(blk, evsel, inst, n)] }

/-- An event enters the intake queue, or is lost because the queue is full (R406) or the RAM has failed
(R418). -/
def Chip.push (c : Chip) (ev : Event) : Chip :=
  if c.evr.ramFailed then
    (c.bump Reg.EVR_LOST_CNT).wrn Reg.EVR_FAIL_INFO (ev.blk * 2 ^ 11 + ev.num + ev.inst % 256 * 2 ^ 16)
  else if c.evr.intake.length < 256 then
    { c with evr := { c.evr with intake := c.evr.intake ++ [ev] } }
  else
    let c := (c.bump Reg.EVR_LOST_CNT).sticky Reg.EVR_STATUS (2 ^ 10)
    { c with evr := { c.evr with lostPend := c.evr.lostPend + 1 } }

/-- An event of R403 raised by a block, stamped with active-domain time (R363). -/
def Chip.raise (c : Chip) (blk num : Nat) (inst : Inst) (sev p0 p1 p2 : Nat) : Chip :=
  let (i, g) := c.instOf inst
  (c.push ⟨blk, num, i, g, sev, c.now, BitVec.ofNat 32 p0, BitVec.ofNat 32 p1, BitVec.ofNat 32 p2⟩).tally blk 0x03 inst.local 1

/-- The requester numbers of REG_DISCARD (R403). -/
def reqCode : Requester → Nat
  | .host => 0
  | .pair p => 1 + p
  | .jtag => 5

/-- The register-access event: a discarded write or a refused read (R12, R403). -/
def Chip.discard (c : Chip) (q : Requester) (off reason : Nat) (v : Word) : Chip :=
  c.raise (ownerOf off) 0x001 .none sevWARN off (reqCode q + 256 * reason) v.toNat

end Sys2Proof.Machine
end

