-- ==== Sys2Proof/Machine/Flags.lean ====
section
/-! DEFINITION. Sticky flags and the FLAG event that reports them (R403, R404). -/

namespace Sys2Proof.Machine

/-- Flag bits whose FLAG record has SEV ERROR, by flag register (R404): the register's series and the mask. -/
def errorFlags : List (String × Nat) :=
  [("LNK_FLAGS", 0x100),            -- LINK_DOWN
   ("MPC_LOOP_FLAGS", 0x80),        -- GATED_SEEN
   ("HVI_AX_FLAGS", 0x4000),        -- FAULTED
   ("MPC_SAFETY_STATUS", 0xF00),    -- ESTOP_LATCH, ESTOP_DISC, WDOG_EXP, TICKMON_EXP
   ("SCN_FIELD_FLAGS", 0x8),        -- LATTICE_UE
   ("TTU_TICK_STATUS", 0x100),      -- LOCK_LOST
   ("EFP_FLAGS", 0x7),              -- TRIP_I, TRIP_U, TRIP_E
   ("DRC_FLAGS", 0x42),             -- UE, SCRUB_UE
   ("CRB_FLAGS", 0x2),              -- UE
   ("SVC_PAIR_STATUS", 0xF00)]      -- FAULT

/-- The name of the register at an offset. -/
def regName (a : Nat) : String :=
  match rowOf a with
  | some r => r.name
  | none => ""

/-- SEV of a FLAG record (R404). -/
def flagSev (a bits : Nat) : Nat :=
  let n := regName a
  if n = "CRB_FLAGS" ∧ bitOf bits 2 then sevCRITICAL
  else if errorFlags.any fun p => p.1 == n && (p.2 &&& bits) != 0 then sevERROR
  else sevWARN

/-- The FLAG event of a flag register, naming the bits this occurrence sets (R403). -/
def Chip.flagEvent (c : Chip) (a : Nat) (inst : Inst) (bits p2 : Nat) : Chip :=
  c.raise (blockOf a) 0x000 inst (flagSev a bits) a bits p2

/-- Sticky bits set, and the event that their rule ties to them raised. -/
def Chip.flag (c : Chip) (a : Nat) (inst : Inst) (bits p2 : Nat) : Chip :=
  (c.sticky a bits).flagEvent a inst bits p2

/-- The INST of a head, for an event (R405). -/
def headInst (h : Nat) : Inst := .head h

/-- The INST of a lane: HLn counts as a head, GLn is not (R405). -/
def laneInst (l : Nat) : Inst := if l < 64 then .head l else .other l

/-- The INST of a loop: laser loops count as heads (R405). -/
def loopInst (m : Nat) : Inst := if m < 64 then .head m else .other m

end Sys2Proof.Machine
end

