-- ==== Sys2Proof/Machine/Dram.lean ====
section
/-! DEFINITION. Device DRAM as its requesters see it: address mapping (R294), regions and rights (R296 to
R298), the outer code (R299 to R302), uncorrectable data (R304) and the lease guards (R93, R94). -/

namespace Sys2Proof.Machine

/-! ### The outer code -/

/-- Multiplication by α = 2 in GF(2^8) with polynomial 0x11D (R299). -/
def gfDouble (x : Nat) : Nat := if x < 128 then 2 * x else (2 * x) ^^^ 0x11D

/-- Multiplication in GF(2^8) (R299). -/
def gmul (a b : Nat) : Nat :=
  ((List.range 8).foldl (fun (s : Nat × Nat) i =>
    ((if bitOf b i then s.1 ^^^ s.2 else s.1), gfDouble s.2)) (0, a)).1

/-- α^i (R300). -/
def alog : Nat → Nat
  | 0 => 1
  | i + 1 => gfDouble (alog i)

/-- The logarithm of a nonzero field element (R300). -/
def glog (x : Nat) : Nat := ((List.range 255).find? fun i => alog i == x).getD 0

/-- x / y in the field, y nonzero. -/
def gdiv (x y : Nat) : Nat := if x = 0 then 0 else alog ((glog x + 255 - glog y) % 255)

/-- The check symbols c8 and c9 of eight data bytes (R299). -/
def checkSymbols (d : List Nat) : Nat × Nat :=
  let a := d.foldl (· ^^^ ·) 0
  let b := (d.zipIdx.map fun p => gmul p.1 (alog p.2)).foldl (· ^^^ ·) 0
  let c9 := gdiv (b ^^^ gmul 0x1D a) 0x27
  (a ^^^ c9, c9)

/-- What the decoder finds in one beat (R300). -/
inductive BeatResult where
  | ok
  | ce (pos : Nat)
  | ue
  deriving DecidableEq, Repr

/-- A symbol corrected by XOR. -/
def fixSymbol (c : List Nat) (p s : Nat) : List Nat := c.set p (c.getD p 0 ^^^ s)

/-- The decoding of one codeword of ten symbols, with the channel's marked position, if any (R300). -/
def decodeBeat (mark : Option Nat) (c : List Nat) : BeatResult × List Nat :=
  let s0 := c.foldl (· ^^^ ·) 0
  let s1 := (c.zipIdx.map fun p => gmul p.1 (alog p.2)).foldl (· ^^^ ·) 0
  match mark with
  | some m =>
    if s1 ≠ gmul s0 (alog m) then (.ue, c)
    else if s0 = 0 then (.ok, c) else (.ce m, fixSymbol c m s0)
  | none =>
    if s0 = 0 ∧ s1 = 0 then (.ok, c)
    else if s0 = 0 ∨ s1 = 0 then (.ue, c)
    else
      let p := (glog s1 + 255 - glog s0) % 255
      if p > 9 then (.ue, c) else (.ce p, fixSymbol c p s0)

/-- A burst judged as a whole (R300): uncorrectable if a beat is, or if two beats show different positions;
otherwise the position at which it was corrected, if any, and in how many beats. -/
def judgeBurst : List BeatResult → Option (Option (Nat × Nat))
  | [] => some none
  | r :: rs =>
    match judgeBurst rs, r with
    | none, _ => none
    | _, .ue => none
    | some x, .ok => some x
    | some none, .ce p => some (some (p, 1))
    | some (some (q, k)), .ce p => if p = q then some (some (q, k + 1)) else none

/-! ### Addresses (R294) -/

/-- The channel of a DRAM address. -/
def chanOf (a : Nat) : Fin 2 := if (bitOf a 8 ^^ bitOf a 17) ^^ bitOf a 26 then 1 else 0

/-- The channel address. -/
def chanAddr (a : Nat) : Nat := a / 2 ^ 9 * 2 ^ 8 + a % 2 ^ 8

/-- Bank number 4 × bank group + bank of a DRAM address (R294, DRC_CH_RH_LAST). -/
def bankOf (a : Nat) : Nat :=
  let x := chanAddr a
  4 * (bitsOf x 15 13 ^^^ bitsOf x 20 18) + bitsOf x 17 16

/-! ### Requesters and regions (R296 to R298) -/

def reqStaging : Nat := 0x00
def reqLattice : Nat := 0x01
def reqMPC : Nat := 0x02
def reqCAM : Nat := 0x03
def reqHST : Nat := 0x04
def reqBAR2 : Nat := 0x05
def reqDSP (n : Nat) : Nat := 0x06 + n
def reqNET : Nat := 0x08
def reqPair (p : Nat) : Nat := 0x09 + p
def reqScrub : Nat := 0x0E

/-- Whether a requester ID is a service-cluster pair. -/
def isPairReq (q : Nat) : Bool := 9 ≤ q && q ≤ 12

/-- The rights of R297: whether requester `q` may write (or read) the byte at `a`. -/
def mayWrite (q a : Nat) : Bool :=
  if q = reqScrub then a < 2 ^ 35
  else if a < 0x40000000 then isPairReq q
  else if a < 0x50000000 then
    q = reqMPC || isPairReq q || (q = reqLattice && 0x4E000000 ≤ a)
  else if a < 0x80000000 then isPairReq q || q = reqHST || q = reqNET
  else if a < 0x800000000 then !(q = reqMPC || q = reqDSP 0 || q = reqDSP 1)
  else false

def mayRead (q a : Nat) : Bool :=
  if q = reqScrub then a < 2 ^ 35
  else if a < 0x40000000 then isPairReq q
  else if a < 0x50000000 then
    q = reqMPC || isPairReq q || q = reqHST || q = reqBAR2 ||
    ((q = reqStaging || q = reqLattice) && 0x4E000000 ≤ a)
  else decide (a < 0x800000000)

/-- A request outside its rights (R298): recorded, flagged and reported with its first refused byte. -/
def Chip.regionViol (c : Chip) (q a : Nat) (write : Bool) : Chip :=
  let c := c.wrPair Reg.DRC_VIOL_ADDR_LO (a % 2 ^ 35)
  let c := c.wrn Reg.DRC_VIOL_INFO (q + 256 * b2n write)
  c.flag Reg.DRC_FLAGS .none 0x80 (a % 2 ^ 32)

/-- The first byte of `[a, a + n)` that a predicate refuses. -/
def firstRefused (p : Nat → Bool) (a : Nat) : Nat → Option Nat
  | 0 => none
  | n + 1 => if p a then firstRefused p (a + 1) n else some a

/-! ### Errors (R301, R304) -/

/-- DRC_ERR_ADDR and DRC_ERR_INFO of an error. -/
def Chip.dramErrInfo (c : Chip) (burst type pos q : Nat) (scrub : Bool) : Chip :=
  (c.wrPair Reg.DRC_ERR_ADDR_LO (burst % 2 ^ 35)).wrn Reg.DRC_ERR_INFO
    (type + pos * 2 ^ 4 + q * 2 ^ 8 + b2n scrub * 2 ^ 16 + (chanOf burst).val * 2 ^ 17)

/-- A corrected burst: recorded and counted, and its position marked where R301 says so. -/
def Chip.dramCE (c : Chip) (burst pos beats q : Nat) (scrub : Bool) : Chip :=
  let ch := chanOf burst
  let c := c.dramErrInfo burst 1 pos q scrub
  let c := (c.bump (Reg.DRC_CH_CE_CNT ch)).flag Reg.DRC_FLAGS (.other ch) 0x1 0
  let m := Reg.DRC_CH_MARK ch
  if c.bit m 9 && !c.bit m 8 && 2 ≤ beats then
    ((c.setFld m 3 0 pos).setFld m 8 8 1).sticky Reg.DRC_FLAGS 0x4
  else c

/-- An uncorrectable burst (R304); patrol scrub also sets SCRUB_UE (R305). -/
def Chip.dramUE (c : Chip) (burst q : Nat) (scrub : Bool) : Chip :=
  let ch := chanOf burst
  let c := c.dramErrInfo burst 2 0xF q scrub
  (c.bump (Reg.DRC_CH_UE_CNT ch)).flag Reg.DRC_FLAGS (.other ch) (if scrub then 0x42 else 0x2) 0

/-- The marked position of a channel, if any (DRC_CH_MARK). -/
def Chip.markOf (c : Chip) (ch : Nat) : Option Nat :=
  let m := Reg.DRC_CH_MARK ch
  if c.bit m 8 then some (c.fld m 3 0) else none

/-- The ten symbols that the devices return for one beat: the stored bytes with their check symbols, and
the errors of the command in progress. -/
def Chip.beatSymbols (e : Env) (c : Chip) (beat : Nat) : List Nat :=
  let d := (List.range 8).map fun i => (c.dramByte e (8 * beat + i)).toNat
  let (c8, c9) := checkSymbols d
  (c.derr.filter (·.beat == beat)).foldl (fun s x => fixSymbol s x.pos x.xor.toNat) (d ++ [c8, c9])

/-- Whether the devices return an error in a burst of 128 bytes. -/
def Chip.burstHasErr (c : Chip) (burst : Nat) : Bool := c.derr.any fun x => x.beat / 16 == burst / 128

/-- The burst that begins at `b` as it decodes: its verdict and its bytes (R300). -/
def Chip.decodeBurst (e : Env) (c : Chip) (b : Nat) : Option (Option (Nat × Nat)) × List Byte :=
  let rs := (List.range 16).map fun i => decodeBeat (c.markOf (chanOf b)) (c.beatSymbols e (b / 8 + i))
  (judgeBurst (rs.map (·.1)), rs.flatMap fun r => (r.2.take 8).map (BitVec.ofNat 8 ·))

/-- One burst read and decoded: its 128 bytes, or `none` where it is uncorrectable. -/
def Chip.readBurst (e : Env) (c : Chip) (q burst : Nat) (scrub : Bool) : Chip × Option (List Byte) :=
  let b := burst / 128 * 128
  if c.burstHasErr b then
    match c.decodeBurst e b with
    | (none, _) => (c.dramUE b q scrub, none)
    | (some none, bs) => (c, some bs)
    | (some (some (p, k)), bs) => (c.dramCE b p k q scrub, some bs)
  else (c, some ((List.range 128).map fun i => c.dramByte e (b + i)))

/-- The bursts that `[a, a + n)` touches. -/
def burstsOf (a n : Nat) : List Nat :=
  if n = 0 then [] else (List.range ((a + n - 1) / 128 - a / 128 + 1)).map fun i => (a / 128 + i) * 128

/-- The bursts of a range read in turn: the chip after them, the bytes of the bursts, and whether one was
uncorrectable. -/
def Chip.readBursts (e : Env) (q : Nat) : List Nat → Chip → Chip × List Byte × Bool
  | [], c => (c, [], true)
  | b :: bs, c =>
    let (c, r) := c.readBurst e q b false
    let (c, rest, ok) := Chip.readBursts e q bs c
    match r with
    | some x => (c, x ++ rest, ok)
    | none => (c, List.replicate 128 0 ++ rest, false)

/-- The bursts of a range read in turn until one is uncorrectable, which ends the read. -/
def Chip.readUntilBad (e : Env) (q : Nat) : List Nat → Chip → Chip × List Byte × Bool
  | [], c => (c, [], true)
  | b :: bs, c =>
    match c.readBurst e q b false with
    | (c, some x) =>
      let (c, rest, ok) := Chip.readUntilBad e q bs c
      (c, x ++ rest, ok)
    | (c, none) => (c, [], false)

/-- What a DRAM read returned: the bytes, zeros outside the rights (R298), and whether every burst was
correctable. -/
structure DramData where
  bytes : List Byte
  ok : Bool
  deriving DecidableEq, Repr

/-- A read of `[a, a + n)` by requester `q` (R295 to R304). -/
def Chip.dramRead (e : Env) (c : Chip) (q a n : Nat) : Chip × DramData :=
  match firstRefused (mayRead q) a n with
  | some x => (c.regionViol q x false, ⟨List.replicate n 0, true⟩)
  | none =>
    let (c, bs, ok) := Chip.readBursts e q (burstsOf a n) c
    (c, ⟨(bs.drop (a % 128)).take n, ok⟩)

/-- A read for a load's checks, which fails at once on an uncorrectable burst (R82). -/
def Chip.checkRead (e : Env) (c : Chip) (q a n : Nat) : Chip × DramData :=
  match firstRefused (mayRead q) a n with
  | some x => (c.regionViol q x false, ⟨List.replicate n 0, true⟩)
  | none =>
    let (c, bs, ok) := Chip.readUntilBad e q (burstsOf a n) c
    (c, ⟨(bs.drop (a % 128)).take n, ok⟩)

/-- Whether a write of `[a, a + n)` covers only part of a beat of a burst, so that the burst is read first
(R299). -/
def partialIn (a n burst : Nat) : Bool :=
  (burst ≤ a && a < burst + 128 && a % 8 != 0) ||
  (burst < a + n && a + n ≤ burst + 128 && (a + n) % 8 != 0)

/-- The bursts whose read-modify-write of `[a, a + n)` meets uncorrectable data; one that decodes is written back as it was
read, before the bytes of the write (R299). -/
def Chip.rmwBursts (e : Env) (q a n : Nat) : List Nat → Chip → Chip × List Nat
  | [], c => (c, [])
  | b :: bs, c =>
    if partialIn a n b && c.burstHasErr b then
      match c.readBurst e q b false with
      | (c, none) => let (c, bad) := Chip.rmwBursts e q a n bs c; (c, b :: bad)
      | (c, some x) => Chip.rmwBursts e q a n bs (c.issue (.dram b x))
    else Chip.rmwBursts e q a n bs c

/-- Bytes kept by a predicate on their address, as runs of stores. -/
def keptRuns (keep : Nat → Bool) (a : Nat) : List Byte → List (Nat × List Byte)
  | [] => []
  | b :: bs =>
    let rest := keptRuns keep (a + 1) bs
    if keep a then
      match rest with
      | (a', run) :: l => if a' = a + 1 then (a, b :: run) :: l else (a, [b]) :: rest
      | [] => [(a, [b])]
    else rest

/-- Stores of the bytes that `keep` admits. -/
def Chip.storeKept (c : Chip) (keep : Nat → Bool) (a : Nat) (bs : List Byte) : Chip :=
  (keptRuns keep a bs).foldl (fun c r => c.issue (.dram r.1 r.2)) c

/-- A write whose bytes the region rights and the guards have already admitted (R299): bursts whose
read-modify-write is uncorrectable keep their data. -/
def Chip.dramPut (e : Env) (c : Chip) (q a : Nat) (keep : Nat → Bool) (bs : List Byte) : Chip :=
  let (c, bad) := Chip.rmwBursts e q a bs.length (burstsOf a bs.length) c
  c.storeKept (fun x => keep x && !bad.contains (x / 128 * 128)) a bs

/-! ### Lease guards (R93, R94) -/

/-- Whether a lease guards its range. -/
def Lease.guards (l : Lease) : Bool := l.state = .loaded || l.state = .armed || l.state = .running

def Lease.covers (l : Lease) (a : Nat) : Bool := l.base ≤ a && a < l.base + l.len

/-- The lease that guards a byte. -/
def Chip.guardOf (c : Chip) (a : Nat) : Option (Fin 16) :=
  (List.finRange 16).find? fun i => c.hst.leases[i].guards && c.hst.leases[i].covers a

/-- Writes into a LOADING range are noted: they make its load fail (R94). -/
def Chip.noteLoading (c : Chip) (a n : Nat) : Chip :=
  { c with hst := { c.hst with leases := updAll c.hst.leases fun _ l =>
      if l.state = .loading ∧ a < l.base + l.len ∧ l.base < a + n ∧ 0 < n then { l with written := true } else l } }

/-- A guard violation recorded (R98): its kind's bit in HST_LEASE_VIOL, the count and the first refused byte. -/
def Chip.leaseViol (c : Chip) (bit a : Nat) : Chip :=
  ((c.bump Reg.HST_LEASE_VIOL_CNT).wrPair Reg.HST_LEASE_VIOL_ADDR_LO (a % 2 ^ 35)).sticky Reg.HST_LEASE_VIOL bit

/-- A write dropped under a lease's guard, BAR2_DROP or INT_DROP, and its event: that of BAR2_DROP names the lease (R93). The
error event that R93 has the requesting block raise is, for every requester, the FLAG of INT_DROP that R403 gives the flag's
owner, HST (DESIGN CHOICE, log entry 95). -/
def Chip.guardDrop (c : Chip) (bit a : Nat) : Chip :=
  (c.leaseViol bit a).flagEvent Reg.HST_LEASE_VIOL .none bit (if bit = 0x1 then (c.guardOf a).elim 0 (·.val) else 0)

/-- A write by a device requester other than BAR2, the copy engine and the service cluster: dropped, with
INT_DROP, where it touches a guarded range (R93); its bytes outside the rights are dropped (R298). The Bool
tells whether it was admitted. -/
def Chip.dramWrite (e : Env) (c : Chip) (q a : Nat) (bs : List Byte) : Chip × Bool :=
  match firstRefused (mayWrite q) a bs.length with
  | some x => (c.regionViol q x true, false)
  | none =>
    match firstRefused (fun x => (c.guardOf x).isNone) a bs.length with
    | some x => (c.guardDrop 0x8 x, false)
    | none => ((c.noteLoading a bs.length).dramPut e q a (fun _ => true) bs, true)

/-! ### Layer gaps (R308, R309) -/

def Chip.onDrc (c : Chip) (f : Drc → Drc) : Chip := { c with drc := f c.drc }

/-- An ARMED Ingot has a start tick that lies within `ns` of the boundary that began the tick in progress. -/
def Chip.startWithin (c : Chip) (ns : Nat) : Bool :=
  match c.scn.armed with
  | some (i, _) => (c.hst.leases[i]).start.any fun x => decide ((x.tick - c.ttu.index) * c.N * 5 ≤ 4 * ns)
  | none => false

/-- A layer gap (R308), shown by GAP from the end of DRAM training on (R479; DEDUCED, log entry 26). -/
def Chip.layerGap (c : Chip) : Bool := c.drc.initDone && c.scn.layer.isNone && !c.startWithin 5000000

/-- A retraining that waits as a layer gap finds it is held off, through that gap, where an ARMED start tick would fall within
5 ms of its end; each channel takes 1.5 ms (R309). -/
def Chip.noteGap (c : Chip) : Chip :=
  c.onDrc fun d => { d with heldOff := c.layerGap && (d.heldOff || (d.needed && c.startWithin 8000000)) }

/-- A write to host memory, after every write issued before it (R318). -/
def Chip.hostWrite (c : Chip) (a : Nat) (bs : List Byte) : Chip := c.issue (.host a bs)

end Sys2Proof.Machine
end

