-- ==== Sys2Proof/Machine/RingOps.lean ====
section
/-! DEFINITION. What every ring does: interrupts (R329), completions and records (R326 to R328, R335),
failures (R336), and the engine's choice of the entry in hand (R331, R334, R344). -/

namespace Sys2Proof.Machine

/-! ### Fields of a ring -/

def Chip.ringType (c : Chip) (r : Nat) : Nat := c.fld (Reg.HST_RING_CFG r) 3 0
def Chip.ringLoc (c : Chip) (r : Nat) : Bool := c.bit (Reg.HST_RING_CFG r) 4
def Chip.ringDrop (c : Chip) (r : Nat) : Bool := c.bit (Reg.HST_RING_CFG r) 5
def Chip.ringLog2 (c : Chip) (r : Nat) : Nat := c.fld (Reg.HST_RING_CFG r) 11 8
def Chip.ringSize (c : Chip) (r : Nat) : Nat := 2 ^ c.ringLog2 r
def Chip.ringVector (c : Chip) (r : Nat) : Nat := c.fld (Reg.HST_RING_CFG r) 17 12
def Chip.ringBind (c : Chip) (r : Nat) : Nat := c.fld (Reg.HST_RING_CFG r) 21 18
def Chip.ringOwner (c : Chip) (r : Nat) : Nat := c.fld (Reg.HST_RING_CFG r) 24 22
def Chip.ringBase (c : Chip) (r : Nat) : Nat := c.rdPair (Reg.HST_RING_BASE_LO r)
def Chip.ringCq (c : Chip) (r : Nat) : Nat := c.rdPair (Reg.HST_RING_CQ_LO r)
def Chip.ringWb (c : Chip) (r : Nat) : Nat := c.rdPair (Reg.HST_RING_WB_LO r)

/-- The requester that a ring's owner is (R322, R339). -/
def ownerReq (o : Nat) : Requester :=
  match inst? 4 (o - 1) with
  | some p => if o = 0 then .host else .pair p
  | none => .host

/-- Ring r replaced by its image. -/
def Chip.onRing (c : Chip) (r : Fin 256) (f : Ring → Ring) : Chip :=
  { c with hst := { c.hst with rings := upd c.hst.rings r f } }

def Chip.ring (c : Chip) (r : Fin 256) : Ring := c.hst.rings[r]

/-- Whether ring types write a record area instead of completions (R321). -/
def isStream (t : Nat) : Bool := t = 4 || t = 5

/-- Bytes of one request or record entry (R321). -/
def entrySize (t : Nat) : Nat := if t = 4 then 64 else 32

/-- A write by requester `q` into a ring's address space: host memory, or device DRAM for a service-owned
ring (R322), and its status of R336: OK, REGION or LEASE_CONFLICT. -/
def Chip.ringWriteAs (e : Env) (c : Chip) (q r a : Nat) (bs : List Byte) : Chip × Nat :=
  if c.ringLoc r then
    ((c.dramWrite e q a bs).1,
      if (firstRefused (mayWrite q) a bs.length).isSome then 0x45
      else if (firstRefused (fun x => (c.guardOf x).isNone) a bs.length).isSome then 0x46 else 0x00)
  else (c.hostWrite a bs, 0x00)

/-- A write of the descriptor engine into a ring's address space. -/
def Chip.ringWrite (e : Env) (c : Chip) (r a : Nat) (bs : List Byte) : Chip := (c.ringWriteAs e reqHST r a bs).1

/-! ### Interrupts (R329) -/

/-- The MSI-X message of a vector: a write of its table entry's data to its address, or its pending bit
while it, or the whole function, is masked or MSI-X is not enabled. -/
def Chip.sendMsix (c : Chip) (v : Fin 64) : Chip :=
  let m := c.hst.msix[v]
  if m.ctrl.getLsbD 0 || c.hst.msixMask || !c.hst.msixOn then { c with hst := { c.hst with pba := c.hst.pba ||| (1#64 <<< v.val) } }
  else
    let c := (c.tally blkHST 0x13 0 1).hostWrite (m.addrLo.toNat + 2 ^ 32 * m.addrHi.toNat) (leBytes 4 m.data.toNat)
    if c.fld Reg.HST_IRQ_CFG 7 0 = 0 then c
    else { c with hst := { c.hst with spacing := c.hst.spacing ||| (1#64 <<< v.val) } }

/-- An interrupt condition of a vector: sent now, or merged with the condition that waits for the end of
the spacing. -/
def Chip.irqVector (c : Chip) (v : Nat) : Chip :=
  match inst? 64 v with
  | none => c
  | some v =>
    if c.hst.spacing.getLsbD v then { c with hst := { c.hst with waiting := c.hst.waiting ||| (1#64 <<< v.val) } }
    else c.sendMsix v

/-- A local interrupt line of a pair, unless the pair's lines are masked (R380). -/
def Chip.irqLine (c : Chip) (p : Fin 4) (l : Nat) : Chip :=
  if c.svc.masked.getLsbD p then c
  else { c with svc := { c.svc with lines := upd c.svc.lines p (· ||| (1#64 <<< l)) } }

/-- The interrupt of a ring: its vector, or a line of the owner pair (R329). -/
def Chip.ringIrq (c : Chip) (r : Nat) : Chip :=
  let o := c.ringOwner r
  if o = 0 then c.irqVector (c.ringVector r)
  else match inst? 4 (o - 1) with
    | some p => c.irqLine p (c.ringVector r)
    | none => c

/-- HST_FLAGS bits set, their event, and the interrupt of GLB_VEC. -/
def Chip.hstFlag (c : Chip) (r bits p2 : Nat) : Chip :=
  (c.flag Reg.HST_FLAGS (.other r) bits p2).irqVector (c.fld Reg.HST_IRQ_CFG 13 8)

/-! ### Completions (R327, R335, R336) -/

/-- Whether a status of R336 is a failure: OK, the results of layers and releases, ABORTED and ABANDONED are
not (DEDUCED, log entry 16). -/
def statusFails (s : Nat) : Bool := !([0x00, 0x4B, 0x4D, 0x4E, 0x4F, 0x56].contains s)

/-- The bit of HST_FLAGS that bears the name of a failure's status. -/
def statusFlag (s : Nat) : Nat :=
  if s = 0x55 then 0x04 else if s = 0x42 then 0x08 else if s = 0x43 then 0x10
  else if s = 0x44 then 0x20 else if s = 0x45 then 0x40 else 0

/-- A failed descriptor: the ring's error registers, the flag of its name and an event. -/
def Chip.noteFailure (c : Chip) (r idx status : Nat) : Chip :=
  let c := (c.wrn (Reg.HST_RING_ERR_IDX r) (idx % 2 ^ 16 + status * 2 ^ 16)).wrn Reg.HST_ERR_RING r
  let b := statusFlag status
  if b = 0 then c.flagEvent Reg.HST_FLAGS (.other r) 0 status
  else (if status = 0x55 then c.sticky (Reg.HST_RING_FLAGS r) 0x4 else c).hstFlag r b status

/-- The 16 bytes of a completion entry (R327). -/
def complBytes (k : Compl) (phase : Bool) (info0 info1 : Nat) : List Byte :=
  leBytes 2 k.idx ++ leBytes 1 k.status ++ leBytes 1 (b2n phase + 2 * b2n k.irq + 4 * b2n k.final) ++
    leBytes 4 info0 ++ leBytes 8 info1

/-- An INFO field as written: one that its opcode leaves open is a free value (log entry 3). -/
def Chip.infoOf (c : Chip) (n : Nat) : Option Nat → Nat × Chip
  | some x => (x, c)
  | none => c.draw n

/-- Whether a full completion or record ring blocks: policy BLOCK, FEATURE rings apart (R335). -/
def Chip.blocks (c : Chip) (r : Nat) : Bool := !c.ringDrop r && c.ringType r != 4

/-- PHASE of the completion with index i (R327). -/
def phaseOf (i log2 : Nat) : Bool := !bitOf i log2

/-- Completions written and not consumed. -/
def Ring.cqUsed (g : Ring) : Nat := (g.cqTail - g.cqHead).toNat

/-- Records written and not consumed. -/
def Ring.recUsed (g : Ring) : Nat := (g.recProd - g.recCons).toNat

/-- Whether a ring runs descriptors. -/
def Ring.runs (g : Ring) : Bool := g.state = .enabled || g.state = .error

/-- CQ_FULL: a ring under BLOCK whose completion or record ring is full (R335). -/
def Chip.cqFull (c : Chip) (r : Fin 256) : Bool :=
  let g := c.ring r
  g.runs && c.blocks r && decide (c.ringSize r ≤ if isStream (c.ringType r) then g.recUsed else g.cqUsed)

/-- CQ_FULL_SEEN follows CQ_FULL. -/
def Chip.noteFull (c : Chip) (r : Fin 256) : Chip := if c.cqFull r then c.sticky (Reg.HST_RING_FLAGS r) 0x8 else c

/-- A completion or record dropped for a full ring: counted, and one event (R335). -/
def Chip.noteDrop (c : Chip) (r : Fin 256) : Chip :=
  ((c.bump (Reg.HST_RING_DROP_CNT r)).sticky (Reg.HST_RING_FLAGS r) 0x10).hstFlag r 0x80 0

/-- One completion written to its slot. -/
def Chip.writeCompl (e : Env) (c : Chip) (r : Fin 256) (k : Compl) : Chip :=
  let g := c.ring r
  let i := g.cqTail.toNat
  let (i0, c) := c.infoOf 32 k.info0
  let (i1, c) := c.infoOf 64 k.info1
  let c := c.ringWrite e r (c.ringCq r + 16 * (i % c.ringSize r)) (complBytes k (phaseOf i (c.ringLog2 r)) i0 i1)
  let c := (c.onRing r fun g => { g with cqTail := g.cqTail + 1, wbPend := true }).noteFull r
  let c := (c.bump (Reg.HST_RING_DONE_CNT r)).tally blkHST 0x10 r (b2n k.final)
  if k.irq then c.ringIrq r else c

/-- A completion written, held back by a full ring under BLOCK, or dropped under DROP (R335). A ring that
is not ENABLED posts none (R344). -/
def Chip.postNow (e : Env) (c : Chip) (r : Fin 256) (k : Compl) : Chip :=
  let g := c.ring r
  if g.state ≠ .enabled ∧ g.state ≠ .error then c
  else if g.held.isEmpty ∧ g.cqUsed < c.ringSize r then c.writeCompl e r k
  else if c.ringDrop r then (c.noteDrop r).tally blkHST 0x10 r (b2n k.final)
  else (c.sticky (Reg.HST_RING_FLAGS r) 0x8).onRing r fun g => { g with held := g.held ++ [k] }

/-- The ring types whose entries post buffers, which stay in progress side by side (R343). -/
def isBuffers (t : Nat) : Bool := t = 3 || t = 7

/-- A completion noted among the entries in progress: in the place of its entry, or behind them where the entry begins and
ends at once. -/
def noteDone (k : Compl) (w : List (Nat × Option Compl)) : List (Nat × Option Compl) :=
  if w.any (·.1 == k.idx) then w.map fun x => if x.1 = k.idx then (x.1, some k) else x else w ++ [(k.idx, some k)]

/-- The completions that no earlier entry holds up are posted. -/
def Chip.postReady (e : Env) (r : Fin 256) : Nat → Chip → Chip
  | 0, c => c
  | n + 1, c =>
    match (c.ring r).wait with
    | (_, some k) :: w => Chip.postReady e r n ((c.onRing r fun g => { g with wait := w }).postNow e r k)
    | _ => c

/-- A completion posted in ring order (R331). -/
def Chip.post (e : Env) (c : Chip) (r : Fin 256) (k : Compl) : Chip :=
  if isBuffers (c.ringType r) && (c.ring r).runs then
    let c := c.onRing r fun g => { g with wait := noteDone k g.wait }
    c.postReady e r (c.ring r).wait.length
  else c.postNow e r k

/-- Completions held back are posted while slots are free. -/
def Chip.releaseHeld (e : Env) (r : Fin 256) : Nat → Chip → Chip
  | 0, c => c
  | n + 1, c =>
    match (c.ring r).held with
    | [] => c
    | k :: ks =>
      if (c.ring r).cqUsed < c.ringSize r then
        Chip.releaseHeld e r n ((c.onRing r fun g => { g with held := ks }).writeCompl e r k)
      else c

/-- A completion for a request entry whose ring and index are known, if they still are (R344). -/
def Chip.postRef (e : Env) (c : Chip) (ref : Option DescRef) (status : Nat) (final : Bool) (info0 info1 : Option Nat) :
    Chip :=
  match ref with
  | none => c
  | some d =>
    match inst? 256 d.ring with
    | none => c
    | some r => c.post e r ⟨d.idx, status, d.irq, final, info0, info1⟩

/-! ### Records of stream rings -/

/-- Whether an enabled stream ring has room for a record. -/
def Chip.hasRoom (c : Chip) (r : Fin 256) : Bool := decide ((c.ring r).recUsed < c.ringSize r)

/-- One record written to its slot, REC_PROD advanced, and the ring's interrupt (R329). -/
def Chip.writeRecord (e : Env) (c : Chip) (r : Fin 256) (bs : List Byte) : Chip :=
  let i := (c.ring r).recProd.toNat
  let c := c.ringWrite e r (c.ringBase r + entrySize (c.ringType r) * (i % c.ringSize r)) bs
  let c := (c.onRing r fun g => { g with recProd := g.recProd + 1, wbPend := true }).noteFull r
  (c.bump (Reg.HST_RING_DONE_CNT r)).ringIrq r

/-- A record dropped for a full ring under DROP (R335). -/
def Chip.dropRecord (c : Chip) (r : Fin 256) : Chip := c.noteDrop r

/-! ### The entry in hand -/

/-- Completions a ring owes (R328). -/
def Chip.owed (c : Chip) (r : Fin 256) : Nat :=
  let g := c.ring r
  let inFlight := (c.hst.reads.filter (·.ring == r.val)).foldl
    (fun n x => match x.use with | .fetch _ k => n + k | _ => n) 0
  g.fetched.length + inFlight + g.wait.length + g.owedLate + g.held.length +
    b2n (g.chain.isSome || g.cur.isSome)

/-- HST_RING_STATUS of a ring. A ring that is DISABLING owes nothing: what is in progress ends without a completion
(R344). -/
def Chip.ringStatus (c : Chip) (r : Fin 256) : Nat :=
  let g := c.ring r
  let st := match g.state with | .disabled => 0 | .enabled => 1 | .disabling => 2 | .error => 3
  st + 2 ^ 3 * b2n (c.cqFull r) + 2 ^ 4 * g.rejCause +
    2 ^ 8 * (if g.state = .disabling then 0 else min (c.owed r) 0xFF)

/-- The opcodes that a ring type accepts (R321). -/
def acceptsOp (t op : Nat) : Bool :=
  match t with
  | 0 => [0x00, 0x02, 0x10, 0x11, 0x12, 0x13].contains op
  | 1 => [0x00, 0x01, 0x02, 0x20, 0x21, 0x22, 0x23, 0x24].contains op
  | 2 => [0x00, 0x01, 0x30, 0x31].contains op
  | 3 => op = 0x40
  | 6 => op = 0x50
  | 7 => op = 0x51
  | _ => false

def Desc.op (d : Desc) : Nat := leAt d.bytes 0 1
def Desc.irq (d : Desc) : Bool := bitOf (leAt d.bytes 1 1) 0

/-- The entry that the engine has in hand: a chain's entry, or the oldest entry fetched. -/
def Ring.hand (g : Ring) : Option Desc :=
  if g.cur.isSome then none
  else if g.chain.isSome then g.chainHead
  else g.fetched.head?

/-- The entry in hand taken off its queue. -/
def Ring.take (g : Ring) : Ring :=
  if g.chain.isSome then { g with chainHead := none } else { g with fetched := g.fetched.tail }

/-- Whether a closed camera frame is still to be written into a buffer of a ring. -/
def Chip.frameOn (c : Chip) (r : Nat) : Bool :=
  c.cam.toList.any fun k => k.closed.any fun f => f.buf.any fun b => b.1 == r

/-- A ring with nothing in progress: DISABLING ends in DISABLED (R344). -/
def Chip.ringIdle (c : Chip) (r : Fin 256) : Chip :=
  let g := c.ring r
  if g.state = .disabling ∧ g.cur.isNone ∧ g.chain.isNone ∧ !(c.hst.reads ++ c.hst.readWait).any (·.ring == r.val) ∧ !c.frameOn r then
    c.onRing r fun g => { g with state := .disabled }
  else c

/-- A request entry that could not be read stands in the queue without bytes (R336). -/
def Desc.unread (d : Desc) : Bool := d.bytes.isEmpty

/-- Entries in hand that could not be read complete FETCH_ERR, and those whose opcode the ring type does not
accept BAD_OPCODE, each in its turn (R331, R336). -/
def Chip.rejectOps (e : Env) (r : Fin 256) : Nat → Chip → Chip
  | 0, c => c
  | n + 1, c =>
    let g := c.ring r
    if g.runs && g.cur.isNone && g.chain.isNone then
      match g.fetched with
      | [] => c
      | d :: ds =>
        if acceptsOp (c.ringType r) d.op && !d.unread then c
        else
          let status := if d.unread then 0x55 else 0x40
          let c := c.onRing r fun g => { g with fetched := ds }
          let c := c.noteFailure r d.idx status
          Chip.rejectOps e r n (c.post e r ⟨d.idx, status, d.irq, true, none, none⟩)
    else c

/-- The engine looks at the next entry in hand. -/
def Chip.look (e : Env) (c : Chip) (r : Fin 256) : Chip :=
  (c.rejectOps e r ((c.ring r).fetched.length)).ringIdle r

/-- The host-memory reads that may be outstanding (R317, R333). -/
def readLimit : Nat := 256

/-- A host-memory read issued (R319). -/
def Chip.issueRead (c : Chip) (x : HostRead) : Chip :=
  let c := c.tally blkHST 0x12 x.ring 1
  { c with hst := { c.hst with
      reads := c.hst.reads ++ [{ x with id := c.hst.readId }], readId := c.hst.readId + 1 } }

/-- A host-memory read: issued, or kept until a completion returns while the most are outstanding (R333). -/
def Chip.hostRead (c : Chip) (r a n : Nat) (use : ReadUse) : Chip :=
  let x : HostRead := ⟨0, r, a, n, use⟩
  if c.hst.reads.length < readLimit then c.issueRead x
  else { c with hst := { c.hst with readWait := c.hst.readWait ++ [x] } }

/-- The end of a chain: its one completion, for the ring's CHAIN descriptor, with the steps executed, a failed
one included (R334; DEDUCED, log entry 22). -/
def Chip.chainEnd (e : Env) (c : Chip) (r : Fin 256) (d : Desc) (status steps : Nat) (info1 : Option Nat) : Chip :=
  let c := c.onRing r fun g => { g with cur := none, chain := none, chainHead := none }
  let c := if statusFails status then c.noteFailure r d.idx status else c
  (c.post e r ⟨d.idx, status, d.irq, true, steps, info1⟩).look e r

/-- An entry of a chain's block in hand. One that its ring does not accept, and a CHAIN that is not last in
its block, fail the chain with BAD_OPCODE (R334). -/
def Chip.chainPlace (e : Env) (c : Chip) (r : Fin 256) (d : Desc) (k : ChainRun) (bs : List Byte) : Chip :=
  let x : Desc := ⟨d.idx, bs⟩
  if acceptsOp (c.ringType r) x.op && (x.op != 0x01 || k.left == 1) then
    c.onRing r fun g => { g with cur := none, chainHead := some x }
  else c.chainEnd e r d 0x40 (k.steps + 1) k.addr

/-- The next entry of a chain's block is read, from host memory or from device DRAM. -/
def Chip.chainNext (e : Env) (c : Chip) (r : Fin 256) (d : Desc) (k : ChainRun) : Chip :=
  let c := c.onRing r fun g => { g with chain := some (d, k), chainHead := none, cur := none }
  if c.ringLoc r then
    match firstRefused (mayRead reqHST) k.addr 32 with
    | some x => (c.regionViol reqHST x false).chainEnd e r d 0x45 (k.steps + 1) k.addr
    | none =>
      let (c, x) := c.dramRead e reqHST k.addr 32
      if x.ok then c.chainPlace e r d k x.bytes else c.chainEnd e r d 0x44 (k.steps + 1) k.addr
  else
    (c.onRing r fun g => { g with cur := some ⟨d, .chainFetch⟩ }).hostRead r k.addr 32 .chainEntry

/-- The descriptor in progress ends with a status. Outside a chain it posts its completion; inside one the
chain goes on to its next entry, or completes after its last step or its first failed one (R334). -/
def Chip.finish (e : Env) (c : Chip) (r : Fin 256) (d : Desc) (status : Nat) (info0 info1 : Option Nat) : Chip :=
  let g := c.ring r
  match g.chain with
  | none =>
    let c := c.onRing r fun g => { g with cur := none }
    let c := if statusFails status then c.noteFailure r d.idx status else c
    (c.post e r ⟨d.idx, status, d.irq, true, info0, info1⟩).look e r
  | some (cd, k) =>
    if status = 0 ∧ 1 < k.left then
      c.chainNext e r cd { addr := k.addr + 32, left := k.left - 1, steps := k.steps + 1 }
    else c.chainEnd e r cd status (k.steps + 1) (if status = 0 then none else some k.addr)

/-- The descriptor begun stays in progress. -/
def Chip.await (c : Chip) (r : Fin 256) (d : Desc) (w : Work) : Chip :=
  c.onRing r fun g => { g with cur := some ⟨d, w⟩ }

/-! ### Turns (R332) -/

/-- A KLP_PASS to a head is in flight on some ring (R341). -/
def Chip.passInFlight (c : Chip) (h : Nat) : Bool :=
  c.hst.rings.toList.any fun g => match g.cur with
    | some ⟨_, .passFetch k _ _⟩ => k == h
    | some ⟨_, .passReply k _ _⟩ => k == h
    | _ => false

/-- A step of a ring's COPY is being read from host memory. -/
def Chip.copyReading (c : Chip) (r : Fin 256) : Bool :=
  (c.hst.reads ++ c.hst.readWait).any fun x => x.ring == r.val && (match x.use with | .copyStep _ => true | _ => false)

/-- Whether a ring has work for the engine: an entry in hand that waits for nothing, or a step of a COPY to take. -/
def Chip.hasWork (c : Chip) (r : Fin 256) : Bool :=
  let g := c.ring r
  match g.hand, g.cur with
  | some d, _ =>
    (g.runs || (g.state = .disabling && g.chain.isSome)) && !(d.op == 0x24 && c.passInFlight (leAt d.bytes 4 1))
  | none, some ⟨_, .copy _ _ _ _⟩ => !c.copyReading r
  | none, _ => false

/-- The ring whose turn it is: the next with work in round-robin order. -/
def Chip.nextRing (c : Chip) : Option (Fin 256) :=
  (List.range 256).findSome? fun i => (inst? 256 ((c.hst.turn + i) % 256)).filter fun r => c.hasWork r

/-- A ring takes its turn. -/
def Chip.takeTurn (c : Chip) (r : Fin 256) : Chip := { c with hst := { c.hst with turn := (r.val + 1) % 256 } }

/-- A descriptor row runs the entry in hand of its ring when it is that ring's turn and the entry carries the row's
opcode; otherwise nothing in hand is the row's to run. -/
def Chip.begin (c : Chip) (r : Fin 256) (op : Nat) (f : Desc → Chip → Chip) : Chip :=
  match (c.ring r).hand with
  | none => c
  | some d => if d.op == op && c.nextRing == some r then f d ((c.takeTurn r).onRing r Ring.take) else c

/-- Whether every byte of a descriptor outside the listed ranges is 0, with only IRQ in FLAGS (R336, R337). -/
def Desc.clean (d : Desc) (used : List (Nat × Nat)) : Bool :=
  (List.range 32).all fun i =>
    if i = 0 then true
    else if i = 1 then decide (leAt d.bytes 1 1 ≤ 1)
    else used.any (fun p => p.1 ≤ i && i ≤ p.2) || d.bytes.getD i 0 == 0

end Sys2Proof.Machine
end

