-- ==== Sys2Proof/Machine/Evr.lean ====
section
/-! DEFINITION. The event recorder: records (R401 to R405), intake and coalescing (R406 to R408), delivery
to EVENT rings (R409), the NOR log (R410 to R418), reading and clearing (R419, R420). -/

namespace Sys2Proof.Machine

/-- The event recorder replaced by its image. -/
def Chip.onEvr (c : Chip) (f : Evr → Evr) : Chip := { c with evr := f c.evr }

/-- The first 28 bytes of a record (R401). -/
def recordBody (r : Record) : List Byte :=
  leBytes 2 (r.ev.blk * 2 ^ 11 + r.ev.num) ++ leBytes 1 r.ev.inst ++
    leBytes 1 (r.ev.sev + 4 * b2n r.lg + 8 * b2n r.ev.glob) ++ leBytes 2 r.rep ++ leBytes 2 r.num ++
    leBytes 8 (tsFormat r.ev.t) ++ leBytes 4 r.ev.p0.toNat ++ leBytes 4 r.ev.p1.toNat ++ leBytes 4 r.ev.p2.toNat

/-- The 32 bytes of a record (R401). -/
def recordBytes (r : Record) : List Byte := recordBody r ++ leBytes 4 (crc32 (recordBody r))

/-! ### Delivery (R409) -/

/-- Whether a ring's filter entry accepts a record. -/
def Chip.accepts (c : Chip) (r : Nat) (x : Record) : Bool :=
  let f := Reg.EVR_FILT (c.ringBind r)
  c.fld f 1 0 ≤ x.ev.sev && bitOf (c.fld f 26 8) x.ev.blk

/-- Whether a ring is an enabled EVENT ring. -/
def Chip.isEventRing (c : Chip) (r : Fin 256) : Bool :=
  c.ringType r = 5 && (c.ring r).state = .enabled

/-- The RING_GAP record of a ring (R409). -/
def gapRecord (r skipped t num : Nat) : Record :=
  ⟨⟨blkEVR, 0x013, 0, false, sevERROR, t, BitVec.ofNat 32 r, BitVec.ofNat 32 skipped, 0⟩, 1, num, false⟩

/-- A record delivered to a ring: written, dropped under DROP, or not taken under BLOCK. -/
def Chip.deliver (e : Env) (c : Chip) (r : Fin 256) (x : Record) : Chip × Bool :=
  if c.hasRoom r then (c.writeRecord e r (recordBytes x), true)
  else if c.ringDrop r then (c.dropRecord r, true)
  else (c, false)

/-- A ring's cursor moved over the records held, each delivered if the filter accepts it. -/
def Chip.pumpRing (e : Env) (r : Fin 256) : List Record → Chip → Chip
  | [], c => c
  | x :: xs, c =>
    if x.num < (c.ring r).cursor then Chip.pumpRing e r xs c
    else if c.accepts r x then
      let (c, took) := c.deliver e r x
      if took then Chip.pumpRing e r xs (c.onRing r fun g => { g with cursor := x.num + 1 }) else c
    else Chip.pumpRing e r xs (c.onRing r fun g => { g with cursor := x.num + 1 })

/-- How many records of the RAM ring a cursor skips on its way to the oldest one held: the numbers between, less those of
last-gasp records and of records that were lost (R408, R416). -/
def Evr.skipped (v : Evr) (cur : Nat) : Nat :=
  v.oldest - cur - ((v.lgNums ++ v.lostNums).filter fun n => decide (cur ≤ n ∧ n < v.oldest)).length

/-- A cursor that the RAM ring has overtaken moves to the oldest record held, and the ring receives
RING_GAP first (R409). -/
def Chip.gapRing (e : Env) (c : Chip) (r : Fin 256) : Chip :=
  let cur := (c.ring r).cursor
  if cur < c.evr.oldest then
    let n := c.evr.skipped cur
    let (c, took) := if n = 0 then (c, true) else c.deliver e r (gapRecord r n c.now cur)
    if took then c.onRing r fun g => { g with cursor := c.evr.oldest } else c
  else c

/-- Delivery to one EVENT ring; none once the RAM has failed (R418). -/
def Chip.pump (e : Env) (c : Chip) (r : Fin 256) : Chip :=
  if c.isEventRing r && !c.evr.ramFailed then
    let c := c.gapRing e r
    if (c.ring r).cursor < c.evr.oldest then c else Chip.pumpRing e r c.evr.ram c
  else c

/-- Delivery to every EVENT ring. -/
def Chip.pumpAll (e : Env) (c : Chip) : Chip := (List.finRange 256).foldl (fun c r => c.pump e r) c

/-- A last-gasp record is delivered at once to every enabled EVENT ring whose filter accepts it (R409). -/
def Chip.deliverNow (e : Env) (c : Chip) (x : Record) : Chip :=
  (List.finRange 256).foldl (fun c r => if c.isEventRing r && c.accepts r x then (c.deliver e r x).1 else c) c

/-! ### The NOR log (R410 to R418) -/

/-- NOR offset of the event log (R372). -/
def logBase : Nat := 0x3800000

def Evr.isErased (v : Evr) (k : Nat) : Bool := v.erased.getLsbD (k % 128)

/-- Committed records not yet written, oldest first. -/
def Evr.pending (v : Evr) : List Record := v.ram.filter fun r => v.norNext ≤ r.num

/-- Slots of the present page that may be written now: those up to the page's end, but none of the last 64
slots of a sector until the next sector is erased (R410). -/
def Evr.roomInPage (v : Evr) : Nat :=
  if !v.isErased (v.pos / 2048) && v.pos % 2048 = 0 then 0
  else if 1984 ≤ v.pos % 2048 && !v.isErased (v.pos / 2048 + 1) then 0
  else 8 - v.pos % 8

/-- The records of the next page program: last-gasp entries first, then committed records, oldest first
(R411). -/
def Evr.nextPage (v : Evr) : List (Record × Bool) :=
  ((v.lg.map fun r => (r, true)) ++ (v.pending.map fun r => (r, false))).take v.roomInPage

/-- NOR_EN of EVR_CTRL. -/
def Chip.norEn (c : Chip) : Bool := c.bit Reg.EVR_CTRL 0

/-- The erase ahead of the write position (R410): begun when the position enters a sector, never during a
power-fail flush. -/
def Chip.eraseAhead (c : Chip) : Chip :=
  let v := c.evr
  let k := (v.pos / 2048 + 1) % 128
  if v.erase.isNone && !v.pfFlush && !v.norFailed && c.norEn && !v.clrNor && !v.isErased k then
    c.onEvr fun v => { v with erase := some (.ahead k) }
  else c

/-- The end of the power-fail flush: how many records were written and how many remain, with PF_TRUNC where any do (R414). -/
def Chip.pfEnd (c : Chip) : Chip :=
  let left := c.evr.lg.length + c.evr.pending.length
  let c := c.wrn Reg.EVR_PF_INFO (min c.evr.pfWritten 0xFFFF + 2 ^ 16 * min left 0xFFFF)
  (if left = 0 then c else c.sticky Reg.EVR_STATUS 0x2000).onEvr fun v => { v with flushing := false }

/-- The power-fail flush ends 4 ms after the edge, where it has not completed (R414). -/
def Chip.pfCut (c : Chip) : Chip :=
  if c.evr.pfFlush && c.evr.flushing && decide (c.evr.pfAt + 4 * edgesPerMs ≤ c.ttu.up) then c.pfEnd else c

/-- The end of a flush: CLR_RAM takes effect, and the cursors behind it move (R420); a power-fail flush records its
result (R414). -/
def Chip.flushDone (e : Env) (c : Chip) : Chip :=
  let c := if c.evr.pfFlush then c.pfEnd else c
  let clr := c.evr.clrRam
  let c := c.onEvr fun v => { v with
    flushing := false
    clrRam := false
    ram := if v.clrRam then [] else v.ram
    oldest := if v.clrRam then v.next else v.oldest
    norNext := if v.clrRam then v.next else v.norNext }
  if clr then c.pumpAll e else c

/-- The next step of a flush in progress: a page program begins, or the flush is complete (R411). -/
def Chip.flushStep (e : Env) (c : Chip) : Chip :=
  let v := c.evr
  if v.flushing && !v.ramFailed then
    if v.lg.isEmpty && v.pending.isEmpty then (if v.prog.isNone then c.flushDone e else c)
    else if v.prog.isSome || !c.norEn || v.norFailed && !v.recovering || (v.recovering && v.erase.isSome)
      || (v.clrNor && !v.isErased 0) || v.nextPage.isEmpty then c
    else c.onEvr fun v => { v with prog := some v.nextPage }
  else c

/-- A flush begins (R411), unless the RAM has failed (R418); the power-fail flush is the last. -/
def Chip.flushBegin (e : Env) (c : Chip) : Chip :=
  if (c.norEn || c.evr.clrRam) && !c.evr.ramFailed && !c.evr.pfFlush then
    (c.onEvr fun v => { v with flushing := true }).flushStep e
  else c

/-! ### Commits (R407, R408, R413) -/

/-- A record is placed in the RAM ring; the oldest of 4,096 leaves it, and one that leaves unwritten is counted (R408). -/
def Chip.ramPlace (c : Chip) (x : Record) : Chip :=
  let v := c.evr
  if v.ram.length < 4096 then
    c.onEvr fun v => { v with ram := v.ram ++ [x], next := v.next + 1, oldest := if v.ram.isEmpty then x.num else v.oldest }
  else
    let gone := (v.ram.head?.map (·.num)).getD 0
    let c := if v.norNext ≤ gone then (c.bump Reg.EVR_NOR_SKIP_CNT).sticky Reg.EVR_STATUS 0x1000 else c
    c.onEvr fun v =>
      let ram := v.ram.tail ++ [x]
      { v with
        ram := ram
        next := v.next + 1
        oldest := (ram.head?.map (·.num)).getD v.oldest
        norNext := max v.norNext (gone + 1) }

/-- A record enters the RAM ring, is delivered, and may begin a flush (R408, R409, R411). -/
def Chip.toRam (e : Env) (c : Chip) (ev : Event) (rep : Nat) : Chip :=
  let c := (c.ramPlace ⟨ev, rep, c.evr.next, false⟩).pumpAll e
  if sevERROR ≤ ev.sev || 8 ≤ c.evr.pending.length then c.flushBegin e else c

/-- A CRITICAL record enters the last-gasp file, or the RAM ring when the file is full (R413). A LOG_UE
record that finds it full is lost (R415). -/
def Chip.toLastGasp (e : Env) (c : Chip) (ev : Event) : Chip :=
  if c.evr.lg.length < 16 then
    let x : Record := ⟨ev, 1, c.evr.next, true⟩
    let c := c.onEvr fun v => { v with lg := v.lg ++ [x], next := v.next + 1, lgNums := v.lgNums ++ [v.next] }
    (c.deliverNow e x).flushBegin e
  else if ev.num = 0x010 ∧ ev.blk = blkEVR then (c.bump Reg.EVR_LOST_CNT).sticky Reg.EVR_STATUS 0x400
  else (c.sticky Reg.EVR_STATUS 0x800).toRam e ev 1

/-- An open record committed (R407). -/
def Chip.commitOpen (e : Env) (c : Chip) (o : OpenRec) : Chip := c.toRam e o.ev o.rep

/-- Every open record whose window has ended is committed, oldest first. -/
def Chip.commitEnded (e : Env) (c : Chip) (now : Nat) : Chip :=
  let done := c.evr.opens.filter (·.till ≤ now)
  let c := c.onEvr fun v => { v with opens := v.opens.filter fun o => now < o.till }
  done.foldl (fun c o => c.commitOpen e o) c

/-- Every open record is committed: a flush or a power-fail flush begins (R407). -/
def Chip.commitOpens (e : Env) (c : Chip) : Chip :=
  let all := c.evr.opens
  all.foldl (fun c o => c.commitOpen e o) (c.onEvr fun v => { v with opens := [] })

/-- Whether an event merges into an open record: the key fields match (R407). -/
def sameKey (a b : Event) : Bool :=
  a.blk == b.blk && a.num == b.num && a.p1 == b.p1 &&
    ((a.blk == blkTTU && a.num == 0x002) || (a.inst == b.inst && a.p0 == b.p0))

/-- The open record with the oldest time (R407). -/
def oldestOpen : List OpenRec → Option OpenRec
  | [] => none
  | o :: os =>
    match oldestOpen os with
    | none => some o
    | some p => if p.ev.t < o.ev.t then some p else some o

/-- An event leaves the intake: it merges into an open record, opens one, or is CRITICAL (R407, R413). -/
def Chip.coalesce (e : Env) (c : Chip) (ev : Event) : Chip :=
  if ev.sev = sevCRITICAL then c.toLastGasp e ev
  else
    let c := c.commitEnded e ev.t
    let win := c.fld Reg.EVR_COAL_CFG 15 0 * 1000
    if win = 0 then c.toRam e ev 1
    else
      match c.evr.opens.find? fun o => sameKey o.ev ev with
      | some o =>
        let c := c.bump Reg.EVR_COAL_CNT
        if o.rep + 1 = 65535 then
          (c.onEvr fun v => { v with opens := v.opens.erase o }).toRam e o.ev 65535
        else c.onEvr fun v => { v with opens := v.opens.map fun p => if p = o then { p with rep := p.rep + 1 } else p }
      | none =>
        let c :=
          if 32 ≤ c.evr.opens.length then
            match oldestOpen c.evr.opens with
            | some o => (c.onEvr fun v => { v with opens := v.opens.erase o }).commitOpen e o
            | none => c
          else c
        c.onEvr fun v => { v with opens := v.opens ++ [⟨ev, 1, ev.t + win⟩] }

/-- The INTAKE_LOST record of the events lost (R406). -/
def Chip.reportLost (e : Env) (c : Chip) : Chip :=
  if c.evr.lostPend = 0 then c
  else
    let n := c.evr.lostPend
    (c.onEvr fun v => { v with lostPend := 0 }).coalesce e
      ⟨blkEVR, 0x012, 0, false, sevERROR, c.now, 0, BitVec.ofNat 32 n, 0⟩

/-- A flush that has begun commits every open record (R407). `was`: one was in progress before. -/
def Chip.flushOpened (e : Env) (was : Bool) (c : Chip) : Chip := if !was && c.evr.flushing then c.commitOpens e else c

/-- The intake passes its events to coalescing, in queue order (R406). -/
def Chip.drain (e : Env) : Nat → Chip → Chip
  | 0, c => c
  | n + 1, c =>
    match c.evr.intake with
    | [] => c.reportLost e
    | ev :: evs =>
      let was := c.evr.flushing
      Chip.drain e n (((c.onEvr fun v => { v with intake := evs }).coalesce e ev).flushOpened e was)

/-- Whether an event enters the intake before another of the same instant: by source block, then by instance (R406). -/
def Event.before (a b : Event) : Bool := a.t == b.t && (decide (a.blk < b.blk) || (a.blk == b.blk && decide (a.inst < b.inst)))

/-- An event takes its place in the queue. -/
def arrive (x : Event) : List Event → List Event
  | [] => [x]
  | y :: ys => if x.before y then x :: y :: ys else y :: arrive x ys

/-- The events that a command raised, as they enter the intake (R406). -/
def Chip.queueEvents (c : Chip) : Chip := c.onEvr fun v => { v with intake := v.intake.foldl (fun q x => arrive x q) [] }

/-- A command's effect with the events it raised passed on: the intake moves one event per clock cycle, so
that it is empty again before the next command (DESIGN CHOICE, log entry 6). -/
def State.act (s : State) (f : Env → Chip → Chip) : State :=
  s.effect fun e c => Chip.drain e 512 (f e c).queueEvents

end Sys2Proof.Machine
end

