-- ==== Sys2Proof/Machine/Field.lean ====
section
/-! DEFINITION. Field correction: lattice banks (R129, R130), the image's fields (R131 to R133), the mapping
of a machine point to galvo and focus commands (R134, R135), the lattice-valid area and its exact check
(R137, R138), bank selection (R142) and uncorrectable lattice words (R143). -/

namespace Sys2Proof.Machine

/-- Head h replaced by its image. -/
def Chip.onHead (c : Chip) (h : Fin 64) (f : Head → Head) : Chip := { c with hd := upd c.hd h f }

/-- Whether the variant enables a head (R2). -/
def Chip.headOn (c : Chip) (h : Nat) : Bool := decide (h < c.heads)

/-- The enabled heads in ascending order. -/
def Chip.headList (c : Chip) : List (Fin 64) := (List.finRange 64).filter fun h => c.headOn h

/-! ### The image (R131 to R133) -/

/-- Bytes of a lattice image as a bank holds it, and the span of its checksum. -/
def imageLen : Nat := 68704
def imageCrcEnd : Nat := 68676

namespace Bank

def pitch (b : Bank) : Nat := leAt b.image 6 1
def xyShift (b : Bank) : Nat := bitsOf (leAt b.image 7 1) 3 0
def zShift (b : Bank) : Nat := bitsOf (leAt b.image 7 1) 7 4
def lx0 (b : Bank) : Int := leSAt b.image 8 4
def ly0 (b : Bank) : Int := leSAt b.image 12 4
def m00 (b : Bank) : Int := leSAt b.image 16 4
def m01 (b : Bank) : Int := leSAt b.image 20 4
def m10 (b : Bank) : Int := leSAt b.image 24 4
def m11 (b : Bank) : Int := leSAt b.image 28 4
def mz (b : Bank) : Int := leSAt b.image 32 4
def goffX (b : Bank) : Int := leSAt b.image 36 4
def goffY (b : Bank) : Int := leSAt b.image 40 4
def zoff (b : Bank) : Int := leSAt b.image 44 4
def latticeId (b : Bank) : Nat := leAt b.image 48 4

/-- Cell (i, j) is valid (R132). -/
def cellValid (b : Bank) (i j : Nat) : Bool := bitOf (leAt b.image (64 + 16 * j + i / 8) 1) (i % 8)

/-- The three deltas of node (i, j) (R133). -/
def node (b : Bank) (i j : Nat) : Int × Int × Int :=
  let w := leAt b.image (2112 + 4 * (129 * j + i)) 4
  (signOf 12 (bitsOf w 11 0), signOf 12 (bitsOf w 23 12), signOf 8 (bitsOf w 31 24))

def isReady (b : Bank) : Bool := b.state = .ready

end Bank

/-- The checks of R141 on the copy held in the bank: the first failing code, 0 if none fails. -/
def imageCode (im : List Byte) : Nat :=
  let b : Bank := ⟨.loading, im⟩
  let inR (lo hi x : Int) : Bool := lo ≤ x && x ≤ hi
  if leAt im 0 4 ≠ 0x544C584D ∨ leAt im 4 2 ≠ 0x0100 then 0x05
  else if leAt im 52 8 ≠ 0 ∨ b.pitch < 8 ∨ 20 < b.pitch ∨ 10 < b.xyShift ∨ 10 < b.zShift ∨
      !inR (-(2 ^ 23)) (2 ^ 23 - 1) b.goffX ∨ !inR (-(2 ^ 23)) (2 ^ 23 - 1) b.goffY ∨
      !inR (-(2 ^ 19)) (2 ^ 19 - 1) b.zoff then 0x06
  else if leAt im 60 4 ≠ crc32 (im.take 60 ++ (im.drop 64).take (imageCrcEnd - 64)) then 0x07
  else 0x00

/-! ### The mapping (R134, R135) -/

/-- The six drift terms in force (R136). -/
structure Drift where
  ox : Int
  oy : Int
  a : Int
  b : Int
  c : Int
  d : Int

def Chip.drift (c : Chip) (h : Nat) : Drift where
  ox := c.actInt (Reg.SCN_DRIFT_OFF_X h)
  oy := c.actInt (Reg.SCN_DRIFT_OFF_Y h)
  a := c.actInt (Reg.SCN_DRIFT_A h)
  b := c.actInt (Reg.SCN_DRIFT_B h)
  c := c.actInt (Reg.SCN_DRIFT_C h)
  d := c.actInt (Reg.SCN_DRIFT_D h)

/-- Interpolation of one delta over the four nodes of a cell, rounded as R134 lays down. -/
def interp (fx fy w : Int) (n00 n10 n01 n11 : Int) (sh : Nat) : Int :=
  rndShift ((w - fx) * (w - fy) * n00 + fx * (w - fy) * n10 + (w - fx) * fy * n01 + fx * fy * n11) sh

/-- Steps 1 to 3 of R128: galvo X, galvo Y and focus before their clamps, in 1/16 LSB. -/
def Bank.correct (b : Bank) (d : Drift) (p : Pt) : Pt :=
  let f := b.pitch + 4
  let w : Int := (2 ^ f : Nat)
  let ux := clampInt 0 (128 * w) (p.x - 16 * b.lx0)
  let uy := clampInt 0 (128 * w) (p.y - 16 * b.ly0)
  let i := min (ux / w).toNat 127
  let j := min (uy / w).toNat 127
  let fx := ux - w * i
  let fy := uy - w * j
  let n00 := b.node i j
  let n10 := b.node (i + 1) j
  let n01 := b.node i (j + 1)
  let n11 := b.node (i + 1) (j + 1)
  let sxy := 2 * f - b.xyShift - 4
  let dx := interp fx fy w n00.1 n10.1 n01.1 n11.1 sxy
  let dy := interp fx fy w n00.2.1 n10.2.1 n01.2.1 n11.2.1 sxy
  let dz := interp fx fy w n00.2.2 n10.2.2 n01.2.2 n11.2.2 (2 * f - b.zShift - 4)
  let cx := 16 * (b.lx0 + 64 * (2 ^ b.pitch : Nat))
  let cy := 16 * (b.ly0 + 64 * (2 ^ b.pitch : Nat))
  let gx := 16 * b.goffX + rndShift (b.m00 * (p.x - cx) + b.m01 * (p.y - cy)) 24 + dx
  let gy := 16 * b.goffY + rndShift (b.m10 * (p.x - cx) + b.m11 * (p.y - cy)) 24 + dy
  let zf := 16 * b.zoff + rndShift (b.mz * p.z) 24 + dz
  ⟨gx + d.ox + rndShift (d.a * gx + d.b * gy) 32, gy + d.oy + rndShift (d.c * gx + d.d * gy) 32, zf⟩

/-- Step 4 of R128: saturation to the command ranges in 1/16 LSB. -/
def clampCmd (p : Pt) : Pt :=
  ⟨clampInt (-(2 ^ 27)) (2 ^ 27 - 1) p.x, clampInt (-(2 ^ 27)) (2 ^ 27 - 1) p.y,
    clampInt (-(2 ^ 23)) (2 ^ 23 - 1) p.z⟩

/-- The head's active bank. -/
def Head.bank (h : Head) : Bank := h.banks[h.active]

/-- One sample mapped: its command, and whether a clamp changed it (R135). -/
def Chip.mapPoint (c : Chip) (h : Fin 64) (p : Pt) : Pt × Bool :=
  let r := (c.hd[h].bank).correct (c.drift h) p
  (clampCmd r, decide (clampCmd r ≠ r))

/-- `n` clamped samples: for each, FIELD_SAT, its count and an event (R135). -/
def Chip.fieldSat (c : Chip) (h : Fin 64) (n : Nat) : Chip :=
  n.repeat (fun c => (c.bump (Reg.SCN_FIELD_SAT_CNT h)).flag (Reg.SCN_FIELD_FLAGS h) (.head h) 0x2 0) c

/-! ### The lattice-valid area (R137, R138) -/

/-- Side of a cell in machine LSB. -/
def Bank.side (b : Bank) : Int := (2 ^ b.pitch : Nat)

/-- The cell index of a lattice coordinate, −1 below the lattice and 128 beyond it. -/
def cellOf (side u : Int) : Int := clampInt (-1) 128 (u.fdiv side)

/-- Whether the extended cell (i, j) lies in the lattice and is valid. -/
def Bank.cellOk (b : Bank) (i j : Int) : Bool :=
  0 ≤ i && i < 128 && 0 ≤ j && j < 128 && b.cellValid i.toNat j.toNat

/-- The active bank serves the head in tick t: it is READY, or scrub has found it bad in this very tick, whose stages work on the
committed state and which the response of R143 follows (R47). -/
def Head.mapReady (h : Head) (t : Nat) : Bool := h.bank.isReady || h.latDue.any fun x => decide (t < x.1)

/-- Whether an XY point lies in the lattice-valid area of a head in tick t (R137). -/
def Head.inArea (h : Head) (t : Nat) (x y : Int) : Bool :=
  let b := h.bank
  h.mapReady t && b.cellOk (cellOf b.side (x - b.lx0)) (cellOf b.side (y - b.ly0))

/-- A bound on the parameter of a segment: num / den with den > 0, strict or not. -/
structure Bound where
  num : Int
  den : Int
  strict : Bool
  deriving DecidableEq, Repr

/-- Lower and upper bounds on t for which `u0 + t * du` lies in the half-open cell `[lo, hi)`, where a
missing bound is unlimited; `none` where no t satisfies it. -/
def axisBounds (u0 du : Int) (lo hi : Option Int) : Option (List Bound × List Bound) :=
  if du = 0 then
    if (lo.all (· ≤ u0)) && (hi.all (u0 < ·)) then some ([], []) else none
  else if 0 < du then
    some (lo.toList.map fun l => ⟨l - u0, du, false⟩, hi.toList.map fun h => ⟨h - u0, du, true⟩)
  else
    some (hi.toList.map fun h => ⟨u0 - h, -du, true⟩, lo.toList.map fun l => ⟨u0 - l, -du, false⟩)

/-- Whether a lower bound leaves room below an upper bound. -/
def Bound.fits (l u : Bound) : Bool :=
  l.num * u.den < u.num * l.den || (l.num * u.den == u.num * l.den && !l.strict && !u.strict)

/-- The later of two lower bounds. -/
def Bound.later (a b : Bound) : Bound :=
  if a.num * b.den < b.num * a.den then b
  else if b.num * a.den < a.num * b.den then a
  else if a.strict then a else b

/-- Whether a lower bound is met before another. -/
def Bound.before (a b : Bound) : Bool :=
  a.num * b.den < b.num * a.den || (a.num * b.den == b.num * a.den && !a.strict && b.strict)

/-- The limits of an extended cell along one axis. -/
def cellLimits (side i : Int) : Option Int × Option Int :=
  (if i < 0 then none else some (side * i), if 128 ≤ i then none else some (side * (i + 1)))

/-- Where the segment from (u0, v0) by (du, dv) enters the extended cell (i, j), if it touches it. -/
def entersCell (side u0 v0 du dv i j : Int) : Option Bound :=
  let (li, hi) := cellLimits side i
  let (lj, hj) := cellLimits side j
  match axisBounds u0 du li hi, axisBounds v0 dv lj hj with
  | some (l1, h1), some (l2, h2) =>
    let ls := ⟨0, 1, false⟩ :: (l1 ++ l2)
    let hs := ⟨1, 1, false⟩ :: (h1 ++ h2)
    if ls.all fun l => hs.all fun h => l.fits h then
      some (ls.foldl Bound.later ⟨0, 1, false⟩)
    else none
  | _, _ => none

/-- Whole numbers from the lower to the higher of two. -/
def between (a b : Int) : List Int :=
  (List.range ((max a b - min a b).toNat + 1)).map fun (k : Nat) => min a b + (k : Int)

/-- The first cell along the straight segment that is not valid, exactly over the cells it crosses (R138). -/
def Bank.firstBad (k : Bank) (a b : Pt) : Option (Int × Int) :=
  let s := k.side
  let u0 := a.x - k.lx0
  let v0 := a.y - k.ly0
  let u1 := b.x - k.lx0
  let v1 := b.y - k.ly0
  let cells := (between (cellOf s u0) (cellOf s u1)).flatMap fun i =>
    (between (cellOf s v0) (cellOf s v1)).map fun j => (i, j)
  let bad := (cells.filter fun x => !k.cellOk x.1 x.2).filterMap fun x =>
    (entersCell s u0 v0 (u1 - u0) (v1 - v0) x.1 x.2).map fun t => (t, x)
  (bad.foldl (fun (m : Option (Bound × (Int × Int))) y =>
    match m with
    | none => some y
    | some z => if y.1.before z.1 then some y else some z) none).map (·.2)

/-- SCN_FIELD_OOB_POS of a segment that fails the check of R138; `none` where it passes. -/
def Head.segmentOob (h : Head) (t : Nat) (a b : Pt) : Option Nat :=
  if !h.mapReady t then some (2 ^ 15 + 2 ^ 16)
  else
    match h.bank.firstBad a b with
    | none => none
    | some (i, j) =>
      let ci := (clampInt 0 127 i).toNat
      let cj := (clampInt 0 127 j).toNat
      some (ci + 2 ^ 8 * cj + 2 ^ 15 * b2n (i ≠ ci || j ≠ cj))

/-! ### Selection and failures (R142, R143) -/

/-- A bank of a head replaced by its image. -/
def Head.onBank (h : Head) (b : Fin 2) (f : Bank → Bank) : Head := { h with banks := upd h.banks b f }

/-- The selection that an SCN commit makes for one head (R142). -/
def Chip.selectBank (c : Chip) (h : Fin 64) : Chip :=
  let b : Fin 2 := if c.actFld (Reg.SCN_LAT_SEL h) 0 0 = 1 then 1 else 0
  if b = c.hd[h].active then c
  else if (c.hd[h].banks[b]).isReady then c.onHead h fun x => { x with active := b, latDue := none }
  else c.flag (Reg.SCN_FIELD_FLAGS h) (.head h) 0x4 0

/-- An uncorrectable Crucible word recorded, counted and reported (R313). -/
def Chip.crbNote (c : Chip) (info : Nat) : Chip :=
  ((c.bump Reg.CRB_UE_CNT).wrn Reg.CRB_ERR_ADDR info).flag Reg.CRB_FLAGS .none 0x2 0

/-- CRB_ERR_ADDR of the word that holds a node of a lattice bank (R129, R133, R312). -/
def nodeWord (h : Fin 64) (b : Fin 2) (node : Nat) : Nat :=
  2 ^ 26 + (0xC00000 + 68704 * (2 * h.val + b.val) + 2112 + 4 * node) / 8 * 8

/-- A bank with an uncorrectable word becomes FAILED (R143). -/
def Chip.bankFailed (c : Chip) (h : Fin 64) (b : Fin 2) (node : Nat) : Chip :=
  (c.onHead h fun x => x.onBank b fun k => { k with state := .failed }).flag
    (Reg.SCN_FIELD_FLAGS h) (.head h) 0x8 (node % 2 ^ 16 + 2 ^ 16 * b.val)

end Sys2Proof.Machine
end

