-- ==== Sys2Proof/Machine/Path.lean ====
section
/-! DEFINITION. A Billet's path: its records (R75 to R79), the removal of null segments and the joints
(R101), skywriting (R112, R113), exposure runs (R102), and the geometry of segments, joints and blends
(R103, R106, R108, R121). -/

namespace Sys2Proof.Machine

/-! ### Records (R75 to R79) -/

/-- A segment as a record gives it: its end point and fields. -/
structure RawSeg where
  kind : SegKind
  dest : Pt
  prof : Nat
  speed : Nat
  vid : Nat
  dur : Nat
  blend : Bool
  sky : Bool
  deriving DecidableEq, Repr

/-- Whether bytes lo to hi of a record are 0 (R66). -/
def zeroAt (r : List Byte) (lo hi : Nat) : Bool := (bytesAt r lo (hi + 1 - lo)).all (· == 0)

/-- Where the reading of a Billet's records stands. -/
structure RecPos where
  first : Bool
  afterDwell : Bool
  at_ : Pt
  /-- The governing MARK and its DELTA_SHIFT (R77). -/
  gov : Option (RawSeg × Nat)

def inS32 (x : Int) : Bool := -(2 ^ 31) ≤ x && x < 2 ^ 31

/-- The vertices of a POLY record (R78); `none` where one leaves the s32 range. -/
def polyPoints (sh : Nat) : List (Int × Int) → Int → Int → Option (List (Int × Int))
  | [], _, _ => some []
  | (dx, dy) :: ds, x, y =>
    let nx := x + dx * (2 ^ sh : Nat)
    let ny := y + dy * (2 ^ sh : Nat)
    if inS32 nx && inS32 ny then (polyPoints sh ds nx ny).map ((nx, ny) :: ·) else none

/-- A Q of one record: its segments and the position after it; `none` where R79 calls it invalid. A field that R76 or R77
says must be 0 (PROFILE and DELTA_SHIFT of a JUMP, BLEND and SKY of a DWELL) and is not makes the record invalid too, which
R79 does not list (DESIGN CHOICE, log entry 87). -/
def readRecord (profiles : Nat) (p : RecPos) (r : List Byte) : Option (List RawSeg × RecPos) :=
  let b0 := leAt r 0 1
  let ty := bitsOf b0 3 0
  let blend := bitOf b0 4
  let sky := bitOf b0 5
  let prof := leAt r 1 1
  if bitsOf b0 7 6 ≠ 0 ∨ (blend ∧ (p.first ∨ p.afterDwell)) then none
  else if ty = 1 ∨ ty = 2 then
    let dest : Pt := ⟨leSAt r 4 4, leSAt r 8 4, leSAt r 12 2⟩
    let sh := leAt r 2 1
    let speed := leAt r 16 4
    let raw : RawSeg := ⟨if ty = 1 then .jump else .mark, dest, prof, speed, leAt r 20 4, 0, blend, sky⟩
    if zeroAt r 3 3 && zeroAt r 14 15 && zeroAt r 24 31 &&
        (if ty = 1 then prof == 0 && sh == 0 else decide (prof < profiles) && decide (sh < 8) && speed != 0) then
      some ([raw], ⟨false, false, dest, if ty = 1 then none else some (raw, sh)⟩)
    else none
  else if ty = 3 then
    let dur := leAt r 16 4
    if zeroAt r 2 15 && zeroAt r 24 31 && !blend && !sky && dur != 0 && decide (prof < profiles) then
      some ([⟨.dwell, p.at_, prof, 0, leAt r 20 4, (max 1 (rndDiv (4 * dur) 5)).toNat, false, false⟩],
        ⟨false, true, p.at_, none⟩)
    else none
  else if ty = 4 then
    match p.gov with
    | none => none
    | some (g, sh) =>
      let n := leAt r 1 1
      if n < 1 ∨ 7 < n ∨ !zeroAt r 2 3 ∨ (n < 7 ∧ !zeroAt r (4 + 4 * n) 31) then none
      else
        let ds := (List.range n).map fun i => (leSAt r (4 + 4 * i) 2, leSAt r (6 + 4 * i) 2)
        match polyPoints sh ds p.at_.x p.at_.y with
        | none => none
        | some ps =>
          let segs := ps.map fun q => { g with kind := .poly, dest := ⟨q.1, q.2, g.dest.z⟩, blend := blend, sky := sky }
          some (segs, ⟨false, false, (segs.getLast?.map (·.dest)).getD p.at_, some (g, sh)⟩)
  else none

/-- The segments of the records up to the first invalid one, and whether every record is valid. -/
def readRecords (profiles : Nat) (p : RecPos) : List (List Byte) → List RawSeg × Bool
  | [] => ([], true)
  | r :: rs =>
    match readRecord profiles p r with
    | none => ([], false)
    | some (segs, p') =>
      let (rest, ok) := readRecords profiles p' rs
      (segs ++ rest, ok)

/-- The 32-byte records of a Billet. -/
def recordsOf (bs : List Byte) : List (List Byte) := (List.range (bs.length / 32)).map fun i => bytesAt bs (32 * i) 32

/-- The records of a Billet read from its START (R73, R79). -/
def billetSegs (b : Billet) (profiles : Nat) (bs : List Byte) : List RawSeg × Bool :=
  readRecords profiles ⟨true, false, b.start, none⟩ (recordsOf bs)

/-! ### Geometry -/

def SegKind.marked : SegKind → Bool
  | .mark => true
  | .poly => true
  | _ => false

/-- The laser is meant to be on in the segment (R102). -/
def SegKind.lit : SegKind → Bool
  | .mark => true
  | .poly => true
  | .dwell => true
  | _ => false

/-- The XY length in Q32.32: the floor of the exact Euclidean length (R108). -/
def lenXY (a b : Pt) : Nat :=
  isqrt (((b.x - a.x) * (b.x - a.x) + (b.y - a.y) * (b.y - a.y)).toNat * 2 ^ 64)

def Seg.lxy (s : Seg) : Nat := lenXY s.a s.b

/-- The planned length in Q32.32: XY length, or |ΔZ| of a segment without XY length (R103); 0 for a dwell. -/
def Seg.len (s : Seg) : Nat :=
  if s.kind = .dwell then 0 else if s.lxy ≠ 0 then s.lxy else (s.b.z - s.a.z).natAbs * 2 ^ 32

/-- `k × d / sqrt(q)` rounded once to nearest with ties away from zero. -/
def scaleRound (k : Nat) (d : Int) (q : Nat) : Int :=
  let m := k * d.natAbs
  let f := isqrt (m * m / q)
  let r := if (2 * f + 1) * (2 * f + 1) * q ≤ 4 * m * m then f + 1 else f
  if d < 0 then -(r : Int) else r

/-- The offset of SKY_LEN × 8 LSB along the XY direction from a to b (R112). -/
def skyOffset (sky : Nat) (a b : Pt) : Int × Int :=
  let dx := b.x - a.x
  let dy := b.y - a.y
  let q := (dx * dx + dy * dy).toNat
  (scaleRound (8 * sky) dx q, scaleRound (8 * sky) dy q)

/-! ### Joints and skywriting (R101, R112, R113) -/

/-- A segment with its record's SKY flag; `joined` holds BLEND until the joints are judged. -/
structure Leg where
  seg : Seg
  sky : Bool

/-- Null segments removed (R101): every MARK, POLY or JUMP whose end equals its start. -/
def placeLegs : Pt → List RawSeg → List Leg
  | _, [] => []
  | a, r :: rs =>
    if r.kind ≠ .dwell ∧ r.dest = a then placeLegs a rs
    else ⟨⟨r.kind, a, r.dest, r.prof, r.speed, r.vid, r.dur, r.blend, 0⟩, r.sky⟩ :: placeLegs r.dest rs

def skyOf (ps : List Profile) (i : Nat) : Nat := (ps[i]?.map (·.sky)).getD 0

/-- Run-ins at JUMPs that are followed directly by a MARK (R112). -/
def addRunIns (ps : List Profile) : List Leg → List Leg
  | l :: m :: rest =>
    let n := skyOf ps m.seg.prof
    if l.seg.kind = .jump ∧ l.sky ∧ m.seg.kind = .mark ∧ m.seg.lxy ≠ 0 ∧ n ≠ 0 then
      let o := skyOffset n m.seg.a m.seg.b
      let q : Pt := ⟨m.seg.a.x - o.1, m.seg.a.y - o.2, m.seg.a.z⟩
      { l with seg := { l.seg with b := q } } :: ⟨{ m.seg with kind := .runIn, a := q, b := m.seg.a, joined := false }, false⟩ ::
        addRunIns ps (m :: rest)
    else l :: addRunIns ps (m :: rest)
  | ls => ls

/-- Whether the joint between two consecutive segments belongs to one motion run: a blended joint (R101),
or the joint of a mark with its run-in (R112). -/
def joins (p : Seg) (s : Seg) : Bool :=
  p.kind = .runIn ||
    (s.joined && ((p.kind.marked && s.kind.marked) || (p.kind = .jump && s.kind = .jump)) && p.lxy != 0 && s.lxy != 0)

/-- The joints of a path judged, from the segment before it. -/
def judgeJoints : Option Seg → List Leg → List Leg
  | _, [] => []
  | p, l :: ls =>
    let j := match p with
      | none => false
      | some q => joins q l.seg
    { l with seg := { l.seg with joined := j } } :: judgeJoints (some l.seg) ls

/-- Run-outs (R112) and skywritten corners (R113). `force`: the first segment continues its run-in. -/
def addRunOuts (ps : List Profile) (force : Bool) : List Leg → List Seg
  | [] => []
  | l :: rest =>
    let s := { l.seg with joined := force || l.seg.joined }
    let n := skyOf ps s.prof
    let stop := match rest.head? with
      | none => true
      | some m => !m.seg.joined
    if s.kind.marked && l.sky && s.lxy != 0 && stop && n != 0 then
      let o := skyOffset n s.a s.b
      let q : Pt := ⟨s.b.x + o.1, s.b.y + o.2, s.b.z⟩
      let out : Seg := { s with kind := .runOut, a := s.b, b := q, joined := true }
      match rest.head? with
      | none => [s, out]
      | some m =>
        if m.seg.kind.lit then
          let k := skyOf ps m.seg.prof
          let into := m.seg.kind.marked && m.seg.lxy != 0 && k != 0
          let v := skyOffset k m.seg.a m.seg.b
          let r : Pt := if into then ⟨s.b.x - v.1, s.b.y - v.2, s.b.z⟩ else s.b
          let back : Seg := ⟨.implicit, q, r, 0, 0, s.vid, 0, false, 0⟩
          let runIn : Seg := { m.seg with kind := .runIn, a := r, b := s.b, joined := false }
          s :: out :: ((if q = r then [] else [back]) ++ (if into then [runIn] else []) ++
            addRunOuts ps into rest)
        else s :: out :: addRunOuts ps false rest
    else s :: addRunOuts ps false rest

/-- Each JUMP starts where the head rests, which after a run-out is the run-out's end (R112); where the moved target of a
JUMP with a run-in is that point, the JUMP is removed. Two JUMPs stay joined where both still have XY length (R101). -/
def placeJumps : Pt → Bool → List Seg → List Seg
  | _, _, [] => []
  | at_, long, s :: ss =>
    if s.kind = .jump then
      let s := { s with a := at_ }
      if s.b = at_ ∧ (ss.head?.any fun m => m.kind = .runIn) then placeJumps at_ false ss
      else { s with joined := s.joined && long && s.lxy != 0 } :: placeJumps s.b (s.lxy != 0) ss
    else s :: placeJumps s.b false ss

/-- Exposure runs numbered from 1 (R102): one opens at a lit segment or a run-in, and ends before a jump
and after a run-out. `n` runs have been opened; `isOpen`: the last one still is. -/
def numberExpos : Nat → Bool → List Seg → List Seg
  | _, _, [] => []
  | n, isOpen, s :: ss =>
    match s.kind with
    | .jump => s :: numberExpos n false ss
    | .implicit => s :: numberExpos n false ss
    | .runIn => { s with expo := n + 1 } :: numberExpos (n + 1) true ss
    | .runOut => { s with expo := n } :: numberExpos n false ss
    | _ => if isOpen then { s with expo := n } :: numberExpos n true ss
           else { s with expo := n + 1 } :: numberExpos (n + 1) true ss

/-- The path of a Billet from its START, without the jump to it. -/
def pathOf (ps : List Profile) (start : Pt) (raw : List RawSeg) : List Seg :=
  numberExpos 0 false (placeJumps start false (addRunOuts ps false (judgeJoints none (addRunIns ps (placeLegs start raw)))))

/-- The implicit jump of R73 and R103, if the head does not stand exactly at START. -/
def leadJump (from_ dest : Pt) : List Seg :=
  if from_ = dest then [] else [⟨.implicit, from_, dest, 0, 0, 0, 0, false, 0⟩]

/-! ### Motion runs -/

/-- The segments of the motion run that begins at segment i. -/
def runSegs (p : List Seg) (i : Nat) : List Seg :=
  match p.drop i with
  | [] => []
  | s :: ss => s :: ss.takeWhile (·.joined)

/-- The class of a motion run (R105). -/
inductive RunClass where
  | dwell | zOnly | mark | jump
  deriving DecidableEq, Repr

def runClass (r : List Seg) : RunClass :=
  if r.any (·.kind = .dwell) then .dwell
  else if r.all fun s => s.lxy == 0 then .zOnly
  else if r.any (·.kind.marked) then .mark
  else .jump

/-- The total length of a run. -/
def runLen (r : List Seg) : Nat := (r.map Seg.len).sum

/-- Arc length at which segment k of a run begins. -/
def startOf (r : List Seg) (k : Nat) : Nat := runLen (r.take k)

/-- The number of the segment of a run that contains arc length s. -/
def segAt : List Seg → Int → Nat
  | [], _ => 0
  | [_], _ => 0
  | s :: ss, x => if x < s.len then 0 else 1 + segAt ss (x - s.len)

/-! ### Exposure runs -/

/-- The lit segments of exposure run x. -/
def litSegs (p : List Seg) (x : Nat) : List Seg := p.filter fun s => s.expo == x && s.kind.lit

/-- The marked length L of exposure run x, in Q32.32 (R119). -/
def litLen (p : List Seg) (x : Nat) : Nat := ((litSegs p x).map Seg.lxy).sum

/-- Marked arc length of its exposure run before segment i of the path; a run-in lies before it. -/
def sigmaBase (p : List Seg) (i : Nat) : Int :=
  match p[i]? with
  | none => 0
  | some s => if s.kind = .runIn then -(s.lxy : Int) else litLen (p.take i) s.expo

/-- Arc offset in the run that begins at segment i at which exposure run x's marked part starts. -/
def markStart (r : List Seg) (x : Nat) : Nat :=
  runLen (r.takeWhile fun s => !(s.expo == x && s.kind.lit))

/-- Whether the run that begins at segment i holds the first lit segment of exposure run x, and its last. -/
def holdsFirst (p : List Seg) (i : Nat) (x : Nat) : Bool :=
  (p.take i).all (fun s => !(s.expo == x && s.kind.lit)) && (runSegs p i).any fun s => s.expo == x && s.kind.lit

def holdsLast (p : List Seg) (i : Nat) (x : Nat) : Bool :=
  let r := runSegs p i
  r.any (fun s => s.expo == x && s.kind.lit) && (p.drop (i + r.length)).all fun s => !(s.expo == x && s.kind.lit)

/-- Arc offset in a run at which exposure run x's last lit segment of it ends. -/
def markEnd (r : List Seg) (x : Nat) : Nat :=
  runLen r - runLen (r.reverse.takeWhile fun s => !(s.expo == x && s.kind.lit))

/-! ### Blends (R108) -/

/-- A unit vector's component in Q2.30, truncated toward zero: the delta divided by the Q32.32 length. -/
def unitQ30 (d : Int) (len : Nat) : Int :=
  let u : Nat := d.natAbs * 2 ^ 62 / len
  if d < 0 then -(u : Int) else u

def Seg.unit (s : Seg) : Int × Int := (unitQ30 (s.b.x - s.a.x) s.lxy, unitQ30 (s.b.y - s.a.y) s.lxy)

/-- |û2 − û1| in Q2.30. -/
def deltaU (p s : Seg) : Nat :=
  let u := p.unit
  let v := s.unit
  isqrt ((v.1 - u.1) * (v.1 - u.1) + (v.2 - u.2) * (v.2 - u.2)).toNat

/-- The blend half-width and the joint speed of the joint between two segments with their caps (R108). The
joint of a mark with its run-in or run-out runs straight on (DEDUCED, log entry 10). -/
def formJoint (l : Lims) (acc : Int) (p s : Seg) (cap1 cap2 : Int) : Nat × Nat :=
  let w0 := (min cap1 cap2).toNat
  let du := deltaU p s
  if p.kind = .runIn ∨ s.kind = .runOut ∨ du < 64 then (0, w0)
  else
    let b := min (4 * l.tol * 2 ^ 62 / du) (min (p.lxy / 2) (s.lxy / 2))
    (b, min w0 (isqrt (2 * acc.toNat * b * 2 ^ 30 / du)))

/-- A point of a segment at arc offset o, in 1/16 LSB, rounded once (R121). -/
def Seg.point (s : Seg) (o : Int) : Pt :=
  if s.len = 0 then ⟨16 * s.a.x, 16 * s.a.y, 16 * s.a.z⟩
  else
    let f (a b : Int) : Int := rndDiv (16 * (a * s.len + (b - a) * o)) s.len
    ⟨f s.a.x s.b.x, f s.a.y s.b.y, f s.a.z s.b.z⟩

/-- XY of B(t) in a blend window of half-width b at corner C, d = s − s_C + b, in 1/16 LSB (R108, R121). -/
def blendXY (p s : Seg) (b : Nat) (d : Int) : Int × Int :=
  let u := p.unit
  let v := s.unit
  let e := 2 * (b : Int) - d
  let f (c u v : Int) : Int := rndDiv (16 * c * ((b : Int) * 2 ^ 60) + (d * d * v - e * e * u)) ((b : Int) * 2 ^ 60)
  (f s.a.x u.1 v.1, f s.a.y u.2 v.2)

/-- The path point of a run at arc length x, in 1/16 LSB: on a segment, or in a blend window of the joints
formed; focus follows the polyline (R108, R121). -/
def runPoint (r : List Seg) (base : Nat) (js : List Joint) (x : Int) : Pt :=
  let k := segAt r x
  match r[k]? with
  | none => ⟨0, 0, 0⟩
  | some s =>
    let q := s.point (x - startOf r k)
    let blended := [k, k + 1].findSome? fun j =>
      match (if j = 0 then none else r[j - 1]?), r[j]?, js.find? (·.seg == base + j) with
      | some p, some n, some g =>
        let c : Int := startOf r j
        if 0 < g.b ∧ c - g.b ≤ x ∧ x < c + g.b then some (blendXY p n g.b (x - c + g.b)) else none
      | _, _, _ => none
    match blended with
    | none => q
    | some xy => ⟨xy.1, xy.2, q.z⟩

end Sys2Proof.Machine
end

