-- ==== Sys2Proof/Machine/Motion.lean ====
section
/-! DEFINITION. One head's work in one tick: limits (R105 to R107), the planner (R109 to R111), crossings and
dwells (R114), holds (R115), laser edges (R116, R117), the scheduled pair (R119), seams (R161, R162) and
micro-segments (R121, R122). -/

namespace Sys2Proof.Machine

/-! ### Limits (R105, R106) -/

/-- The limits of a head, from the active copies and the active N (R105). -/
def Chip.headLims (c : Chip) (h : Nat) : Lims :=
  let n := c.N
  let vel (a : Nat) : Int := rndDiv (c.actFld a 16 0 * n * 2 ^ 32 : Nat) 100000
  let acc (a : Nat) : Int := rndDiv (c.actFld a 19 0 * n ^ 2 * 2 ^ 29 : Nat) (10 ^ 10)
  { jv := vel (Reg.SCN_JUMP_VEL h)
    ja := acc (Reg.SCN_JUMP_ACC h)
    mv := vel (Reg.SCN_MARK_VEL h)
    ma := acc (Reg.SCN_MARK_ACC h)
    zv := vel (Reg.SCN_Z_VEL h)
    za := acc (Reg.SCN_Z_ACC h)
    j := rndDiv (c.actFld (Reg.SCN_JERK h) 23 0 * n ^ 3 * 2 ^ 26 : Nat) (10 ^ 15)
    tol := c.actFld (Reg.SCN_CORNER_TOL h) 15 0
    jvMm := c.actFld (Reg.SCN_JUMP_VEL h) 16 0
    mvMm := c.actFld (Reg.SCN_MARK_VEL h) 16 0
    zvMm := c.actFld (Reg.SCN_Z_VEL h) 16 0 }

namespace Lims

/-- Velocity limit, acceleration limit and register velocity of a class of run (R105). -/
def cls (l : Lims) : RunClass → Int × Int × Nat
  | .jump => (l.jv, l.ja, l.jvMm)
  | .mark => (l.mv, l.ma, l.mvMm)
  | .zOnly => (l.zv, l.za, l.zvMm)
  | .dwell => (l.zv, l.za, l.zvMm)

/-- The speed cap of a segment (R106), and whether its SPEED exceeds the limit. The cap of a segment that changes Z is
rounded down, where R106 names no rounding (DESIGN CHOICE, log entry 88). -/
def cap (l : Lims) (n : Nat) (k : RunClass) (s : Seg) : Int × Bool :=
  let (vt, _, mm) := l.cls k
  let capped := decide (mm * 1000 < s.speed)
  let v := if capped || s.speed == 0 then vt else rndDiv (s.speed * n * 2 ^ 32 : Nat) 100000000
  let dz := (s.b.z - s.a.z).natAbs
  (if dz ≠ 0 ∧ s.lxy ≠ 0 then min v (l.zv * s.lxy / (dz * 2 ^ 32 : Nat)) else v, capped)

end Lims

/-! ### The planner (R109, R110) -/

/-- A constraint: distance from s, speed, and whether it is the run's end. -/
structure Limit where
  dist : Int
  w : Int
  isEnd : Bool
  deriving DecidableEq, Repr

/-- Ceiling of x / y for x ≥ 0 and y > 0. -/
def divup (x y : Int) : Int := (x + y - 1) / y

/-- The conservative distance from v1 to w (R110). -/
def brake (acc jerk v1 w ap : Int) : Int :=
  let vp := if 0 < ap then v1 + divup (ap * ap) (2 * jerk) else v1
  let d := if 0 < ap then divup (vp * ap) jerk else 0
  let d := if w < vp then d + divup (vp * vp - w * w) (2 * acc) + divup ((vp + w) * acc) (2 * jerk) else d
  min d (2 ^ 63 - 1)

/-- Whether an acceleration is feasible (R110). -/
def feasible (acc jerk v vcap : Int) (ks : List Limit) (ap : Int) : Bool :=
  let v1 := v + ap
  let d1 := v + asr ap 1
  0 ≤ v1 && v1 ≤ vcap && ks.all fun k =>
    (k.isEnd && v1 ≤ acc) ||
      (if k.dist ≤ d1 then v1 ≤ k.w else brake acc jerk v1 k.w ap ≤ k.dist - d1)

/-- The bisection of R110. -/
def bisect (ok : Int → Bool) : Nat → Int → Int → Int
  | 0, lo, hi => if ok hi then hi else lo
  | f + 1, lo, hi =>
    if 1 < hi - lo then
      let mid := lo + asr (hi - lo) 1
      if ok mid then bisect ok f mid hi else bisect ok f lo mid
    else if ok hi then hi else lo

/-- The tick's acceleration, and whether no feasible value exists (R110). -/
def planAccel (acc jerk v a vcap : Int) (ks : List Limit) : Int × Bool :=
  let lo := max (max (a - jerk) (-acc)) (-v)
  let hi := max (min (a + jerk) acc) lo
  let ok := feasible acc jerk v vcap ks
  if !ok lo then (lo, true) else (bisect ok 96 lo hi, false)

/-- The arc-length samples s_1 to s_3 (R111). -/
def planSample (s v ap total : Int) (k : Int) : Int := min total (s + rndDiv (6 * k * v + k * k * ap) 18)

/-- The crossing instant of arc length m in a tick with state (s, v, ap): the smallest u in [0, N − 1] with
2N²(m − s) ≤ 2Nvu + ap u² (R114). -/
def crossing (n : Nat) (m s v ap : Int) : Option Nat :=
  (List.range n).find? fun u => decide (2 * (n : Int) * n * (m - s) ≤ 2 * n * v * u + ap * u * u)

/-! ### A head's tick -/

/-- What one head's work in a tick comes to, before it is committed. -/
structure HeadTick where
  head : Head
  /-- SCN_MOTION_FLAGS bits to set, and edges clamped or cancelled. -/
  flags : Nat
  adj : Nat
  /-- An own Billet was begun; a shared Billet's first work is committed (R153). -/
  took : Bool
  started : Option Nat
  /-- An exposure run of a shared Billet began: the Billet, its trailing taper, and the predecessor whose end
  SEAM_ONESIDE awaits (R161). -/
  expoOf : Option (Nat × Bool × Option Nat)
  /-- A Billet ended. -/
  ended : Option (Nat × Bool × Option EndCause)
  oob : Option Nat
  /-- An exposed segment or dwell was computed (R87). -/
  exposing : Bool
  /-- The path points at s_0 to s_3, in 1/16 LSB. -/
  p0 : Pt
  p1 : Pt
  p2 : Pt
  p3 : Pt
  /-- σ and P_MARK at s_0 and s_3, and whether a dwell lies there. -/
  sg0 : Nat
  pr0 : Nat
  dw0 : Bool
  sg3 : Nat
  pr3 : Nat
  dw3 : Bool
  laser0 : Bool
  on : Bool
  edges : List (Nat × Bool)
  sched : Nat × Nat
  seam : Nat × Nat

def HeadTick.start (h : Head) : HeadTick where
  head := h
  flags := 0
  adj := 0
  took := false
  started := none
  expoOf := none
  ended := none
  oob := none
  exposing := false
  p0 := h.pos
  p1 := h.pos
  p2 := h.pos
  p3 := h.pos
  sg0 := h.sigma
  pr0 := h.pMark
  dw0 := false
  sg3 := h.sigma
  pr3 := h.pMark
  dw3 := false
  laser0 := h.laser
  on := false
  edges := []
  sched := (0, 0)
  seam := (65536, 65536)

/-- SCN_MOTION_FLAGS bits (R125). -/
def mfBRAKE : Nat := 0x1
def mfSHORT : Nat := 0x2
def mfCLAMP : Nat := 0x4
def mfCANCEL : Nat := 0x8
def mfDEFERRED : Nat := 0x10
def mfGALVO : Nat := 0x20
def mfFOLLOW : Nat := 0x40
def mfCAP : Nat := 0x80
def mfMISS : Nat := 0x100
def mfDEFER : Nat := 0x200

def HeadTick.mark (t : HeadTick) (bit : Nat) (b : Bool := true) : HeadTick :=
  if b then { t with flags := t.flags ||| bit } else t

def HeadTick.onHead (t : HeadTick) (f : Head → Head) : HeadTick := { t with head := f t.head }

def HeadTick.onCur (t : HeadTick) (f : Cur → Cur) : HeadTick :=
  t.onHead fun h => { h with cur := h.cur.map f }

/-! ### Laser edges (R116, R117) -/

/-- An edge put in its place in time order. -/
def insertEdge (e : Nat × Bool) : List (Nat × Bool) → List (Nat × Bool)
  | [] => [e]
  | x :: xs => if e.1 < x.1 then e :: x :: xs else x :: insertEdge e xs

/-- An edge time earlier than u = 0 of the tick being computed is moved to u = 0 and counted. -/
def HeadTick.clampEdge (t : HeadTick) (at_ : Int) : HeadTick × Nat :=
  if at_ < 0 then ({ t with adj := t.adj + 1 }.mark mfCLAMP, 0) else (t, at_.toNat)

def HeadTick.onEdge (t : HeadTick) (at_ : Int) : HeadTick :=
  let (t, u) := t.clampEdge at_
  t.onHead fun h => { h with edges := insertEdge (u, true) h.edges, expo := h.expo.map fun e => { e with onSet := true } }

/-- The off edge of the exposure run; if it is not later than the on edge, neither is emitted. -/
def HeadTick.offEdge (t : HeadTick) (at_ : Int) : HeadTick :=
  let (t, u) := t.clampEdge at_
  let cancel := t.head.edges.any fun e => e.2 && decide (u ≤ e.1)
  let t := t.onHead fun h => { h with
    offAt := u
    expo := h.expo.map fun e => { e with offSet := true }
    edges := if cancel then h.edges.filter fun e => !(e.2 && decide (u ≤ e.1)) else insertEdge (u, false) h.edges }
  if cancel then { t with adj := t.adj + 1 }.mark mfCANCEL else t

/-! ### Exposure runs -/

/-- The profile numbered i of the Billet in execution. -/
def Cur.profile (k : Cur) (i : Nat) : Profile := k.profiles.getD i ⟨0, 0, 0, 0, 0, 0, 0, 0⟩

/-- LON_DELAY and LOFF_DELAY of the exposure run in hand (R102). -/
def Head.lon (h : Head) : Int := (h.expo.map (·.first.lon)).getD 0

def Head.loff (h : Head) : Int := (h.expo.map (·.last.loff)).getD 0

/-- The last exposure run of a path. -/
def lastExpo (p : List Seg) : Nat := (p.filter (·.kind.lit)).foldl (fun m s => max m s.expo) 0

/-! ### Shared Billets and seams (R161, R162) -/

/-- The position of a shared Billet in the shared list. -/
def Layer.sharedPos (l : Layer) (b : Nat) : Option Nat := l.shared.findIdx? (·.billet == b)

def Layer.tileOf (l : Layer) (b : Nat) : Nat := (l.ingot.dir[b]?.map (·.tile)).getD 0xFFFF

/-- The head that executes a shared Billet that is STARTED or EXPOSED. -/
def ShState.executor : ShState → Option Nat
  | .started h => some h
  | .exposed h => some h
  | _ => none

/-- The nearest earlier Billet of the tile that is STARTED or EXPOSED. -/
def Layer.predecessor (l : Layer) (i : Nat) : Option (Nat × Nat) :=
  match l.shared[i]? with
  | none => none
  | some b => ((l.shared.take i).zipIdx.reverse).findSome? fun x =>
      if l.tileOf x.1.billet = l.tileOf b.billet then x.1.state.executor.map fun h => (x.2, h) else none

/-- The nearest later Billet of the tile that is not SKIPPED. -/
def Layer.successor (l : Layer) (i : Nat) : Option Shared :=
  match l.shared[i]? with
  | none => none
  | some b => (l.shared.drop (i + 1)).find? fun x =>
      l.tileOf x.billet == l.tileOf b.billet && decide (x.state ≠ .skipped)

/-- The head that holds a shared Billet CLAIMED or STARTED. -/
def ShState.holder : ShState → Option Nat
  | .claimed h => some h
  | .started h => some h
  | _ => none

/-- The head that holds a shared Billet in the snapshot of the present tick: a claim granted in it is not yet one. -/
def Chip.heldBy (c : Chip) (x : Shared) : Option Nat :=
  match x.state.holder with
  | none => none
  | some g =>
    match inst? 64 g with
    | some h => if (c.hd[h]).claims.any fun y => y.1 == x.billet && y.2 == c.ttu.index then none else some g
    | none => none

/-- The tapers of an exposure run of a shared Billet that head h executes, and the predecessor of a first run with a leading
taper, by its position in the shared list (R161). -/
def Chip.tapers (c : Chip) (h b : Nat) (isFirst isLast : Bool) : Bool × Bool × Option Nat :=
  match c.scn.layer with
  | none => (false, false, none)
  | some l =>
    match l.sharedPos b with
    | none => (false, false, none)
    | some i =>
      let on := c.actFld Reg.SLD_SEAM_CFG 15 0 ≠ 0
      let lead := match l.predecessor i with
        | some (_, g) => g != h
        | none => false
      let trail := match l.successor i with
        | some x => (c.heldBy x).any (· != h)
        | none => false
      let first := on && isFirst && lead
      (first, on && isLast && trail, if first then (l.predecessor i).map (·.1) else none)

/-- The seam factor at x LSB from the seam's end (R162). -/
def seamG (sl f x : Nat) : Nat := if sl ≤ x then 65536 else f + (65536 - f) * x / sl

/-- The seam factor at σ (R162). -/
def seamAt (sl f len : Nat) (e : Expo) (sg : Nat) : Nat :=
  let a := if e.leading then min 65536 (seamG sl f sg) else 65536
  if e.trailing then min a (seamG sl f (len - sg)) else a

/-! ### Staged Billets as a head sees them -/

/-- The next own Billet of a head, if its slot is ready (R91, R96). -/
def Layer.ownNext (l : Layer) (h : Fin 64) : Option Slot :=
  match (l.stage.queues[h]).find? (!·.begun) with
  | none => none
  | some s => if s.ready then some s else none

/-- A Billet begun by a head standing at `at_` (LSB): its records read, and its path from there (R73, R92). -/
def Layer.begin (l : Layer) (s : Slot) (shared : Bool) (at_ : Pt) : Cur :=
  let b := l.ingot.dir.getD s.billet ⟨0, 0, 0, 0, 0, 0, at_, 0, 0⟩
  let (raw, ok) := billetSegs b l.ingot.profiles.length s.recs
  let none_ := raw.isEmpty && !ok
  let jump := if none_ then [] else leadJump at_ b.start
  { billet := s.billet
    shared := shared
    started := false
    path := jump ++ (if none_ then [] else pathOf l.ingot.profiles b.start raw)
    lead := jump.length
    pos := 0
    checked := jump.length
    cause := if ok then none else some .record
    ticks := 0
    joints := []
    profiles := l.ingot.profiles }

/-- A 1/16 LSB point in LSB (R164). -/
def Pt.lsb (p : Pt) : Pt := ⟨asr p.x 4, asr p.y 4, asr p.z 4⟩

/-! ### The steps of a tick -/

/-- Resuming inside an exposure run, the laser comes on at the boundary plus LON_DELAY (R115). -/
def HeadTick.resume (t : HeadTick) : HeadTick :=
  if t.head.relight then (t.onHead fun h => { h with relight := false }).onEdge t.head.lon else t

/-- The next Billet begins: the claim list's first, if granted before this tick, else the next own one
(R104, R158). The head counts as standing at the floor, in LSB, of its position in 1/16 LSB, as R164 takes it: it stands exactly
at START, or jumps there, from that point (DESIGN CHOICE, log entry 89). -/
def HeadTick.takeBillet (c : Chip) (h : Fin 64) (idx : Nat) (t : HeadTick) : HeadTick :=
  match t.head.cur, c.scn.layer with
  | none, some l =>
    if 0 < t.head.wait then t
    else
      match t.head.claims.head?.filter (·.2 < idx) with
      | some (b, _) =>
        match l.stage.pool.find? (·.billet == b) with
        | some s => t.onHead fun x => { x with cur := some (l.begin s true x.pos.lsb), claims := x.claims.tail }
        | none => t
      | none =>
        match l.ownNext h with
        | some s => { t with took := true }.onHead fun x => { x with cur := some (l.begin s false x.pos.lsb) }
        | none => t
  | _, _ => t

/-- LOOKAHEAD in force. -/
def Chip.lookahead (c : Chip) (h : Nat) : Nat := c.actFld (Reg.SCN_MOTION_CFG h) 6 0

/-- The number of the segment in execution, or of the next one. -/
def Cur.segNow (k : Cur) (r : Option Run) : Nat :=
  match r with
  | none => k.pos
  | some x => k.pos + segAt (runSegs k.path k.pos) x.s

/-- The first segment from `i`, `n` at most, that leaves the lattice-valid area, with its position word. -/
def firstOob (h : Head) (idx : Nat) (p : List Seg) : Nat → Nat → Option (Nat × Nat)
  | _, 0 => none
  | i, n + 1 =>
    match p[i]? with
    | none => none
    | some s =>
      match h.segmentOob idx s.a s.b with
      | some w => some (i, w)
      | none => firstOob h idx p (i + 1) n

/-- Segments that enter the look-ahead window are checked (R138). -/
def HeadTick.checkWindow (c : Chip) (h : Fin 64) (t : HeadTick) : HeadTick :=
  match t.head.cur with
  | none => t
  | some k =>
    let till := max k.lead (k.segNow t.head.run) + c.lookahead h
    match firstOob t.head c.ttu.index k.path k.checked (till - k.checked) with
    | none => t.onCur fun k => { k with checked := max k.checked till }
    | some (i, w) =>
      let atOnce := i == k.lead && k.pos == 0 && t.head.run.isNone
      { t with oob := some w }.onCur fun k =>
        { k with path := if atOnce then [] else k.path.take i, cause := some .oob, checked := i }

/-- The head is in no motion run any more: limits that waited for the run's end apply (R107). -/
def Head.endRun (h : Head) : Head :=
  { h with run := none, lims := h.limPend.getD h.lims, limPend := none, limTry := false }

/-- The Billet in execution ends. -/
def HeadTick.endBillet (t : HeadTick) : HeadTick :=
  match t.head.cur with
  | none => t
  | some k => { t with ended := some (k.billet, k.shared, k.cause) }.onHead fun h => { h.endRun with cur := none }

/-- The next motion run or dwell of the Billet begins, `t0` units into the tick (R104, R116). -/
def HeadTick.beginRun (c : Chip) (h : Fin 64) (n : Nat) (t0 : Nat) (t : HeadTick) : HeadTick :=
  match t.head.cur with
  | none => t
  | some k =>
    match k.path[k.pos]? with
    | none => t.endBillet
    | some s =>
      let t := t.onHead fun x => { x with run := some ⟨0, 0, 0, 0, s.dur⟩ }
      let t := if k.shared && !k.started && decide (k.lead ≤ k.pos) then
          { t with started := some k.billet }.onCur fun k => { k with started := true }
        else t
      let x := s.expo
      if x ≠ 0 ∧ holdsFirst k.path k.pos x then
        let lit := litSegs k.path x
        let first := k.profile ((lit.head?.map (·.prof)).getD 0)
        let last := k.profile ((lit.getLast?.map (·.prof)).getD 0)
        let (lead, trail, pred) := if k.shared then c.tapers h k.billet (x == 1) (x == lastExpo k.path) else (false, false, none)
        let t := { t with expoOf := if k.shared then some (k.billet, trail, pred) else none
                          sg3 := 0, pr3 := first.pMark }
        let t := if t0 = 0 then { t with sg0 := 0, pr0 := first.pMark } else t
        let t := t.onHead fun y => { y with
          expo := some ⟨x, litLen k.path x / 2 ^ 32, first, last, false, false, lead, trail⟩
          sigma := 0
          pMark := first.pMark }
        if markStart (runSegs k.path k.pos) x ≠ 0 then t
        else
          let lon := first.lon
          if lon < 0 then
            let d := ((-lon).toNat + n - 1) / n
            (t.onHead fun y => { y with run := y.run.map fun r => { r with delay := d } }).onEdge (d * n + lon)
          else t.onEdge (t0 + lon)
      else t

/-- The joints that enter the window are formed, and SPEED_CAP is noted (R106, R109). -/
def formJoints (l : Lims) (n : Nat) (k : RunClass) (r : List Seg) (base : Nat) (js : List Joint) :
    List Nat → List Joint × Bool
  | [] => (js, false)
  | j :: rest =>
    match (if j = 0 then none else r[j - 1]?), r[j]? with
    | some p, some s =>
      let (c1, o1) := l.cap n k p
      let (c2, o2) := l.cap n k s
      let js' := if js.any (·.seg == base + j) then js
        else
          let g := formJoint l (l.cls k).2.1 p s c1 c2
          js ++ [⟨base + j, g.1, g.2⟩]
      let (out, o) := formJoints l n k r base js' rest
      (out, o || o1 || o2)
    | _, _ => formJoints l n k r base js rest

/-- The constraints of R109 and vcap at arc length s. -/
def planLimits (l : Lims) (n la : Nat) (k : RunClass) (r : List Seg) (base : Nat) (js : List Joint) (s : Int) :
    List Limit × Int :=
  let kc := segAt r s
  let last := min (kc + la) r.length
  let total : Int := runLen r
  let far : Int := startOf r last
  let near := (List.range' kc (last - kc)).filterMap fun j =>
    match js.find? (·.seg == base + j) with
    | some g =>
      let p : Int := startOf r j
      if j ≠ 0 ∧ s < p + g.b then some (p, g) else none
    | none => none
  let cap := match r[kc]? with
    | some x => (l.cap n k x).1
    | none => 0
  (⟨total - s, 0, true⟩ :: ((if far < total then [⟨far - s, 0, false⟩] else []) ++
      near.map fun x => ⟨x.1 - x.2.b - s, x.2.w, false⟩),
    near.foldl (fun v x => if x.1 - x.2.b ≤ s then min v x.2.w else v) cap)

/-- The limits that the planner of this tick uses (R107): committed limits that a motion run has not yet
tried are tried, and kept back if they leave no feasible acceleration. -/
def HeadTick.tryLims (c : Chip) (h : Fin 64) (n : Nat) (r : List Seg) (k : Cur) (x : Run) (t : HeadTick) : HeadTick :=
  match t.head.limPend with
  | none => t
  | some l =>
    if t.head.limTry then
      let cl := runClass r
      let js := (formJoints l n cl r k.pos k.joints
        (List.range' (segAt r x.s) (min (c.lookahead h) (r.length - segAt r x.s)))).1
      let (ks, vcap) := planLimits l n (c.lookahead h) cl r k.pos js x.s
      if (planAccel (l.cls cl).2.1 l.j x.v x.a vcap ks).2 then
        (t.onHead fun y => { y with limTry := false }).mark mfDEFERRED
      else t.onHead fun y => { y with lims := l, limPend := none, limTry := false }
    else t

/-- What follows the end of a motion run or dwell at `at_` units into the tick (R104). The off edge's time delays the next
start also where the edge itself was cancelled or dropped, and the arrival of an exposure run that ends in a DWELL is that
dwell's end (DESIGN CHOICE, log entry 90). -/
def HeadTick.arrive (r : List Seg) (at_ : Int) (settleJump settleMark : Nat) (t : HeadTick) : HeadTick :=
  let x := match r.find? (·.kind.lit) with
    | some s => s.expo
    | none => 0
  let ended := match t.head.expo with
    | some e => x != 0 && e.num == x && e.offSet
    | none => false
  let (w, kind) :=
    if ended then (max (t.head.offAt + 1) (at_ + settleMark), WaitKind.settle)
    else if x ≠ 0 then (at_, WaitKind.rest)
    else (at_ + settleJump, WaitKind.settle)
  (t.onHead fun y => { y.endRun with wait := w, waitKind := kind }).onCur fun k =>
    { k with pos := k.pos + r.length }

/-- The off edge of an exposure run that ends in the run or dwell in hand, `at_` units into the tick. -/
def HeadTick.closeExpo (k : Cur) (at_ : Int) (t : HeadTick) : HeadTick :=
  match t.head.expo with
  | some e =>
    if e.onSet && !e.offSet && holdsLast k.path k.pos e.num then t.offEdge (at_ + t.head.loff) else t
  | none => t

/-- A dwell in hand, from `t0` units into the tick (R114). -/
def HeadTick.dwell (n t0 sj sm : Nat) (k : Cur) (s : Seg) (x : Run) (t : HeadTick) : HeadTick :=
  let pm := (k.profile s.prof).pMark
  let t := { t with exposing := true, dw3 := true, pr3 := pm, dw0 := t.dw0 || t0 == 0
                    pr0 := if t0 = 0 then pm else t.pr0 }
  let t := t.onHead fun y => { y with vid := s.vid, pMark := pm }
  if t0 + x.left ≤ n then
    (t.closeExpo k (t0 + x.left : Nat)).arrive [s] (t0 + x.left : Nat) sj sm
  else t.onHead fun y => { y with run := some { x with left := x.left - (n - t0) } }

/-- Speed in Q32.32 LSB per tick, times N, at instant u of a tick with velocity v and acceleration ap. -/
def speedAt (n : Nat) (v ap : Int) (u : Nat) : Int := v * n + ap * u

/-- The arrival of a run brings the dwell that follows it inside the exposure run (R114), or ends the Billet. -/
def HeadTick.follow (c : Chip) (h : Fin 64) (n sj sm : Nat) (t : HeadTick) : HeadTick :=
  match t.head.cur with
  | none => t
  | some k =>
    match k.path[k.pos]? with
    | none => t.endBillet
    | some s =>
      let w := t.head.wait
      if s.kind = .dwell ∧ t.head.waitKind = .rest ∧ w < n then
        let t := t.beginRun c h n w.toNat
        match t.head.cur, t.head.run with
        | some k, some x =>
          let t := t.dwell n w.toNat sj sm k s x
          match t.head.cur, t.head.run with
          | some k, none => if k.path.length ≤ k.pos then t.endBillet else t
          | _, _ => t
        | _, _ => t
      else t

/-- The motion of one tick of the run in hand (R109 to R111, R114, R116). -/
def HeadTick.move (c : Chip) (h : Fin 64) (n sj sm : Nat) (k0 : Cur) (x : Run) (t : HeadTick) : HeadTick :=
  let r := runSegs k0.path k0.pos
  let t := t.tryLims c h n r k0 x
  let l := t.head.lims
  let cl := runClass r
  let la := c.lookahead h
  let kc := segAt r x.s
  let (js, capped) := formJoints l n cl r k0.pos k0.joints (List.range' kc (min la (r.length - kc)))
  let capped := capped || (match r[kc]? with | some s => (l.cap n cl s).2 | none => false)
  let t := (t.mark mfCAP capped).onCur fun k => { k with joints := js }
  let k := { k0 with joints := js }
  let (ks, vcap) := planLimits l n la cl r k.pos js x.s
  let (ap, bad) := planAccel (l.cls cl).2.1 l.j x.v x.a vcap ks
  let t := t.mark mfBRAKE bad
  let total : Int := runLen r
  let s1 := planSample x.s x.v ap total 1
  let s2 := planSample x.s x.v ap total 2
  let s3 := planSample x.s x.v ap total 3
  let k3 := segAt r s3
  let sigmaAt (j : Nat) (s : Int) : Nat :=
    match r[j]?, t.head.expo with
    | some g, some e =>
      if g.expo ≠ e.num then t.head.sigma
      else
        let o := if g.lxy = 0 then 0 else s - startOf r j
        min ((sigmaBase k.path (k.pos + j) + o).toNat / 2 ^ 32) e.len
    | _, _ => t.head.sigma
  let profAt (j : Nat) (d : Nat) : Nat :=
    match r[j]? with
    | some g => if g.expo ≠ 0 then (k.profile g.prof).pMark else d
    | none => d
  let t := { t with
    p0 := runPoint r k.pos js x.s
    p1 := runPoint r k.pos js s1
    p2 := runPoint r k.pos js s2
    p3 := runPoint r k.pos js s3
    sg0 := sigmaAt kc x.s
    sg3 := sigmaAt k3 s3
    pr0 := profAt kc t.head.pMark
    pr3 := profAt k3 t.head.pMark
    exposing := t.exposing ||
      ((r.drop kc).take (segAt r (max x.s (s3 - 1)) + 1 - kc)).any (·.kind.lit) }
  let t := t.onHead fun y => { y with
    pMark := profAt k3 y.pMark
    vid := match r[k3]? with
      | some g => if g.kind = .implicit then y.vid else g.vid
      | none => y.vid
    run := some { x with s := s3, v := x.v + ap, a := ap } }
  let capOf (g : Option Seg) : Int := match g with
    | some g => (l.cap n cl g).1
    | none => 0
  -- the on edge of a run with a run-in
  let t := match t.head.expo with
    | some e =>
      let m : Int := markStart r e.num
      if !e.onSet && holdsFirst k.path k.pos e.num && decide (m ≤ s3) then
        let u := (crossing n m x.s x.v ap).getD n
        let short := decide (speedAt n x.v ap u < capOf (r.find? fun g => g.kind.lit) * n)
        (t.onEdge (u + t.head.lon)).mark mfSHORT short
      else t
    | none => t
  -- the off edge
  let t := match t.head.expo with
    | some e =>
      let m : Int := markEnd r e.num
      if e.onSet && !e.offSet && holdsLast k.path k.pos e.num && decide (m ≤ s3) then
        let u := (crossing n m x.s x.v ap).getD n
        let short := r.any (·.kind = .runOut) &&
          decide (speedAt n x.v ap u < capOf (r.reverse.find? fun g => g.kind.lit) * n)
        (t.offEdge (u + t.head.loff)).mark mfSHORT short
      else t
    | none => t
  if total ≤ s3 then
    let u : Int := (crossing n total x.s x.v ap).getD n
    (t.arrive r u sj sm).follow c h n sj sm
  else t

/-- The run or dwell in hand, for one tick. -/
def HeadTick.advance (c : Chip) (h : Fin 64) (n sj sm : Nat) (t : HeadTick) : HeadTick :=
  match t.head.cur, t.head.run with
  | some k, some x =>
    if 0 < x.delay then t.onHead fun y => { y with run := some { x with delay := x.delay - 1 } }
    else
      match k.path[k.pos]? with
      | none => t
      | some s =>
        if s.kind = .dwell then
          let t := t.dwell n 0 sj sm k s x
          match t.head.cur, t.head.run with
          | some k, none => if k.path.length ≤ k.pos then t.endBillet else t
          | _, _ => t
        else t.move c h n sj sm k x
  | _, _ => t

/-- The edges of this tick leave the queue; one that would not change the laser is not emitted (R117). -/
def emitEdges (n : Nat) (lit : Bool) : List (Nat × Bool) → List (Nat × Bool) × List (Nat × Bool) × Bool
  | [] => ([], [], lit)
  | (u, b) :: es =>
    if u < n then
      let (out, keep, l) := emitEdges n b es
      (if b = lit then out else (u, b) :: out, keep, l)
    else
      let (out, keep, l) := emitEdges n lit es
      (out, (u - n, b) :: keep, l)

/-- P(σ) of R119, with P_MARK of the segment there. -/
def powerAt (e : Expo) (cur sg : Nat) (dwell : Bool) : Nat :=
  if dwell then cur
  else
    let f := e.first
    let g := e.last
    let ri := f.rampIn * 8
    let ro := g.rampOut * 8
    let p : Int := cur
    let p := if 0 < ri ∧ sg < ri then
        min p (f.pStart + rndDiv (((f.pMark : Int) - f.pStart) * sg) ri) else p
    let p := if 0 < ro ∧ e.len - sg < ro then
        min p (g.pEnd + rndDiv (((g.pMark : Int) - g.pEnd) * (e.len - sg : Nat)) ro) else p
    p.toNat

/-- STATE of SCN_MOTION_STATUS (R125). -/
def Head.stateCode (h : Head) : Nat :=
  match h.run, h.cur with
  | some x, some k =>
    if 0 < x.delay then 5
    else match runClass (runSegs k.path k.pos) with
      | .dwell => 4
      | .mark => 3
      | .jump => 1
      | .zOnly => if (runSegs k.path k.pos).any (·.kind.lit) then 3 else 1
  | _, _ =>
    if 0 < h.wait then (if h.waitKind = .rest then 5 else 2)
    else if h.cur.isSome then 5 else 0

/-- The outputs of the tick and the head's time moved on by it. -/
def HeadTick.close (c : Chip) (n : Nat) (t : HeadTick) : HeadTick :=
  let lit := t.head.laser
  let (out, keep, after) := emitEdges n lit t.head.edges
  let dark0 := match out with
    | (0, false) :: _ => true
    | _ => false
  let on := (lit && !dark0) || out.any (·.2)
  let t := { t with laser0 := lit, on := on, edges := out }
  let t :=
    match t.head.expo with
    | some e =>
      if on then
        let sl := 8 * c.actFld Reg.SLD_SEAM_CFG 15 0
        let f := c.actFld Reg.SLD_SEAM_CFG 31 16
        let sm (sg : Nat) : Nat := if e.leading || e.trailing then seamAt sl f e.len e sg else 65536
        { t with sched := (powerAt e t.pr0 t.sg0 t.dw0, powerAt e t.pr3 t.sg3 t.dw3), seam := (sm t.sg0, sm t.sg3) }
      else t
    | none => t
  t.onHead fun h => { h with
    edges := keep
    laser := after
    sigma := t.sg3
    pos := t.p3
    wait := if h.wait ≤ n then 0 else h.wait - n
    waitKind := if h.wait ≤ n then .none else h.waitKind
    offAt := h.offAt - n
    cur := h.cur.map fun k => { k with ticks := k.ticks + 1 }
    code := h.stateCode }

/-- A head's proposed motion for the tick, on the committed state and the snapshot (R46). -/
def Chip.headStep (c : Chip) (h : Fin 64) (idx : Nat) : HeadTick :=
  let n := c.N
  let sj := c.actFld (Reg.SCN_SETTLE h) 15 0
  let sm := c.actFld (Reg.SCN_SETTLE h) 31 16
  let t := ((HeadTick.start c.hd[h]).resume).takeBillet c h idx
  let t := t.checkWindow c h
  let t := if t.head.cur.isSome && t.head.run.isNone && decide (t.head.wait ≤ 0) then t.beginRun c h n 0 else t
  (t.advance c h n sj sm).close c n

/-! ### Micro-segments (R121, R122) -/

/-- A micro-segment delta saturated to ±2^22 (R122). -/
def satDelta (d : Int) : Int := clampInt (-(2 ^ 22)) (2 ^ 22) d

/-- The coefficients K1, K2, K3 of R122 from the samples q0 to q3. -/
def microK (q : Int × Int × Int × Int) : Int × Int × Int :=
  let d1 := satDelta (q.2.1 - q.1)
  let d2 := satDelta (q.2.2.1 - q.1)
  let d3 := satDelta (q.2.2.2 - q.1)
  (18 * d1 - 9 * d2 + 2 * d3, -45 * d1 + 36 * d2 - 9 * d3, 27 * d1 - 27 * d2 + 9 * d3)

/-- Whether a delta of the samples exceeds 2^22. -/
def microSat (q : Int × Int × Int × Int) : Bool :=
  [q.2.1, q.2.2.1, q.2.2.2].any fun x => decide (2 ^ 22 < (x - q.1).natAbs)

/-- The galvo command of sub-step 0 of a tick whose C0 is q0 (R123, R124). -/
def galvo0 (q0 : Int) : Int := satS 24 (rndShift (1024 * q0) 14)

/-- q0 and z0 of a tick: the last tick's q3 and z3, or SCN_POS mapped once, or 0 (R121). -/
def Chip.carried (c : Chip) (h : Fin 64) : Pt × Nat :=
  match c.hd[h].q3 with
  | some q => (q, 0)
  | none =>
    if c.hd[h].mapReady c.ttu.index then
      let p := c.hd[h].pos.lsb
      let (q, s) := c.mapPoint h ⟨16 * p.x, 16 * p.y, 16 * p.z⟩
      (q, b2n s)
    else (⟨0, 0, 0⟩, 0)

/-- The galvo history for the following-error check, at most 260 ticks (R124). -/
def pushHistory (idx : Nat) (gx gy : Int) (l : List (Nat × Int × Int)) : List (Nat × Int × Int) :=
  ((idx, gx, gy) :: l).take 260

/-- SCN_MOTION_STATUS of a head. LIMIT_PEND is set by the planner that finds no feasible acceleration (R107). -/
def Head.motionStatus (h : Head) : Nat :=
  h.code + 2 ^ 4 * b2n h.lit + 2 ^ 5 * b2n (h.limPend.isSome && !h.limTry)

/-- The head's work of the tick committed: its flags, and its micro-segment mapped through the active bank. -/
def Chip.commitHead (c : Chip) (h : Fin 64) (idx : Nat) (t : HeadTick) : Chip :=
  let (q0, n0) := c.carried h
  let ready := c.hd[h].mapReady c.ttu.index
  let m (p : Pt) : Pt × Bool := if ready then c.mapPoint h p else (q0, false)
  let (q1, b1) := m t.p1
  let (q2, b2) := m t.p2
  let (q3, b3) := m t.p3
  let qx := (q0.x, q1.x, q2.x, q3.x)
  let qy := (q0.y, q1.y, q2.y, q3.y)
  let sat := microSat qx || microSat qy
  let out : HeadOut :=
    { qx := qx, qy := qy, z0 := q0.z, dz := q3.z - q0.z, laser0 := t.laser0, on := t.on, edges := t.edges
      sched := t.sched, seam := t.seam, p0 := t.p0.lsb, p3 := t.p3.lsb, power := (0, 0), shaped := (0, 0) }
  let c := c.onHead h fun x => { t.head with
    claims := x.claims.filter fun b =>
      !(t.head.cur.any fun k => k.shared && k.billet == b.1) && !(t.ended.any fun k => k.2.1 && k.1 == b.1)
    est := x.est, rd := x.rd, more := x.more, rdShown := x.rdShown
    banks := x.banks, active := x.active, down := x.down
    age := x.age, pri := x.pri, stamp := x.stamp, runCnt := x.runCnt, spot := x.spot, deferred := x.deferred
    deferRun := x.deferRun, gainDue := x.gainDue, lossDue := x.lossDue
    q3 := some q3
    hold := .run
    out := out
    history := pushHistory (idx + 3) (galvo0 q0.x) (galvo0 q0.y) x.history
    follow := x.follow }
  let c := c.fieldSat h (n0 + b2n b1 + b2n b2 + b2n b3)
  let c := if sat then c.flag (Reg.SCN_MOTION_FLAGS h) (.head h) mfGALVO 0 else c
  let c := if bitOf t.flags 0 then c.flag (Reg.SCN_MOTION_FLAGS h) (.head h) mfBRAKE 0 else c
  let c := c.sticky (Reg.SCN_MOTION_FLAGS h) (t.flags &&& 0xFFFE)
  c.bumpN 32 (Reg.SCN_EDGE_ADJ_CNT h) t.adj

/-- A held tick (R115). -/
def Chip.heldHead (c : Chip) (h : Fin 64) (idx : Nat) (why : Hold) : Chip :=
  let (q0, n0) := c.carried h
  let c := c.onHead h fun x =>
    let inExpo := match x.expo with
      | some e => e.onSet && !e.offSet
      | none => false
    { x with
      q3 := some q0
      edges := []
      laser := false
      relight := x.relight || inExpo
      run := x.run.map fun r => { r with v := 0, a := 0 }
      hold := why
      code := 6
      history := pushHistory (idx + 3) (galvo0 q0.x) (galvo0 q0.y) x.history
      out := { qx := (q0.x, q0.x, q0.x, q0.x), qy := (q0.y, q0.y, q0.y, q0.y), z0 := q0.z, dz := 0
               laser0 := x.laser, on := false, edges := if x.laser then [(0, false)] else [], sched := (0, 0)
               seam := (65536, 65536), p0 := x.pos.lsb, p3 := x.pos.lsb, power := (0, 0), shaped := (0, 0) } }
  let c := c.fieldSat h n0
  let c := match why with
    | .link => c
    | .gated => c
    | .defer => c.sticky (Reg.SCN_MOTION_FLAGS h) mfDEFER
    | _ => c.sticky (Reg.SCN_MOTION_FLAGS h) mfMISS
  (c.bump (Reg.SCN_HOLD_CNT h)).tally blkSCN 0x15 h.val 1

/-- An SCN commit, and a regrid, convert the limits (R105, R107). -/
def Chip.relimit (c : Chip) (h : Fin 64) : Chip :=
  let l := c.headLims h
  c.onHead h fun x =>
    let moving : Bool := match x.cur, x.run with
      | some k, some _ => decide (runClass (runSegs k.path k.pos) ≠ .dwell)
      | _, _ => false
    if moving then (if x.limPend.getD x.lims = l then x else { x with limPend := some l, limTry := true })
    else { x with lims := l, limPend := none, limTry := false }

end Sys2Proof.Machine
end

