-- ==== Sys2Proof/Machine/Staging.lean ====
section
/-! DEFINITION. Staging into Crucible (R90 to R92) and the final states of a layer's Billets (R87). -/

namespace Sys2Proof.Machine

/-! ### Slots (R90, R91) -/

/-- OWN_DEPTH in force. -/
def Chip.ownDepth (c : Chip) : Nat := c.fld Reg.SCN_STAGE_CFG 4 0

/-- Slots for shared Billets (R90). -/
def poolSlots : Nat := 512

/-- The slot numbers that a staging uses. -/
def Staging.used (g : Staging) : List Nat :=
  (g.pool.map (·.slot)) ++ (g.queues.toList.flatMap fun q => q.map (·.slot))

/-- A snapshot finds ready every slot whose records have arrived (R47, R91). -/
def Slot.land (x : Slot) : Slot := { x with ready := x.arrived }

def Staging.land (g : Staging) : Staging :=
  { g with queues := updAll g.queues fun _ q => q.map Slot.land, pool := g.pool.map Slot.land }

/-- The lowest slot that is not in use: which slot holds which Billet is the device's own choice (R90;
DESIGN CHOICE, log entry 11). -/
def freeSlot (used : List Nat) : Nat := ((List.range 1536).find? fun s => !used.contains s).getD 0

/-- New slots for a run of Billets, given the slots in use. -/
def newSlots : List Nat → List Nat → List Slot
  | _, [] => []
  | used, b :: bs =>
    let s := freeSlot used
    ⟨s, b, false, false, false, []⟩ :: newSlots (s :: used) bs

/-- One head's queue filled in index-array order, `room` slots at most (R91). -/
def Staging.fillOwn (g : Staging) (ing : Ingot) (others : List Nat) (h : Fin 64) (room : Nat) : Staging :=
  let list := ing.lists.getD h []
  let next := (list.drop g.fetched[h]).take (room - (g.queues[h]).length)
  { g with
    queues := upd g.queues h fun q => q ++ newSlots (others ++ g.used) next
    fetched := upd g.fetched h (· + next.length) }

/-- The shared pool filled in shared-list order; a Billet already ended is passed over (R91). -/
def Staging.fillShared (g : Staging) (ing : Ingot) (others : List Nat) (room : Nat) (past : Nat → Bool) :
    Nat → Staging
  | 0 => g
  | n + 1 =>
    match ing.shared[g.sharedNext]? with
    | none => g
    | some b =>
      if room ≤ g.pool.length then g
      else
        let g := { g with sharedNext := g.sharedNext + 1 }
        let g := if past b then g else { g with pool := g.pool ++ newSlots (others ++ g.used) [b] }
        Staging.fillShared g ing others room past n

/-- Whether a shared Billet has ended. -/
def ShState.ended : ShState → Bool
  | .exposed _ => true
  | .skipped => true
  | .withheld => true
  | _ => false

def Layer.sharedEnded (l : Layer) (b : Nat) : Bool := l.shared.any fun x => x.billet == b && x.state.ended

/-- The running layer replaced by its image. -/
def Chip.onLayer (c : Chip) (f : Layer → Layer) : Chip :=
  { c with scn := { c.scn with layer := c.scn.layer.map f } }

/-- The snapshot of the staged slots, of the running layer and of the ARMED Ingot (R47). -/
def Chip.landSlots (c : Chip) : Chip :=
  let c := c.onLayer fun l => { l with stage := l.stage.land }
  { c with scn := { c.scn with armed := c.scn.armed.map fun x => (x.1, x.2.land) } }

/-- Staging of the running layer goes on (R91). -/
def Chip.fillLayer (c : Chip) : Chip :=
  c.onLayer fun l =>
    if l.abortAt.isSome then l
    else
      let others := (c.scn.armed.map fun a => a.2.used).getD []
      let g := (List.finRange 64).foldl (fun (g : Staging) (h : Fin 64) =>
        if l.lostHeads.getLsbD h then g else g.fillOwn l.ingot others h c.ownDepth) l.stage
      { l with stage := g.fillShared l.ingot others poolSlots l.sharedEnded (poolSlots + l.ingot.shared.length) }

/-- Staging of the ARMED Ingot, in the slots that the running layer leaves (R91; DEDUCED, log entry 11). -/
def Chip.fillArmed (c : Chip) : Chip :=
  match c.scn.armed with
  | none => c
  | some (i, g) =>
    match c.hst.leases[i].ingot with
    | none => c
    | some ing =>
      let (lq, lp, others) := match c.scn.layer with
        | some l => ((fun h : Fin 64 => (l.stage.queues[h]).length), l.stage.pool.length, l.stage.used)
        | none => ((fun _ => 0), 0, [])
      let g := (List.finRange 64).foldl (fun (g : Staging) (h : Fin 64) => g.fillOwn ing others h (c.ownDepth - lq h)) g
      let g := g.fillShared ing others (poolSlots - lp) (fun _ => false) (poolSlots + 1)
      { c with scn := { c.scn with armed := some (i, g) } }

/-! ### Final states (R87, R92) -/

/-- The final states of R87. -/
inductive Final where
  | exposed | skipped | withheld
  deriving DecidableEq, Repr

def Layer.count (l : Layer) (k : Final) (n : Nat := 1) : Layer :=
  match k with
  | .exposed => { l with exposed := l.exposed + n }
  | .skipped => { l with skipped := l.skipped + n }
  | .withheld => { l with withheld := l.withheld + n }

/-- A visit of a registration run ends with its own Billet (R146). -/
def Chip.noteVisit (c : Chip) (b : Nat) : Chip :=
  if c.scn.layer.any fun l => (c.hst.leases[l.lease]).own then
    { c with reg := c.reg.map fun x =>
        let seq := ((x.visits[b]?.bind fun v => x.fids[v.fid]?).bind fun f => (inst? 16 f.cam).map fun p => (c.cam[p]).seq).getD 0
        { x with done := x.done ++ [(b, seq)] } }
  else c

/-- An own Billet of head h ends; its slot is freed and staging goes on. -/
def Chip.endOwn (c : Chip) (h : Fin 64) (b : Nat) (k : Final) : Chip :=
  ((c.noteVisit b).onLayer fun l => { l.count k with
    ownLeft := upd l.ownLeft h (· - 1)
    stage := { l.stage with queues := upd l.stage.queues h fun q => q.filter (·.billet != b) } }).fillLayer

/-- One shared Billet replaced by its image. -/
def Layer.onShared (l : Layer) (b : Nat) (f : Shared → Shared) : Layer :=
  { l with shared := l.shared.map fun x => if x.billet = b then f x else x }

/-- A shared Billet ends; its slot is freed and staging goes on (R91, R153). -/
def Chip.endShared (c : Chip) (b : Nat) (st : ShState) : Chip :=
  let k : Final := match st with
    | .exposed _ => .exposed
    | .skipped => .skipped
    | _ => .withheld
  (c.onLayer fun l =>
    if l.sharedEnded b then l
    else { (l.count k).onShared b (fun x => { x with state := st }) with
           stage := { l.stage with pool := l.stage.pool.filter (·.billet != b) } }).fillLayer

/-- SCN_BILLET_ERR bits. -/
def beCRC : Nat := 0x1
def beREC : Nat := 0x2
def beUE : Nat := 0x4

/-- A skipped Billet is flagged, recorded, counted and reported with its index (R92). -/
def Chip.noteSkip (c : Chip) (b bit : Nat) : Chip :=
  let c := (c.wrn Reg.SCN_BILLET_ERR_IDX (b % 2 ^ 20)).bump Reg.SCN_BILLET_SKIP_CNT
  if bit = 0 then c else c.flag Reg.SCN_BILLET_ERR .none bit b

/-- The cause bit of a Billet that a head engine ends before its last record. -/
def EndCause.bit : EndCause → Nat
  | .record => beREC
  | .oob => beREC
  | .ue => 0

/-- A Billet ends on head h: exposed, or skipped for a cause (R87, R92, R138, R143). -/
def Chip.billetEnd (c : Chip) (h : Fin 64) (b : Nat) (shared : Bool) (cause : Option EndCause) : Chip :=
  match cause with
  | none => if shared then c.endShared b (.exposed h) else c.endOwn h b .exposed
  | some k =>
    let c := c.noteSkip b k.bit
    if shared then c.endShared b .skipped else c.endOwn h b .skipped

/-- Every Billet of the layer has ended. -/
def Layer.allEnded (l : Layer) : Bool := l.exposed + l.skipped + l.withheld == l.ingot.dirCount

/-! ### Lost heads (R31, R87, R153, R160) -/

/-- A head drops its work: nothing of it is exposed any more. -/
def Head.drop (h : Head) : Head :=
  { h.endRun with cur := none, expo := none, claims := [], edges := [], relight := false, wait := 0, waitKind := .none }

/-- The CLAIMED Billets of a head return: OFFERED from the arbitrate stage of T+1 with offer age 0, the head
excluded from them (R153, R160). -/
def Chip.handBack (c : Chip) (h : Fin 64) : Chip :=
  match c.scn.layer with
  | none => c
  | some l =>
    if !(l.shared.any fun x => decide (x.state = .claimed h)) then c
    else
      let c := c.onLayer fun l => { l with shared := l.shared.map fun x =>
        if x.state = (ShState.claimed h) then
          { x with state := .offered 0, excluded := x.excluded ||| (1#64 <<< h.val), notBefore := c.ttu.index + 1 }
        else x }
      let c := c.onHead h fun x =>
        if x.cur.any (fun k => k.shared && !k.started) then x.drop else { x with claims := [] }
      c.sticky Reg.SLD_FLAGS 0x4

/-- Every own Billet of a head that has not ended, and a shared Billet it has started, are withheld (R87). -/
def Chip.withholdHead (c : Chip) (h : Fin 64) : Chip :=
  match c.scn.layer with
  | none => c
  | some l =>
    let c := match c.hd[h].cur with
      | some k => if k.shared then c.endShared k.billet .withheld else c
      | none => c
    let c := c.onLayer fun l => { l.count .withheld l.ownLeft[h] with
      ownLeft := upd l.ownLeft h fun _ => 0
      lostHeads := l.lostHeads ||| (1#64 <<< h.val)
      stage := { l.stage with queues := upd l.stage.queues h fun _ => [] } }
    c.onHead h Head.drop

/-- A head becomes link-down (R31): its claims return, its other Billets are withheld. -/
def Chip.headDown (c : Chip) (h : Fin 64) : Chip :=
  ((c.handBack h).withholdHead h).onHead h fun x => { x with down := true, edges := [], laser := false }

/-- At the snapshot that first finds the lane ACTIVE the head is link-down no more; that tick maps the position afresh
(R47, R121, R232). -/
def Chip.headUp (c : Chip) (h : Fin 64) : Chip := c.onHead h fun x => { x with down := false, q3 := none }

end Sys2Proof.Machine
end

