-- ==== Sys2Proof/Machine/Solder.lean ====
section
/-! DEFINITION. The Solder unit: shared Billets and their claims (R152 to R160), the seam flag (R161), plume
exclusion (R163 to R167) and aging (R168, R169). -/

namespace Sys2Proof.Machine

/-! ### Eligibility and estimates (R152, R155, R156) -/

/-- The laser loop of a head is GATED (R186). -/
def Chip.gated (c : Chip) (h : Fin 64) : Bool :=
  decide ((c.mpc.loops[h.val]'(by omega)).state = .gated)

/-- A candidate is lost for a shared Billet (R152). -/
def Chip.lostFor (c : Chip) (b : Shared) (h : Fin 64) : Bool :=
  c.hd[h].down || c.gated h || b.excluded.getLsbD h

/-- A Billet's START lies in the head's lattice-valid area. -/
def Layer.startIn (l : Layer) (t b : Nat) (h : Head) : Bool :=
  match l.ingot.dir[b]? with
  | none => false
  | some x => h.inArea t x.start.x x.start.y

/-- A candidate is eligible for a shared Billet (R152). -/
def Chip.eligible (c : Chip) (l : Layer) (b : Shared) (h : Fin 64) : Bool :=
  !c.lostFor b h && l.startIn c.ttu.index b.billet c.hd[h]

/-- D(b) in sub-tick units (R155). -/
def Chip.durUnits (c : Chip) (l : Layer) (b : Nat) : Nat :=
  let d := (l.ingot.dir[b]?.map (·.dur)).getD 0
  (if d = 0 then c.actFld Reg.SLD_DUR_CFG 15 0 * 1000 else d) * 4 / 5

/-- The run-dry estimate in ticks. -/
def Chip.rdOf (c : Chip) (e : Nat) : Nat := min (e / c.N) (2 ^ 24 - 1)

/-- E_h and MORE_h of a head (R155). -/
def Chip.estimate (c : Chip) (h : Fin 64) : Nat × Bool :=
  match c.scn.layer with
  | none => (0, false)
  | some l =>
    let x := c.hd[h]
    let cur := match x.cur with
      | some k => c.durUnits l k.billet - k.ticks * c.N
      | none => 0
    let queued := ((l.stage.queues[h]).filter fun s => s.ready && !s.begun).map fun s => c.durUnits l s.billet
    let claimed := x.claims.map fun b => c.durUnits l b.1
    (cur + queued.sum + claimed.sum, decide (l.stage.fetched[h] < (l.ingot.lists.getD h []).length))

/-- The propose stage's estimates of every head that met its deadline (R48, R155). -/
def Chip.estimates (c : Chip) : Chip :=
  { c with hd := updAll c.hd fun h x =>
      if !c.headOn h || c.ttu.miss.prop.getLsbD h then x
      else if x.down then { x with est := (c.estimate h).1, rd := 2 ^ 24 - 1, more := true, rdShown := 2 ^ 24 - 1 }
      else
        let (e, m) := c.estimate h
        { x with est := e, rd := c.rdOf e, more := m, rdShown := c.rdOf e } }

/-- Billets that a head holds CLAIMED and not STARTED. -/
def Layer.claimsOf (l : Layer) (h : Nat) : Nat := (l.shared.filter fun x => decide (x.state = .claimed h)).length

/-- A head requests an OFFERED Billet (R156). -/
def Chip.requests (c : Chip) (l : Layer) (b : Shared) (h : Fin 64) : Bool :=
  c.eligible l b h && decide (c.hd[h].rd ≤ c.actFld Reg.SLD_CLAIM_CFG 15 0) &&
    decide (l.claimsOf h < c.actFld Reg.SLD_CLAIM_CFG 18 16) && !c.ttu.miss.prop.getLsbD h

/-- The claim key's order (R156). -/
def Chip.keyBefore (c : Chip) (a b : Fin 64) : Bool :=
  let x := c.hd[a]
  let y := c.hd[b]
  if x.more ≠ y.more then y.more
  else if x.rd ≠ y.rd then decide (x.rd < y.rd)
  else decide (a < b)

/-- The candidate with the lower key among those listed. -/
def Chip.lowest (c : Chip) : List (Fin 64) → Option (Fin 64)
  | [] => none
  | h :: hs =>
    match c.lowest hs with
    | none => some h
    | some g => if c.keyBefore h g then some h else some g

/-- The two candidates of a shared Billet. -/
def Layer.candidates (l : Layer) (b : Nat) : List (Fin 64) :=
  match l.ingot.dir[b]? with
  | none => []
  | some x => [x.headA, x.headB].filterMap (inst? 64)

/-! ### Claims (R153, R157 to R160) -/

/-- PENDING Billets become OFFERED on the snapshot (R153). -/
def Chip.offer (c : Chip) : Chip :=
  c.onLayer fun l =>
    let f (x : Shared) (i : Nat) : Shared :=
      if x.state = (ShState.pending) ∧ l.stage.pool.any (fun s => s.billet == x.billet && s.ready) ∧
        (l.shared.take i).all (fun y => l.tileOf y.billet != l.tileOf x.billet ||
          match y.state with
          | .pending => false
          | .offered _ => false
          | _ => true) then
        { x with state := .offered 0 }
      else x
    { l with shared := l.shared.zipIdx.map fun y => f y.1 y.2 }

/-- A grant (R157, R158). -/
def Chip.grant (c : Chip) (l : Layer) (b : Nat) (h : Fin 64) (forced : Bool) : Chip :=
  let c := c.onLayer fun l => l.onShared b fun x => { x with state := .claimed h }
  let c := c.onHead h fun x =>
    let e := x.est + c.durUnits l b
    { x with claims := x.claims ++ [(b, c.ttu.index)], est := e, rd := c.rdOf e }
  let c := (c.bump Reg.SLD_GRANT_CNT).tally blkSLD 0x10 h.val 1
  if forced then
    ((c.bump Reg.SLD_FORCE_CNT).sticky Reg.SLD_FLAGS 0x1).tally blkSLD 0x11 h.val 1
  else c

/-- FORCE_TICKS in force. -/
def Chip.forceTicks (c : Chip) : Nat := c.actFld Reg.SLD_FORCE_CFG 19 0

/-- A Billet that the arbitrate stage of this tick has to resolve: its offer age and place in the order. -/
def Chip.offeredNow (c : Chip) (l : Layer) : List (Nat × Nat × Shared) :=
  l.shared.zipIdx.filterMap fun (x, i) =>
    match x.state with
    | .offered age => if x.notBefore ≤ c.ttu.index then some (age, i, x) else none
    | _ => none

/-- R157's order: forced Billets first, then ascending TILE_ID, then list order. -/
def resolveBefore (force : Nat) (l : Layer) (a b : Nat × Nat × Shared) : Bool :=
  let fa := decide (force ≤ a.1)
  let fb := decide (force ≤ b.1)
  if fa ≠ fb then fa
  else
    let ta := l.tileOf a.2.2.billet
    let tb := l.tileOf b.2.2.billet
    if ta ≠ tb then decide (ta < tb) else decide (a.2.1 < b.2.1)

/-- An element put in its place in a list kept in order. -/
def insertBy {α : Type} (lt : α → α → Bool) (x : α) : List α → List α
  | [] => [x]
  | y :: ys => if lt x y then x :: y :: ys else y :: insertBy lt x ys

def sortBy {α : Type} (lt : α → α → Bool) (l : List α) : List α := l.foldr (insertBy lt) []

/-- The Billets to resolve, in the order of R157. -/
def Chip.resolveOrder (c : Chip) (l : Layer) : List (Nat × Shared) :=
  (sortBy (resolveBefore c.forceTicks l) (c.offeredNow l)).map fun x => (x.1, x.2.2)

/-- One OFFERED Billet resolved (R153, R157). -/
def Chip.resolve (c : Chip) (age : Nat) (b : Shared) : Chip :=
  match c.scn.layer with
  | none => c
  | some l =>
    let cs := l.candidates b.billet
    if cs.all fun h => c.lostFor b h then (c.sticky Reg.SLD_FLAGS 0x8).endShared b.billet .withheld
    else
      let el := cs.filter fun h => c.eligible l b h
      if el.isEmpty then
        let c := (c.noteSkip b.billet 0).flag Reg.SLD_FLAGS .none 0x2 b.billet
        c.endShared b.billet .skipped
      else
        let forced := decide (c.forceTicks ≤ age)
        match c.lowest (if forced then el else cs.filter fun h => c.requests l b h) with
        | some h => c.grant l b.billet h forced
        | none => c

/-- Offer ages after an arbitrate stage that met its deadline (R153). -/
def Chip.ageOffers (c : Chip) : Chip :=
  c.onLayer fun l => { l with shared := l.shared.map fun x =>
    match x.state with
    | .offered a => if x.notBefore ≤ c.ttu.index then { x with state := .offered (a + 1) } else x
    | _ => x }

/-- The claims of one arbitrate stage (R48, R157). -/
def Chip.arbitrateClaims (c : Chip) : Chip :=
  match c.scn.layer with
  | none => c
  | some l =>
    if l.abortAt.isSome then c
    else
      let todo := c.resolveOrder l
      match c.ttu.miss.arb with
      | none => (todo.foldl (fun c x => c.resolve x.1 x.2) c).ageOffers
      | some (done, _) => (todo.filter fun x => done.contains x.2.billet).foldl (fun c x => c.resolve x.1 x.2) c

/-- FORCED of shared Billet `b` in the tick in progress: it stands first in the order of R157, its offer age has
reached FORCE_TICKS and it has an eligible candidate. A forced Billet that no command takes is granted with the
tick's other claims. -/
def Chip.forcedGrant (c : Chip) (b : Nat) : Chip :=
  match c.scn.layer with
  | none => c
  | some l =>
    match c.resolveOrder l with
    | (age, x) :: _ =>
      if x.billet = b ∧ c.forceTicks ≤ age ∧ l.abortAt.isNone ∧ c.ttu.inTick ∧ c.ttu.miss.arb.isNone ∧
          (l.candidates b).any fun h => c.eligible l x h then c.estimates.resolve age x
      else c
    | [] => c

/-! ### Seams (R161) -/

/-- An exposure run of a shared Billet begins: its trailing taper, and for its first run with a leading
taper the predecessor that SEAM_ONESIDE waits for. -/
def Chip.noteExpo (c : Chip) (b : Nat) (trail : Bool) (pred : Option Nat) : Chip :=
  c.onLayer fun l => l.onShared b fun x => { x with lastTrail := some trail, judge := pred.orElse fun _ => x.judge }

/-- SEAM_ONESIDE judged for every Billet whose predecessor has ended (R161). -/
def Chip.judgeSeams (c : Chip) : Chip :=
  match c.scn.layer with
  | none => c
  | some l =>
    let ended (i : Nat) : Bool := (l.shared[i]?.map (·.state.ended)).getD true
    let one := l.shared.any fun x => match x.judge with
      | some i => ended i && (l.shared[i]?.bind (·.lastTrail)) == some false
      | none => false
    let c := c.onLayer fun l => { l with shared := l.shared.map fun x => match x.judge with
      | some i => if ended i then { x with judge := none } else x
      | none => x }
    if one then c.sticky Reg.SLD_FLAGS 0x20 else c

/-! ### Plume exclusion (R163 to R167) -/

/-- The plume settings that a layer takes at its first tick (R163). -/
def Chip.plumeNow (c : Chip) : Plume where
  en := c.bit Reg.SLD_CONE_CFG 31
  fx := signOf 16 (c.fld Reg.SLD_FLOW_CFG 15 0)
  fy := signOf 16 (c.fld Reg.SLD_FLOW_CFG 31 16)
  len := c.fld Reg.SLD_CONE_CFG 16 0
  tan := c.fld Reg.SLD_CONE_TAN 16 0

/-- Point p lies in the cone of source point q (R165). -/
def Plume.inCone (k : Plume) (q p : Pt) : Bool :=
  let dx := p.x - q.x
  let dy := p.y - q.y
  let along := dx * k.fx + dy * k.fy
  let across := dx * k.fy - dy * k.fx
  0 < along && along ≤ (k.len * 8 : Nat) * 2 ^ 14 && (across.natAbs : Int) * 2 ^ 16 ≤ along * k.tan

/-- A spot of a tick: its head, its points at s_0 and s_3, and its plume state. -/
structure Spot where
  head : Nat
  p0 : Pt
  p3 : Pt
  pri : Bool
  stamp : Nat
  deriving DecidableEq, Repr

/-- Two spots conflict: some point of one lies in the cone of some point of the other (R165). -/
def Plume.conflict (k : Plume) (a b : Spot) : Bool :=
  [a.p0, a.p3].any fun p => [b.p0, b.p3].any fun q => k.inCone p q || k.inCone q p

/-- The order of R166. -/
def Plume.before (k : Plume) (a b : Spot) : Bool :=
  if a.pri ≠ b.pri then a.pri
  else if a.pri && a.stamp != b.stamp then decide (a.stamp < b.stamp)
  else
    let pa := a.p0.x * k.fx + a.p0.y * k.fy
    let pb := b.p0.x * k.fx + b.p0.y * k.fy
    if pa ≠ pb then decide (pa < pb) else decide (a.head < b.head)

/-- What the plume check decides of a spot. -/
inductive Verdict where
  | active | deferred | paused
  deriving DecidableEq, Repr

/-- The decisions in the order of R166: a spot conflicting with one already active is deferred; a deferral
is a pause when every active spot it conflicts with has PRI set. -/
def Plume.decide_ (k : Plume) : List Spot → List Spot → List (Spot × Verdict)
  | _, [] => []
  | act, s :: ss =>
    let foes := act.filter fun a => k.conflict a s
    if foes.isEmpty then (s, .active) :: Plume.decide_ k (s :: act) ss
    else (s, if foes.all (·.pri) then .paused else .deferred) :: Plume.decide_ k act ss

/-- The decisions of a tick (R48, R163, R166): none while PLUME_EN is 0; under an arbitrate miss every spot
that no completed check cleared is deferred. -/
def Chip.plumeVerdicts (c : Chip) (spots : List Spot) : List (Spot × Verdict) :=
  match c.scn.layer with
  | none => spots.map fun s => (s, .active)
  | some l =>
    if l.plume.en then
      let ds := l.plume.decide_ [] (sortBy l.plume.before spots)
      match c.ttu.miss.arb with
      | none => ds
      | some (_, cleared) => ds.map fun d => if cleared.getLsbD d.1.head then d else (d.1, if d.2 = .paused then .paused else .deferred)
    else spots.map fun s => (s, .active)

/-! ### Aging (R168, R169, R173) -/

/-- AGE_LIMIT in force. -/
def Chip.ageLimit (c : Chip) : Nat := c.actFld Reg.SLD_AGE_CFG 6 0

/-- One head's plume state after a tick; PRI itself changes by PRI_GAIN and PRI_LOSS (log entry 12). -/
def Head.aged (h : Head) (limit : Nat) (miss : Bool) (v : Option Verdict) : Head :=
  let deferred := v == some .deferred || v == some .paused
  let h := { h with spot := v.isSome, deferred := deferred, deferRun := if deferred then h.deferRun + 1 else 0 }
  if miss then h
  else
    match v with
    | none => { h with age := 0, pri := false, runCnt := 0 }
    | some .active =>
      let n := h.runCnt + 1
      if h.pri then { h with age := 0, runCnt := n, lossDue := decide (limit ≤ n) } else { h with age := 0 }
    | some _ =>
      let a := min (h.age + 1) 127
      { h with age := a, gainDue := !h.pri && decide (limit ≤ a) }

/-- The verdict on a head's spot, if it was one. -/
def verdictOf (ds : List (Spot × Verdict)) (h : Nat) : Option Verdict :=
  (ds.find? fun d => d.1.head == h).map fun d => d.2

/-- The plume decisions of a tick recorded (R168, R173). -/
def Chip.recordPlume (c : Chip) (ds : List (Spot × Verdict)) : Chip :=
  let miss := c.ttu.miss.arb.isSome
  let limit := c.ageLimit
  let hd := updAll c.hd fun h (x : Head) => if c.headOn h then x.aged limit miss (verdictOf ds h) else x
  let pts := ds.map fun d => (d.1.head, d.1.p0, d.1.p3)
  let c := { c with hd := hd, scn := { c.scn with points := pts } }
  let off := ds.filter fun d => d.2 != .active
  let paused := ds.filter fun d => d.2 == .paused
  let c := (c.bumpN 32 Reg.SLD_DEFER_CNT off.length).bumpN 32 Reg.SLD_PAUSE_CNT paused.length
  let c := off.foldl (fun c d => c.tally blkSLD 0x12 d.1.head 1) c
  let c := paused.foldl (fun c d => c.tally blkSLD 0x13 d.1.head 1) c
  let longest := c.headList.foldl (fun (m : Nat) (h : Fin 64) => max m (c.hd[h].deferRun)) 0
  c.wrn Reg.SLD_DEFER_MAX (max (c.rdn Reg.SLD_DEFER_MAX) (min longest 0xFFFF))

/-- A spot gains PRI, stamped with the tick just closed, and PRI_CONFLICT is judged with that tick's points
(R168, R169). -/
def Chip.priGain (c : Chip) (h : Fin 64) : Chip :=
  if c.hd[h].gainDue then
    let c := c.onHead h fun x => { x with pri := true, stamp := c.scn.lastTick, runCnt := 0, gainDue := false }
    match c.scn.layer, c.scn.points.find? (·.1 == h.val) with
    | some l, some (_, p, q) =>
      let foe := c.scn.points.any fun y => match inst? 64 y.1 with
        | some g => y.1 != h.val && c.hd[g].pri && !c.hd[g].lossDue &&
            l.plume.conflict ⟨h, p, q, true, 0⟩ ⟨g, y.2.1, y.2.2, true, 0⟩
        | none => false
      if foe then c.sticky Reg.SLD_FLAGS 0x10 else c
    | _, _ => c
  else c

/-- A spot that has been active with PRI for AGE_LIMIT ticks loses it (R168). -/
def Chip.priLoss (c : Chip) (h : Fin 64) : Chip :=
  if c.hd[h].lossDue then c.onHead h fun x => { x with pri := false, lossDue := false } else c

/-- Every PRI change that the tick just closed has brought and that has not been taken. -/
def Chip.takePri (c : Chip) : Chip :=
  let c := c.headList.foldl (fun c h => c.priLoss h) c
  c.headList.foldl (fun c h => c.priGain h) c

end Sys2Proof.Machine
end

