-- ==== Sys2Proof/Machine/Loop.lean ====
section
/-! DEFINITION. The arithmetic of one control loop: number formats (R177), saturation flags (R178), one
iteration (R179), the initialisation at close (R184), the trim (R182), and the states of R183. -/

namespace Sys2Proof.Machine

/-! ### Settings -/

/-- The five coefficients B0, B1, B2, A1, A2 of a biquad as their registers hold them, and their shifts. -/
structure BiquadSet where
  en : Bool
  coef : List Nat
  sh : List Nat

/-- The settings of one iteration (R177, R179, R184). -/
structure LoopSet where
  f32 : Bool
  initMode : Nat
  off : Int
  gain : Nat
  gainSh : Nat
  b1 : BiquadSet
  b2 : BiquadSet
  kp : Nat
  kpSh : Nat
  ki : Nat
  kiSh : Nat
  kd : Nat
  kdSh : Nat
  iMin : Int
  iMax : Int
  oMin : Int
  oMax : Int
  rate : Nat

/-- Level of a loop (R176): 0 below loop 80, 1 from there. -/
def isLevel0 (m : Nat) : Bool := m < 80

/-- An SH/RW setting of a loop (R198): the active copy of a level 0 loop, the register of a level 1 loop. -/
def Chip.loopInt (c : Chip) (m a : Nat) : Int := if isLevel0 m then c.actInt a else c.rdInt a

def Chip.loopNat (c : Chip) (m a : Nat) : Nat := if isLevel0 m then c.actn a else c.rdn a

/-- The settings of loop m. -/
def Chip.loopSet (c : Chip) (m : Nat) : LoopSet :=
  let a := c.rdn (Reg.MPC_SHIFT_A m)
  let b := c.rdn (Reg.MPC_SHIFT_B m)
  let k := c.rdn (Reg.MPC_SHIFT_C m)
  let s (x i : Nat) : Nat := bitsOf x (5 * i + 4) (5 * i)
  { f32 := c.bit (Reg.MPC_LOOP_CFG m) 0
    initMode := c.fld (Reg.MPC_LOOP_CFG m) 2 1
    off := c.rdInt (Reg.MPC_IN_OFFSET m)
    gain := c.rdn (Reg.MPC_IN_GAIN m)
    gainSh := s a 0
    b1 := ⟨c.bit (Reg.MPC_LOOP_CFG m) 3, (List.range 5).map fun j => c.rdn (Reg.MPC_BQ1 m j), (List.range 5).map fun j => s a (j + 1)⟩
    b2 := ⟨c.bit (Reg.MPC_LOOP_CFG m) 4, (List.range 5).map fun j => c.rdn (Reg.MPC_BQ2 m j), (List.range 5).map fun j => s b j⟩
    kp := c.rdn (Reg.MPC_KP m)
    kpSh := s b 5
    ki := c.rdn (Reg.MPC_KI m)
    kiSh := s k 0
    kd := c.rdn (Reg.MPC_KD m)
    kdSh := s k 1
    iMin := c.loopInt m (Reg.MPC_INT_MIN m)
    iMax := c.loopInt m (Reg.MPC_INT_MAX m)
    oMin := c.loopInt m (Reg.MPC_OUT_MIN m)
    oMax := c.loopInt m (Reg.MPC_OUT_MAX m)
    rate := c.loopNat m (Reg.MPC_RATE m) }

/-! ### Arithmetic (R177, R178) -/

/-- Flags of MPC_LOOP_FLAGS (R198). -/
def lfSAT_ACC : Nat := 0x1
def lfSAT_INT : Nat := 0x2
def lfSAT_OUT : Nat := 0x4
def lfLIMITED : Nat := 0x8
def lfBUSY_CLOSED : Nat := 0x10
def lfFB_LOST : Nat := 0x20
def lfFB_OPENLOOP : Nat := 0x40
def lfGATED_SEEN : Nat := 0x80
def lfL1_MERGED : Nat := 0x100
def lfCMD_REJ : Nat := 0x200

/-- A value with the flags that forming it has set. -/
structure Flagged where
  val : Int
  flags : Nat
  deriving DecidableEq, Repr

/-- Saturation to n bits that sets a flag when it acts. -/
def satF (n : Nat) (flag : Nat) (x : Int) (f : Nat) : Flagged :=
  let y := satS n x
  ⟨y, if y = x then f else f ||| flag⟩

/-- satW, satA and narrowA of R177 to R179. -/
def satW (f32 : Bool) (x : Int) (f : Nat) : Flagged := satF (if f32 then 32 else 16) lfSAT_ACC x f
def satA (f32 : Bool) (x : Int) (f : Nat) : Flagged := satF (if f32 then 48 else 40) lfSAT_ACC x f
def narrowTo (flag : Nat) (f32 : Bool) (x : Int) (f : Nat) : Flagged :=
  if f32 then satF 32 flag x f else satF 16 flag (rndShift x 15) f

/-- term(c, x) of R177. -/
def term (f32 : Bool) (c sh : Nat) (x : Int) : Int :=
  if f32 then rndShift (signOf 32 c * x) sh else signOf 16 c * x

/-- One accumulating line: its terms added one at a time, each addition through satA (R179). -/
def accumulate (f32 : Bool) (ts : List Int) (f : Nat) : Flagged :=
  ts.foldl (fun (a : Flagged) t => satA f32 (a.val + t) a.flags) ⟨0, f⟩

/-- One biquad: its output and histories (R179). -/
def biquad (f32 : Bool) (b : BiquadSet) (h : Int × Int × Int × Int) (x : Int) (f : Nat) :
    Flagged × (Int × Int × Int × Int) :=
  if b.en then
    let (x1, x2, v1, v2) := h
    let m1 : Int := if f32 then 1 else 2
    let t (i : Nat) (y : Int) : Int := term f32 (b.coef.getD i 0) (b.sh.getD i 0) y
    let acc := accumulate f32 [t 0 x, m1 * t 1 x1, t 2 x2, -(m1 * t 3 v1), -(t 4 v2)] f
    let v := narrowTo lfSAT_ACC f32 acc.val acc.flags
    (v, (x, x1, v.val, v1))
  else (⟨x, f⟩, h)

/-- clamp(v, lo, hi) of R179: min(max(v, lo), hi). -/
def clampLo (lo hi v : Int) : Int := min (max v lo) hi

/-- The integrator update of an iteration, or its initialisation in the first one after a close (R179, R184). -/
def integrate (k : LoopSet) (l : Loop) (x pd : Int) (f : Nat) : Flagged :=
  let n := if k.f32 then 48 else 40
  let sc : Int := if k.f32 then 1 else 2 ^ 15
  let i : Flagged :=
    if l.fresh then
      if k.initMode = 0 then satF n lfSAT_INT (l.out * sc - pd) f
      else if k.initMode = 1 then ⟨0, f⟩ else ⟨l.integ, f⟩
    else
      let inc := term k.f32 k.ki k.kiSh x
      if (l.limHi && decide (0 < inc)) || (l.limLo && decide (inc < 0)) then ⟨l.integ, f⟩
      else satF n lfSAT_INT (l.integ + inc) f
  let j := clampLo (k.iMin * sc) (k.iMax * sc) i.val
  ⟨j, if j = i.val then i.flags else i.flags ||| lfSAT_INT⟩

/-- One iteration of R179 with input `inp` and reference `r`: the loop after it and the flags it sets. -/
def iterate (k : LoopSet) (l : Loop) (inp r : Int) : Loop × Nat :=
  let w := k.f32
  let d := satW w (inp - k.off) 0
  let y0 := satA w (term w k.gain k.gainSh d.val) d.flags
  let y := narrowTo lfSAT_ACC w y0.val y0.flags
  let e := satW w (r - y.val) y.flags
  let (x1, h1) := biquad w k.b1 l.h1 e.val e.flags
  let (x, h2) := biquad w k.b2 l.h2 x1.val x1.flags
  let xp := if l.fresh then x.val else l.xprev
  let dx := satW w (x.val - xp) x.flags
  let pd := accumulate w [term w k.kp k.kpSh x.val, term w k.kd k.kdSh dx.val] dx.flags
  let i := integrate k l x.val pd.val pd.flags
  let s := satA w (pd.val + i.val) i.flags
  let u := narrowTo lfSAT_OUT w s.val s.flags
  let ul := clampLo k.oMin k.oMax u.val
  let ur := if k.rate = 0 then ul else clampLo (l.uprev - k.rate) (l.uprev + k.rate) ul
  let out := satS (if w then 32 else 16) ur
  ({ l with
      h1 := h1, h2 := h2, xprev := x.val, uprev := out, integ := i.val, out := out, fresh := false
      limHi := decide (k.oMax < u.val), limLo := decide (u.val < k.oMin) },
    if ul = u.val ∧ ur = ul ∧ out = ur then u.flags else u.flags ||| lfLIMITED)

/-- The trim of R182 and OUT of MPC_LOOP_STATE: the output in F16, or its top half in F32. -/
def Loop.trim (l : Loop) (f32 : Bool) : Int := if f32 then sat16 (rndShift l.out 16) else sat16 l.out

/-! ### States (R183 to R185) -/

/-- A new state: its counts start again. -/
def Loop.enter (l : Loop) (s : LoopState) : Loop := { l with state := s, count := 0, good := 0 }

/-- A CLOSE, from the output held (R183, R184). -/
def Loop.close (l : Loop) : Loop :=
  { l.enter .closed with
    h1 := (0, 0, 0, 0), h2 := (0, 0, 0, 0), xprev := 0, uprev := l.out, limHi := false, limLo := false, fresh := true }

/-- An OPEN (R183): the output is held, or 0 where the loop was in FB_OPEN or GATED. -/
def Loop.open_ (l : Loop) : Loop :=
  match l.state with
  | .open => l
  | .closed => l.enter .open
  | .fbHold => l.enter .open
  | .fbOpen => { l.enter .open with out := 0, uprev := 0 }
  | .gated => { l.enter .open with out := 0, uprev := 0 }

/-- The command taken at a boundary, and whether it is discarded with CMD_REJ (R183). -/
def Loop.take (l : Loop) : Loop × Bool :=
  let m := { l with cmd := 0 }
  if l.cmd = 1 then (m.open_, false)
  else if l.cmd = 2 then
    match l.state with
    | .open => (m.close, false)
    | .gated => (m, true)
    | _ => (m, false)
  else (m, false)

/-- The judgements of R185. -/
inductive Feedback where
  | bad | good | neutral
  deriving DecidableEq, Repr

/-- A tick's judgement: a CLOSED loop goes to FB_HOLD on bad feedback; in FB_HOLD and FB_OPEN the counts
advance (R183, R185). The transitions that the counts bring are due steps of their own. -/
def Loop.judge (l : Loop) (fb : Feedback) : Loop :=
  match l.state, fb with
  | .closed, .bad => l.enter .fbHold
  | .fbHold, .bad => { l with count := l.count + 1, good := 0 }
  | .fbHold, .good => { l with count := l.count + 1, good := l.good + 1 }
  | .fbOpen, .bad => { l with count := l.count + 1, good := 0 }
  | .fbOpen, .good => { l with count := l.count + 1, good := l.good + 1 }
  | _, _ => l

end Sys2Proof.Machine
end

