-- ==== Sys2Proof/Machine/Mpc.lean ====
section
/-! DEFINITION. Melt-pool control: laser and stepper loops in a tick (R180 to R187), level 1 loops (R188,
R189), the power chain (R174) and the Temper unit (R190 to R192). -/

namespace Sys2Proof.Machine

/-- Melt-pool control replaced by its image. -/
def Chip.onMpc (c : Chip) (f : Mpc → Mpc) : Chip := { c with mpc := f c.mpc }

/-- Loop m replaced by its image. -/
def Chip.onLoop (c : Chip) (m : Fin 128) (f : Loop → Loop) : Chip :=
  c.onMpc fun x => { x with loops := upd x.loops m f }

/-- MPC's record of head h replaced by its image. -/
def Chip.onHeadMpc (c : Chip) (h : Fin 64) (f : HeadMpc → HeadMpc) : Chip :=
  c.onMpc fun x => { x with heads := upd x.heads h f }

/-- The laser loop of a head, and the loop of an axis's phase (R176). -/
def laserLoop (h : Fin 64) : Fin 128 := ⟨h.val, by omega⟩
def phaseLoop (a : Fin 8) (p : Fin 2) : Fin 128 := ⟨64 + 2 * a.val + p.val, by omega⟩

/-- Flags of a loop set by an iteration or a transition without an event of its own. -/
def Chip.loopFlags (c : Chip) (m : Nat) (bits : Nat) : Chip :=
  if bits = 0 then c else c.sticky (Reg.MPC_LOOP_FLAGS m) bits

def Chip.loopF32 (c : Chip) (m : Nat) : Bool := c.bit (Reg.MPC_LOOP_CFG m) 0

/-- The trim of loop m (R182). -/
def Chip.trimOf (c : Chip) (m : Fin 128) : Int := (c.mpc.loops[m]).trim (c.loopF32 m)

/-- One iteration of loop m, with input and reference in signal units of F16 (R179, R180). -/
def Chip.runLoop (c : Chip) (m : Fin 128) (inp r : Int) : Chip :=
  let k : Int := if c.loopF32 m && isLevel0 m then 65536 else 1
  let (l, f) := iterate (c.loopSet m) c.mpc.loops[m] (k * inp) (k * r)
  ((c.onLoop m fun _ => l).loopFlags m f).tally blkMPC (if isLevel0 m then 0x10 else 0x11) m.val 1

/-! ### Feedback of laser loops (R180, R185) -/

/-- FB_LAG, PD_SEL, FREEZE_N, HOLD_H, LOST_L and RECOVER in force. -/
def Chip.fbLag (c : Chip) (m : Nat) : Nat := c.actFld (Reg.MPC_FB_CFG m) 12 8
def Chip.pdSel (c : Chip) (m : Nat) : Nat := c.actFld (Reg.MPC_FB_CFG m) 1 0
def Chip.holdH (c : Chip) (m : Nat) : Nat :=
  if isLevel0 m then c.actFld (Reg.MPC_FB_TIME m) 6 0 else c.fld (Reg.MPC_L1_STALE m) 31 16
def Chip.lostL (c : Chip) (m : Nat) : Nat := c.actFld (Reg.MPC_FB_TIME m) 20 8

/-- RECOVER of a loop. Level 1 loops have no such register: their number, one at least, is open (DESIGN CHOICE, log
entry 13). -/
def Chip.recover (c : Chip) (m : Nat) : Nat :=
  if isLevel0 m then c.actFld (Reg.MPC_FB_TIME m) 31 24 else max 1 Config.levelOneRecover

/-- What was sent to a head for an applied tick, while MPC keeps it (R180). -/
def HeadMpc.sent (x : HeadMpc) (a : Nat) : Option (Nat × Nat × Nat × Bool) := x.shaped.find? (·.1 == a)

/-- The head's laser was on at some instant of an applied tick (R182). -/
def HeadMpc.emitting (x : HeadMpc) (a : Nat) : Bool := (x.sent a).any (·.2.2.2)

/-- The eight samples of a photodiode in the set tagged a, if the set is in the snapshot and carries that photodiode, which
PD_MASK may leave out (R234). -/
def HeadMpc.pd? (x : HeadMpc) (a pd : Nat) : Option (List Nat) :=
  (x.sets.find? (·.tick == a)).bind fun s => (s.pds[pd]?).filter fun l => !l.isEmpty

/-- The freeze count over eight samples: the count after them and the largest reached (R185). -/
def freezeRun (n : Nat) (last : Option Nat) : List Nat → Nat × Option Nat × Nat
  | [] => (n, last, n)
  | s :: ss =>
    let k := if last = some s then n + 1 else 1
    let (n', l', m) := freezeRun k (some s) ss
    (n', l', max k m)

/-- The judgement of a laser loop for tick T, and the loop's freeze count after it (R185). -/
def Chip.judgeLaser (c : Chip) (h : Fin 64) (t : Nat) : Feedback × Nat × Option Nat :=
  let m := laserLoop h
  let l := c.mpc.loops[m]
  let x := c.mpc.heads[h]
  let a := t - c.fbLag m
  let em := x.emitting a
  match x.pd? a (c.pdSel m) with
  | none => (.bad, l.freeze, l.lastSample)
  | some ss =>
    let (n, last, top) := if em then freezeRun l.freeze l.lastSample ss else (l.freeze, l.lastSample, 0)
    let lo := c.actFld (Reg.MPC_FB_WIN m) 15 0
    let hi := c.actFld (Reg.MPC_FB_WIN m) 31 16
    let bad := decide (x.pd ≤ c.pdSel m) ||
      (em && (ss.any (fun s => decide (s < lo ∨ hi < s)) || decide (c.actFld (Reg.MPC_FB_CFG m) 28 16 ≤ top)))
    (if bad then .bad else if em then .good else .neutral, n, last)

/-- A judgement recorded: FB_LOST on a bad tick, and the loop's state (R183, R185). -/
def Chip.noteJudged (c : Chip) (m : Fin 128) (fb : Feedback) : Chip :=
  let c := if fb = .bad then c.loopFlags m lfFB_LOST else c
  c.onLoop m fun l => l.judge fb

/-- The judgement of a stepper phase for tick T: its sample set of T − 1 (R263). -/
def Chip.phaseSamples (c : Chip) (a : Fin 8) (p : Fin 2) : List Int :=
  (c.island.samples.getD a.val []).getD p.val []

def judgePhase (ss : List Int) : Feedback :=
  if ss.length ≠ 8 ∨ ss.any (fun s => decide (s.natAbs ≥ 32767)) then .bad else .good

/-- The judgement of a level 1 loop in a tick (R185). -/
def Chip.judgeL1 (c : Chip) (m : Nat) (l : Loop) : Feedback :=
  if c.fld (Reg.MPC_L1_STALE m) 15 0 ≤ l.stale ∨ l.bad then .bad else .good

/-! ### Level 1 loops (R188, R189) -/

/-- Whether loop m is fed from a source. -/
def Chip.feeds (c : Chip) (m kind idx : Nat) : Bool :=
  c.fld (Reg.MPC_L1_SRC m) 3 0 == kind && c.fld (Reg.MPC_L1_SRC m) 11 4 == idx

/-- A trigger of a loop: merged where one waits. -/
def Chip.trigger (c : Chip) (m : Fin 128) (k : Nat) : Chip :=
  if (c.mpc.loops[m]).trig ≠ 0 then c.loopFlags m lfL1_MERGED
  else c.onLoop m fun l => { l with trig := k }

/-- A new source value of a level 1 loop (R185, R188): one outside the window is bad feedback at once. -/
def Chip.l1Value (c : Chip) (m : Fin 128) (v : Int) : Chip :=
  let c := c.onLoop m fun l => { l with src := v, stale := 0 }
  if v < c.rdInt (Reg.MPC_L1_WIN_LO m) ∨ c.rdInt (Reg.MPC_L1_WIN_HI m) < v then
    let c := c.onLoop m fun l => { l with bad := true }
    if (c.mpc.loops[m]).state = .closed then (c.loopFlags m lfFB_LOST).onLoop m fun l => l.enter .fbHold else c
  else if c.bit (Reg.MPC_L1_TRIG m) 0 ∧ (c.mpc.loops[m]).state = .closed then c.trigger m 1
  else c

/-- The level 1 loops. -/
def l1List : List (Fin 128) := (List.finRange 128).filter fun m => !isLevel0 m

/-- A new value delivered to every level 1 loop that a source feeds. -/
def Chip.l1Feed (c : Chip) (kind idx : Nat) (v : Int) : Chip :=
  l1List.foldl (fun (c : Chip) (m : Fin 128) => if c.feeds m kind idx then c.l1Value m v else c) c

/-- The features of a record that reaches MPC, delivered to the loops that take them (R188, R214). -/
def Chip.l1Feature (c : Chip) (pipe head : Nat) (feats : List Nat) : Chip :=
  l1List.foldl (fun (c : Chip) (m : Fin 128) =>
    let f := c.fld (Reg.MPC_L1_SRC m) 27 20
    if c.feeds m 1 pipe && (f == 0xFF || f == head) then
      match feats[c.fld (Reg.MPC_L1_SRC m) 19 12]? with
      | some v => c.l1Value m v
      | none => c
    else c) c

/-- The output of a level 1 loop written to its destination (R188, R282). -/
def Chip.l1Write (c : Chip) (m : Fin 128) (v : Int) : Chip :=
  let idx := c.fld (Reg.MPC_L1_DEST m) 11 4
  match c.fld (Reg.MPC_L1_DEST m) 3 0 with
  | 1 =>
    match inst? 64 idx with
    | some h => c.onHeadMpc h fun x => { x with
        trimNext := some (if c.loopF32 m then sat16 (rndShift v 16) else sat16 v) }
    | none => c
  | 2 =>
    match inst? 24 idx with
    | some p =>
      if (c.port[p]).state = .run ∧ c.fld (Reg.EFP_CFG p) 2 0 = 5 ∧ c.bit (Reg.EFP_OUT p) 16 then
        let d := clampInt 0 65535 v
        let c := { c with port := upd c.port p fun x => { x with dutyL1 := d.toNat } }
        if d = v then c else c.sticky (Reg.EFP_FLAGS p) 0x80
      else c.sticky (Reg.EFP_FLAGS p) 0x100
    | none => c
  | 3 => if 80 ≤ idx ∧ idx < 128 then c.wr (Reg.MPC_L1_SETPOINT idx) (BitVec.ofInt 32 v) else c
  | _ => c

/-- The iteration that a trigger has queued: it runs on the newest source value and writes its output (R188). -/
def Chip.l1Iterate (c : Chip) (m : Fin 128) : Chip :=
  let l := c.mpc.loops[m]
  let c := c.onLoop m fun l => { l with trig := 0 }
  if l.state = .closed then
    let c := c.runLoop m l.src (c.rdInt (Reg.MPC_L1_SETPOINT m))
    let c := c.bump (Reg.MPC_L1_ITER m)
    let v := (c.mpc.loops[m]).out
    let c := c.wr (Reg.MPC_L1_OUT m) (BitVec.ofInt 32 v)
    (c.l1Write m v).l1Feed 3 m v
  else c

/-- A queued iteration of a kind, if one waits. -/
def Chip.l1Take (c : Chip) (m : Fin 128) (k : Nat) : Chip :=
  if (c.mpc.loops[m]).trig = k ∧ !isLevel0 m then c.l1Iterate m else c

/-! ### Transitions that a count has brought (R183, R186) -/

/-- Recovery is due. -/
def Chip.recoverDue (c : Chip) (m : Fin 128) : Bool :=
  let l := c.mpc.loops[m]
  (l.state = .fbHold || l.state = .fbOpen) && decide (c.recover m ≤ l.good)

/-- PERIOD of a level 1 loop, in ticks. -/
def Chip.l1Period (c : Chip) (m : Nat) : Nat := c.fld (Reg.MPC_L1_TRIG m) 31 8

/-- FB_RECOVER: as a CLOSE, from the held output or from 0; ON_PERIOD counts from the boundary of the tick in progress. -/
def Chip.fbRecover (c : Chip) (m : Fin 128) : Chip :=
  if c.recoverDue m then c.onLoop m fun l => { l.close with period := c.l1Period m } else c

/-- FB_OPENLOOP: the output becomes 0. The run of good ticks goes on, as only a bad tick ends it (R185). -/
def Chip.fbOpenLoop (c : Chip) (m : Fin 128) : Chip :=
  let l := c.mpc.loops[m]
  if !c.recoverDue m && decide (l.state = .fbHold) && decide (c.holdH m ≤ l.count) then
    (c.onLoop m fun l => { l.enter .fbOpen with good := l.good, out := 0, uprev := 0, failed := false }).flag
      (Reg.MPC_LOOP_FLAGS m) (loopInst m) lfFB_OPENLOOP 0
  else c

/-- FAIL_OUT: a level 1 loop in FB_OPEN, its FB_HOLD time having elapsed, writes FAIL_OUT once (R183). -/
def Chip.failOut (c : Chip) (m : Fin 128) : Chip :=
  let l := c.mpc.loops[m]
  if !isLevel0 m && !c.recoverDue m && decide (l.state = .fbOpen) && !l.failed then
    (c.onLoop m fun l => { l with failed := true }).l1Write m (c.rdInt (Reg.MPC_L1_FAIL_OUT m))
  else c

/-- GATED: a laser loop that has been in FB_OPEN for LOST_L advancing ticks; its head's claims return (R186). -/
def Chip.gateLoop (c : Chip) (h : Fin 64) : Chip :=
  let m := laserLoop h
  let l := c.mpc.loops[m]
  if !c.recoverDue m && decide (l.state = .fbOpen) && decide (c.lostL m ≤ l.count) then
    ((c.onLoop m fun l => l.enter .gated).flag (Reg.MPC_LOOP_FLAGS m) (loopInst m) lfGATED_SEEN 0).handBack h
  else c

/-- Every transition of laser and level 1 loops that is due and has not been taken. -/
def Chip.takeLoopDues (c : Chip) : Chip :=
  (List.finRange 128).foldl (fun c (m : Fin 128) =>
    let c := c.fbRecover m
    let c := c.fbOpenLoop m
    let c := c.failOut m
    match inst? 64 m.val with
    | some h => c.gateLoop h
    | none => c) c

/-- Level 1 iterations still queued. -/
def Chip.takeL1 (c : Chip) : Chip :=
  l1List.foldl (fun (c : Chip) (m : Fin 128) => if (c.mpc.loops[m]).trig = 0 then c else c.l1Iterate m) c

/-! ### A tick's loops -/

/-- Whether a loop exists: the laser loops of disabled heads do not (R176). -/
def Chip.hasLoop (c : Chip) (m : Nat) : Bool := decide (64 ≤ m) || c.headOn m

/-- The command of a loop taken at a boundary (R183, R189). ON_PERIOD counts from that boundary, whose own tick of the count
is the one that `period` holds beyond PERIOD. -/
def Chip.takeLoopCmd (c : Chip) (m : Fin 128) : Chip :=
  let l := c.mpc.loops[m]
  if l.cmd = 0 then c
  else
    let (k, rej) := l.take
    let k := if k.state = .closed ∧ l.state = .open then { k with period := c.l1Period m + 1 } else k
    let c := c.onLoop m fun _ => k
    let c := if rej then c.loopFlags m lfCMD_REJ else c
    if !isLevel0 m && decide (l.state ≠ .open) && decide (k.state = .open) && c.fld (Reg.MPC_L1_DEST m) 3 0 == 1 then
      match inst? 64 (c.fld (Reg.MPC_L1_DEST m) 11 4) with
      | some h => c.onHeadMpc h fun x => { x with refTrim := 0, trimNext := none }
      | none => c
    else c

/-- Level 1 loops at a boundary: the judgement, with the whole ticks that have passed since the tick of the last value, and the
period trigger (R185, R188). -/
def Chip.tickL1 (c : Chip) (m : Fin 128) : Chip :=
  let c := c.noteJudged m (c.judgeL1 m c.mpc.loops[m])
  let c := c.onLoop m fun l => { l with stale := l.stale + 1, bad := false }
  let l := c.mpc.loops[m]
  if l.state = .closed ∧ c.bit (Reg.MPC_L1_TRIG m) 1 then
    if l.period ≤ 1 then
      (c.onLoop m fun l => { l with period := c.l1Period m }).trigger m 2
    else c.onLoop m fun l => { l with period := l.period - 1 }
  else c

/-- The snapshot of tick T: sample sets received before the boundary, and REF_TRIM values written (R47, R189). -/
def Chip.snapshotMpc (c : Chip) : Chip :=
  c.onMpc fun x => { x with heads := updAll x.heads fun _ (h : HeadMpc) => { h with
    sets := (h.newSets ++ h.sets).take 64
    newSets := []
    refTrim := h.trimNext.getD h.refTrim
    trimNext := none } }

/-- The loops at the boundary of tick T: commands, then the judgements (R183, R185). -/
def Chip.openLoops (c : Chip) (t : Nat) : Chip :=
  let c := (List.finRange 128).foldl (fun c m => c.takeLoopCmd m) c.snapshotMpc
  let c := c.headList.foldl (fun c (h : Fin 64) =>
    let (fb, n, last) := c.judgeLaser h t
    (c.noteJudged (laserLoop h) fb).onLoop (laserLoop h) fun l => { l with freeze := n, lastSample := last }) c
  let c := (List.finRange 8).foldl (fun c (a : Fin 8) => (List.finRange 2).foldl (fun c (p : Fin 2) =>
    c.noteJudged (phaseLoop a p) (judgePhase (c.phaseSamples a p))) c) c
  l1List.foldl (fun (c : Chip) (m : Fin 128) => c.tickL1 m) c

/-- A laser loop in the power stage of tick T: it iterates when CLOSED and its measured tick was emitting
(R180, R182), unless it misses the stage (R48). -/
def Chip.powerLaser (c : Chip) (h : Fin 64) (t : Nat) : Chip :=
  let m := laserLoop h
  let x := c.mpc.heads[h]
  let a := t - c.fbLag m
  if (c.mpc.loops[m]).state = .closed ∧ !c.ttu.miss.pwr.getLsbD h then
    match x.sent a, x.pd? a (c.pdSel m) with
    | some (_, q0, q8, true), some ss =>
      let pref := (q0 + q8 + 1) / 2
      let r := sat16 (rndShift ((pref / 2 : Nat) * c.actFld (Reg.MPC_REF_GAIN m) 15 0 * (32768 + x.refTrim)) 29)
      c.runLoop m ((ss.sum + 8) / 16 : Nat) r
    | _, _ => c
  else c

/-- A stepper phase loop in the power stage (R263). -/
def Chip.powerPhase (c : Chip) (a : Fin 8) (p : Fin 2) : Chip :=
  let m := phaseLoop a p
  let ss := c.phaseSamples a p
  if (c.mpc.loops[m]).state = .closed ∧ ss.length = 8 ∧ !c.ttu.miss.axl.getLsbD (2 * a.val + p.val) then
    let r := c.axis[a].refs
    c.runLoop m (asr (ss.sum + 4) 3) (if p = 0 then r.1 else r.2)
  else c

/-! ### The Temper map (R190) -/

/-- The cell of a point in LSB (R190). -/
def Grid.cell (g : Grid) (p : Pt) : Option Nat :=
  let i := (p.x - g.x0).fdiv 8000
  let j := (p.y - g.y0).fdiv 8000
  if 0 ≤ i ∧ i < g.nx ∧ 0 ≤ j ∧ j < g.ny then some (j.toNat * g.nx + i.toNat) else none

/-- An embedded code as it applies. -/
def clampCode (x : Nat) : Nat := max 0x4000 (min 0xC000 x)

def Chip.onTemper (c : Chip) (f : Temper → Temper) : Chip := c.onMpc fun x => { x with temper := f x.temper }

/-- Where the two map buffers and the accumulators lie in the MPC region, 8 bytes of accumulator for each cell: SUM, CNT and
two bytes unused (DESIGN CHOICE, log entry 97). -/
def mapBase (buf : Bool) : Nat := if buf then 0x40800000 else 0x40000000
def accAddr (k : Nat) : Nat := 0x42000000 + 8 * k

/-- A cell's code read from DRAM: one that is uncorrectable applies 0x8000 (R190, R304). -/
def Chip.readCode (e : Env) (c : Chip) (a k : Nat) : Chip × Option Nat :=
  let (c, d) := c.dramRead e reqMPC (a + 2 * k) 2
  if d.ok then (c, some (leNat d.bytes)) else (c.onTemper fun t => { t with lost := k :: t.lost }, none)

/-- The code under a point, and the MPC_PWR_FLAGS bits that reading it sets. `late`: the cell was not
fetched by C. -/
def Chip.temperAt (e : Env) (c : Chip) (late : Bool) (p : Pt) : Chip × Nat × Nat :=
  let place : Option (Nat × Nat) := match c.mpc.temper.map with
    | .unity => none
    | .carried g => (g.cell p).map fun k => (mapBase c.mpc.temper.buf, k)
    | .embedded g a => (g.cell p).map fun k => (a, k)
  match place with
  | none => (c, 0x8000, 0)
  | some (a, k) =>
    if late then (c, 0x8000, 0x8)
    else
      match c.readCode e a k with
      | (c, some x) => (c, clampCode x, if clampCode x = x then 0 else 0x2)
      | (c, none) => (c, 0x8000, 0x8)

/-! ### The power chain (R174) -/

/-- A power clamped at 0xFFFF, and whether the clamp acted. -/
def satPower (x : Int) : Nat × Bool := if 0xFFFF < x then (0xFFFF, true) else (x.toNat, false)

/-- One end of the pair: shaped power, commanded power, PWR_SAT and whether the cap lowered it. -/
def powerEnd (p f code : Nat) (t : Int) (cap : Nat) (gate : Bool) : Nat × Nat × Bool × Bool :=
  let (psh, s1) := satPower (rndShift (p * f * code : Nat) 31)
  let (pl, s2) := satPower (rndShift (psh * (32768 + t)) 15)
  (psh, if gate then min pl cap else 0, s1 || s2, decide (cap < pl))

/-- The edges of a tick whose planned laser state at u = 0 is `on0`, sent after a tick that ended in state `lit`: a
forced change of the state is an edge at u = 0 (R50, R115, R240). -/
def joinEdges (lit on0 : Bool) (es : List (Nat × Bool)) : List (Nat × Bool) :=
  if lit = on0 then es
  else
    match es with
    | (0, _) :: rest => rest
    | _ => (0, on0) :: es

/-- The laser state after edges. -/
def endState (lit : Bool) (es : List (Nat × Bool)) : Bool := (es.getLast?.map (·.2)).getD lit

/-- The chain of one head in tick T, and what MPC keeps of it for T + 3 (R174, R180). With PWR_EN 0, and
while the head is gated, its laser is forced off. -/
def Chip.powerChain (e : Env) (c : Chip) (h : Fin 64) (t : Nat) (late : Bool) : Chip :=
  let m := laserLoop h
  let en := c.mpc.pwrTick
  let o := c.hd[h].out
  let (c, k0, f0) := c.temperAt e late o.p0
  let (c, k3, f3) := c.temperAt e late o.p3
  let trim := c.trimOf m
  let cap := c.actFld (Reg.MPC_PWR_CAP m) 15 0
  let gate := en && !c.gated h
  let (s0, w0, x0, y0) := powerEnd o.sched.1 o.seam.1 k0 trim cap gate
  let (s3, w3, x3, y3) := powerEnd o.sched.2 o.seam.2 k3 trim cap gate
  let lowered := (y0 && o.sched.1 != 0) || (y3 && o.sched.2 != 0)
  let bits := b2n (x0 || x3) ||| f0 ||| f3 ||| (if lowered then 0x4 else 0)
  let c := if bits = 0 then c else c.sticky (Reg.MPC_PWR_FLAGS m) bits
  let c := if lowered then (c.bump (Reg.MPC_POLICY_CLAMP m)).tally blkMPC 0x12 h.val 1 else c
  let c := c.wrn (Reg.MPC_PWR_LAST m) (w0 + 2 ^ 16 * w3)
  let c := c.onHead h fun x =>
    let es := if en then joinEdges x.lit x.out.laser0 x.out.edges else if x.lit then [(0, false)] else []
    { x with
      lit := endState x.lit es
      out := { x.out with
        power := if en then (w0, w3) else (0, 0), shaped := (s0, s3)
        on := en && x.out.on, laser0 := x.lit, edges := es } }
  c.onHeadMpc h fun x => { x with shaped := ((t + 3, s0, s3, c.hd[h].out.on) :: x.shaped).take 64 }

/-! ### Temper learning (R191, R192) -/

def Chip.tmpGrace (c : Chip) : Nat := c.fld Reg.MPC_TMP_GRACE 15 0
def Chip.tmpTarget (c : Chip) : Nat := c.fld Reg.MPC_TMP_TARGET 15 0

/-- A cell's SUM and CNT; those of an uncorrectable accumulator count as 0 (R304). -/
def Chip.readAcc (e : Env) (c : Chip) (k : Nat) : Chip × (Int × Nat) :=
  let (c, d) := c.dramRead e reqMPC (accAddr k) 8
  (c, if d.ok then (leSAt d.bytes 0 4, leAt d.bytes 4 2) else (0, 0))

/-- One accumulation (R191). -/
def Chip.accumulate (e : Env) (c : Chip) (target f k : Nat) : Chip :=
  let x := sat16 (rndDiv (((target : Int) - f) * 32768) target)
  let (c, s, n) := c.readAcc e k
  (c.dramWrite e reqMPC (accAddr k) (leBytes 4 (unsOf 32 (satS 32 (s + x))) ++ leBytes 2 (min (n + 1) 65535) ++ [0, 0])).1

/-- The window of the layer that is learned contains a start of exposure. -/
def Temper.inWindow (t : Temper) (grace soe : Nat) : Bool :=
  decide (t.from_ ≤ soe) && (match t.until_ with | none => true | some u => decide (soe < u + grace))

/-- A feature record that reaches MPC (R191, R214), with the tick of its frame's start of exposure. -/
def Chip.temperRecord (e : Env) (c : Chip) (soe : Nat) (p : Pt) (feats : List Nat) : Chip :=
  let t := c.mpc.temper
  match feats[c.fld Reg.MPC_TMP_TARGET 23 16]? with
  | none => c
  | some f =>
    if c.tmpTarget = 0 then c
    else if (t.phase = .learning || t.phase = .grace) && t.inWindow c.tmpGrace soe then
      match t.learnGrid.bind (·.cell p) with
      | some k => c.accumulate e c.tmpTarget f k
      | none => c
    else
      let late := (t.phase = .grace && decide (t.from_ ≤ soe)) ||
        (match t.prev with | some (a, b) => decide (a ≤ soe ∧ soe < b) | none => false)
      if late then (c.bump Reg.MPC_TMP_LATE_CNT).sticky Reg.MPC_TMP_STATUS 0x100 else c

/-- The window of the learning in hand, once it ends. -/
def Temper.window (t : Temper) (grace : Nat) : Option (Nat × Nat) := t.until_.map fun u => (t.from_, u + grace)

/-- The learning in hand is abandoned: TMP_ABANDONED and an event (R191, R192). -/
def Chip.temperAbandon (c : Chip) : Chip :=
  if c.mpc.temper.phase = .grace ∨ c.mpc.temper.phase = .finalising then
    (c.onTemper fun t => { t with phase := .idle, prev := (t.window c.tmpGrace).orElse fun _ => t.prev }).flag
      Reg.MPC_TMP_STATUS .none 0x200 0
  else c

/-- Codes of an embedded map where they are not 0x8000, as they apply. -/
def embeddedCodes (e : Env) (c : Chip) (a n : Nat) : List (Nat × Nat) :=
  (List.range n).filterMap fun k =>
    let x := clampCode (leNat [c.dramByte e (a + 2 * k), c.dramByte e (a + 2 * k + 1)])
    if x = 0x8000 then none else some (k, x)

/-- The Temper unit at a layer's first tick: the map in force (R80, R81, R192), learning in cleared
accumulators where it is on, and whether a carry-mode layer falls back to 1.0. -/
def Chip.temperStart (e : Env) (c : Chip) (i : Ingot) (t : Nat) : Chip × Bool :=
  let c := c.temperAbandon
  let g : Grid := ⟨i.nx, i.ny, i.x0, i.y0⟩
  let m := c.mpc.temper
  let use := i.temperMode = 1 ∧ m.ready ∧ m.learnGrid = some g
  let map : TemperMap :=
    if i.temperMode = 2 then .embedded g (i.base + i.temperOff) else if use then .carried g else .unity
  let old := if i.temperMode = 2 then embeddedCodes e c (i.base + i.temperOff) (i.nx * i.ny) else []
  let learn := (i.temperMode = 1 || i.temperMode = 2) && c.tmpTarget != 0
  let c := c.onTemper fun x => { x with map := map, ready := false, lost := [] }
  let c := if learn then
      (c.issue (.dramZero (accAddr 0) (8 * (i.nx * i.ny)))).onTemper fun x => { x with
        phase := .learning, learnGrid := some g, carry := use, old := old, written := false, from_ := t, until_ := none }
    else c
  (c, i.temperMode = 1 ∧ ¬use)

/-- The end boundary of a layer that is learned opens its grace window. -/
def Chip.temperEnd (c : Chip) (t : Nat) : Chip :=
  if c.mpc.temper.phase = .learning then c.onTemper fun x => { x with phase := .grace, until_ := some t } else c

/-- TEMPER_FINALISE, TMP_GRACE ticks after the end boundary. -/
def Chip.temperFinalise (c : Chip) : Chip :=
  let t := c.mpc.temper
  match t.phase, t.until_ with
  | .grace, some u =>
    if u + c.tmpGrace ≤ c.ttu.index then
      c.onTemper fun t => { t with phase := .finalising, prev := t.window c.tmpGrace }
    else c
  | _, _ => c

/-- The new code of a cell (R191). -/
def newCode (gain minCnt lo hi old : Nat) (sum : Int) (cnt : Nat) : Nat :=
  let nw : Int :=
    if minCnt ≤ cnt ∧ 0 < cnt then
      let mean := sat16 (rndDiv sum cnt)
      rndShift (old * (32768 + rndShift (gain * mean) 15)) 15
    else old
  (clampInt lo hi nw).toNat

/-- The code that a cell applied in the layer that has been learned (R190, R191). -/
def Chip.oldCode (e : Env) (c : Chip) (k : Nat) : Chip × Nat :=
  let t := c.mpc.temper
  if t.lost.contains k then (c, 0x8000)
  else if t.carry then
    let (c, x) := c.readCode e (mapBase t.buf) k
    (c, clampCode (x.getD 0x8000))
  else (c, (findKey k t.old).getD 0x8000)

/-- The new codes of the cells from k on. -/
def Chip.newCodes (e : Env) : Nat → Nat → Chip → Chip × List Byte
  | 0, _, c => (c, [])
  | n + 1, k, c =>
    let (c, old) := c.oldCode e k
    let (c, s, cnt) := c.readAcc e k
    let x := newCode (c.fld Reg.MPC_TMP_CFG 15 0) (c.fld Reg.MPC_TMP_CFG 31 16) (c.fld Reg.MPC_TMP_BOUNDS 15 0)
      (c.fld Reg.MPC_TMP_BOUNDS 31 16) old s cnt
    let (c, bs) := Chip.newCodes e n (k + 1) c
    (c, leBytes 2 x ++ bs)

/-- The work of finalisation: the new map is written beside the one in use. -/
def Chip.temperWork (e : Env) (c : Chip) : Chip :=
  let t := c.mpc.temper
  match t.phase, t.learnGrid with
  | .finalising, some g =>
    if t.written then c
    else
      let (c, bs) := Chip.newCodes e (g.nx * g.ny) 0 c
      (c.dramWrite e reqMPC (mapBase !t.buf) bs).1.onTemper fun t => { t with written := true }
  | _, _ => c

/-- TEMPER_READY: finalisation completes, and the new map is the one that the next layer may carry. -/
def Chip.temperReady (e : Env) (c : Chip) : Chip :=
  if c.mpc.temper.phase = .finalising ∧ c.mpc.temper.learnGrid.isSome then
    (c.temperWork e).onTemper fun t => { t with phase := .idle, ready := true, buf := !t.buf, old := [], lost := [] }
  else c

/-- MPC_TMP_STATUS [2:0]. -/
def Temper.status (t : Temper) : Nat :=
  b2n (t.phase = .learning) + 2 * b2n (t.phase = .finalising) + 4 * b2n t.ready

end Sys2Proof.Machine
end

