-- ==== Sys2Proof/Machine/Camera.lean ====
section
/-! DEFINITION. Camera pipelines: framing (R199 to R207), pixel stages and blobs (R208, R209), the history
and the association with a head (R210), features and records (R211 to R214), exposure generations (R215 to
R219), the identity read (R220) and full-frame output (R221, R222). -/

namespace Sys2Proof.Machine

/-- Pipeline p replaced by its image. -/
def Chip.onCam (c : Chip) (p : Fin 16) (f : Cam → Cam) : Chip := { c with cam := upd c.cam p f }

/-- CAM_FLAGS bits (R224). -/
def cfCFG_ERR : Nat := 0x1
def cfID_ERR : Nat := 0x2
def cfPHY_ERR : Nat := 0x4
def cfFOREIGN : Nat := 0x8
def cfECC_UE : Nat := 0x10
def cfORPHAN : Nat := 0x20
def cfLINE_CRC : Nat := 0x40
def cfLINE_FIX : Nat := 0x80
def cfFRAME_SHORT : Nat := 0x100
def cfFRAME_CUT : Nat := 0x200
def cfFS_NO_FE : Nat := 0x400
def cfFRAME_TMO : Nat := 0x800
def cfCCI_ERR : Nat := 0x1000
def cfEXP_SUPERSEDED : Nat := 0x2000
def cfBLOB_OVF : Nat := 0x4000
def cfHIST_MISS : Nat := 0x8000
def cfDMA_DROP : Nat := 0x10000
def cfFF_THROTTLED : Nat := 0x20000

def Chip.camSticky (c : Chip) (p : Fin 16) (bits : Nat) : Chip := c.sticky (Reg.CAM_FLAGS p) bits
def Chip.camFlag (c : Chip) (p : Fin 16) (bits p2 : Nat) : Chip := c.flag (Reg.CAM_FLAGS p) (.other p) bits p2

/-! ### Settings -/

/-- ROI k as its shadow registers hold it (the active copies after a commit). -/
def Chip.roiAt (c : Chip) (active : Bool) (p k : Nat) : Roi :=
  let f (a hi lo : Nat) : Nat := if active then c.actFld a hi lo else c.fld a hi lo
  ⟨k, f (Reg.CAM_ROI_POS p k) 12 0, f (Reg.CAM_ROI_POS p k) 28 16, f (Reg.CAM_ROI_SIZE p k) 12 0, f (Reg.CAM_ROI_SIZE p k) 28 16⟩

/-- The enabled ROIs, in index order. -/
def Chip.rois (c : Chip) (active : Bool) (p : Nat) : List Roi :=
  let en := if active then c.actFld (Reg.CAM_CTRL p) 7 4 else c.fld (Reg.CAM_CTRL p) 7 4
  ((List.range 4).filter (bitOf en ·)).map fun k => c.roiAt active p k

/-- The defect entries in use (R208). -/
def Chip.defects (c : Chip) (p : Nat) : List (Nat × Nat) :=
  (List.range (c.fld (Reg.CAM_DEFECT_CFG p) 5 0)).map fun i =>
    (c.fld (Reg.CAM_DEFECT p i) 12 0, c.fld (Reg.CAM_DEFECT p i) 28 16)

/-- The settings of a frame that opens: RWQ registers and committed SH registers (R207). -/
def Chip.camCfg (c : Chip) (p : Nat) : CamCfg where
  dt := c.fld (Reg.CAM_BIND p) 5 0
  width := c.fld (Reg.CAM_GEOM p) 12 0
  height := c.fld (Reg.CAM_GEOM p) 28 16
  pad := c.fld (Reg.CAM_FRAME_CFG p) 13 0
  black := c.actFld (Reg.CAM_PIX_CFG p) 13 0
  thresh := c.actFld (Reg.CAM_PIX_CFG p) 29 16
  assoc := c.actFld (Reg.CAM_ASSOC_CFG p) 15 0
  rois := c.rois true p
  defects := c.defects p
  heads := c.rdPair (Reg.CAM_HEAD_MASK_LO p)
  m00 := c.rdInt (Reg.CAM_XF_M00 p)
  m01 := c.rdInt (Reg.CAM_XF_M01 p)
  m10 := c.rdInt (Reg.CAM_XF_M10 p)
  m11 := c.rdInt (Reg.CAM_XF_M11 p)
  tx := c.rdInt (Reg.CAM_XF_TX p)
  ty := c.rdInt (Reg.CAM_XF_TY p)

/-- The commit of a pipeline's SH registers at an accepted FS (R207). -/
def Chip.camCommit (c : Chip) (p : Nat) : Chip :=
  let ks := [Reg.CAM_CTRL p, Reg.CAM_PIX_CFG p, Reg.CAM_ASSOC_CFG p] ++
    (List.range 4).flatMap fun k => [Reg.CAM_ROI_POS p k, Reg.CAM_ROI_SIZE p k]
  ks.foldl Chip.commitReg c

/-- The configuration is valid (R203). -/
def Chip.camValid (c : Chip) (p : Nat) : Bool :=
  let w := c.fld (Reg.CAM_GEOM p) 12 0
  let h := c.fld (Reg.CAM_GEOM p) 28 16
  (c.rois false p).all (fun r => r.w != 0 && r.h != 0 && decide (r.x0 + r.w ≤ w) && decide (r.y0 + r.h ≤ h)) &&
    (c.defects p).all (fun d => decide (d.1 < w) && decide (d.2 < h)) &&
    (c.bit (Reg.CAM_PHY_CFG p) 15 || decide (c.fld (Reg.CAM_PHY_CFG p) 11 0 ≤ 1500))

/-! ### Exposure generations (R216 to R219) -/

/-- The result of a generation (CAM_EXP_STATE). -/
def Cam.result (k : Cam) (res gen : Nat) : Cam := { k with lastRes := res, resGen := gen }

/-- A PEND generation becomes SUPERSEDED. -/
def Cam.supersede (k : Cam) : Cam :=
  match k.pend with
  | none => k
  | some g => { k.result 2 g.num with pend := none }

/-- COMMIT: a new PEND generation (R216). -/
def Chip.expCommit (c : Chip) (p : Fin 16) : Chip :=
  let k := c.cam[p]
  let c := if k.pend.isSome then c.camSticky p cfEXP_SUPERSEDED else c
  let num := if k.lastGen = 65535 then 1 else k.lastGen + 1
  let n := c.fld (Reg.CAM_EXP_CTRL p) 3 0
  let g : ExpGen := ⟨num, c.fld (Reg.CAM_EXP_NS p) 24 0, (List.range n).map fun i => c.rdn (Reg.CAM_EXP_WR p i)⟩
  c.onCam p fun k => { k.supersede with pend := some g, lastGen := num }

/-- A transfer that completes: the generation applies K_LAT frames after the next frame to open (R217). -/
def Chip.cciDone (c : Chip) (p : Fin 16) (g : ExpGen) : Chip :=
  let lat := c.fld (Reg.CAM_CCI_CFG p) 13 12
  c.onCam p fun k => { k with
    xfer := none
    waiting := k.waiting ++ [⟨g.num, g.expNs, k.seq + 1 + lat, true⟩] }

/-- The register address of a CCI transaction: 1 or 2 bytes, MSB first (R215). -/
def Chip.cciAddr (c : Chip) (p : Fin 16) (reg : Nat) : List Byte :=
  if c.bit (Reg.CAM_CCI_CFG p) 8 then (leBytes 2 reg).reverse else leBytes 1 reg

/-- DEV_ADDR with the read or write bit. -/
def Chip.cciDevice (c : Chip) (p : Fin 16) (rd : Bool) : Byte := BitVec.ofNat 8 (2 * c.fld (Reg.CAM_CCI_CFG p) 6 0 + b2n rd)

/-- The bytes of the register write that a CAM_EXP_WR word holds (R215, R216). -/
def Chip.cciBytes (c : Chip) (p : Fin 16) (w : Nat) : List Byte :=
  let data := bitsOf w 31 16
  c.cciDevice p false :: c.cciAddr p (bitsOf w 15 0) ++
    if c.bit (Reg.CAM_CCI_CFG p) 9 then (leBytes 2 data).reverse else leBytes 1 data

/-- A transaction that sends bytes. -/
def cciSend (bs : List Byte) : List CciSym := .start :: bs.map .byte ++ [.stop]

/-- The transactions of a transfer: one for each write, and where one fails, no byte of it after the first that is not
acknowledged, and none of a later one (R215, R219). -/
def Chip.cciTransfer (c : Chip) (p : Fin 16) (ws : List Nat) (failed : Option CciFail) : List CciSym :=
  match failed with
  | none => ws.flatMap fun w => cciSend (c.cciBytes p w)
  | some f => ((ws.take f.write).flatMap fun w => cciSend (c.cciBytes p w)) ++
      cciSend ((c.cciBytes p (ws.getD f.write 0)).take (f.acked + 1))

/-- The identity read: the register's address written, and after a repeated START ID_LEN bytes read (R220). -/
def Chip.cciIdentity (c : Chip) (p : Fin 16) : List CciSym :=
  let n := c.fld (Reg.CAM_ID_CFG p) 19 16
  if n = 0 then []
  else .start :: .byte (c.cciDevice p false) :: (c.cciAddr p (c.fld (Reg.CAM_ID_CFG p) 15 0)).map .byte ++
    [.start, .byte (c.cciDevice p true), .read n, .stop]

/-- A PEND generation begins its transfer in a frame gap, in IDLE, when no transfer runs. One without writes
ends at once (R217). -/
def Chip.cciStart (c : Chip) (p : Fin 16) : Chip :=
  let k := c.cam[p]
  match k.pend with
  | some g =>
    if k.state = .idle ∧ k.gap ∧ k.xfer.isNone then
      let c := c.onCam p fun k => { k with pend := none, xfer := some g, cci := c.cciTransfer p g.writes none }
      if g.writes.isEmpty then c.cciDone p g else c
    else c
  | none => c

/-- A transfer ends: it completes, or fails at a write (R217, R219). -/
def Chip.cciEnd (c : Chip) (p : Fin 16) (failed : Option CciFail) : Chip :=
  match (c.cam[p]).xfer with
  | none => c
  | some g =>
    match failed with
    | none => c.cciDone p g
    | some f =>
      (c.onCam p fun k => { k.result 3 g.num with
        xfer := none, uncertain := true, cci := c.cciTransfer p g.writes (some f)
        waiting := k.waiting.map fun w => { w with clean := false } }).camFlag p cfCCI_ERR f.write

/-- The generations that apply to frame n take effect (R218). -/
def Cam.applyGens (k : Cam) (n : Nat) : Cam :=
  let due := k.waiting.filter (·.apply ≤ n)
  let rest := k.waiting.filter fun w => n < w.apply
  match due.foldl (fun (m : Option ExpWait) w =>
      match m with
      | none => some w
      | some x => if x.apply ≤ w.apply then some w else some x) none with
  | none => k
  | some w => { k.result 1 w.num with
      gen := w.num, genNs := w.expNs, waiting := rest, uncertain := k.uncertain && !due.any (·.clean) }

/-! ### Framing (R203 to R207) -/

/-- Whether a frame buffer of the pipeline's ring can be taken: the ring, if one is enabled. -/
def Chip.camRing (c : Chip) (type p : Nat) : Option (Fin 256) :=
  (List.finRange 256).find? fun r =>
    c.ringType r == type && c.ringBind r == p && (c.ring r).runs

/-- The bucket's 32 MiB (R222), in eighths of a byte: FF_BUDGET of them flow in with each reference-clock edge. -/
def bucketFull : Nat := 2 ^ 28

/-- The full-frame budget refilled up to now (R222). -/
def Chip.refill (c : Chip) : Chip :=
  let k := c.camShared
  { c with camShared := { k with
      bucket := min bucketFull (k.bucket + (c.ttu.up - k.bucketAt) * c.fld Reg.CAM_DMA_BUDGET 7 0)
      bucketAt := c.ttu.up } }

/-- A frame due for output is dropped from DMA (R222). -/
def Chip.dmaDrop (c : Chip) (p : Fin 16) (bits : Nat) : Chip :=
  (c.bump (Reg.CAM_DMA_DROP_CNT p)).camSticky p (cfDMA_DROP ||| bits)

/-- Whether a closing frame takes a buffer for its output (R221, R222, R343): decided in the order of the
frames' close. -/
def Chip.takeBuffer (e : Env) (c : Chip) (p : Fin 16) (f : CamFrame) : Chip × Option (Nat × Buffer) :=
  if c.fld (Reg.CAM_CTRL p) 2 1 ≠ 1 ∨ f.seq % 2 ^ 32 % (c.fld (Reg.CAM_CTRL p) 15 8 + 1) ≠ 0 then (c, none)
  else
    let c := c.refill
    let size := 2 * f.cfg.width * f.cfg.height
    if c.bit Reg.CAM_GLB_STATUS 0 then (c.dmaDrop p cfFF_THROTTLED, none)
    else
    match c.camRing 3 p with
    | none => (c.dmaDrop p 0, none)
    | some r =>
      match (c.ring r).bufs with
      | [] => (c.dmaDrop p 0, none)
      | b :: bs =>
        if b.len < 64 + size then
          let c := (c.onRing r fun g => { g with bufs := bs }).noteFailure r b.idx 0x54
          ((c.post e r ⟨b.idx, 0x54, b.irq, true, some (f.seq % 2 ^ 32), some f.soeTick⟩).dmaDrop p 0, none)
        else if c.camShared.bucket < 8 * size then (c.dmaDrop p 0, none)
        else
          let c := { c with camShared := { c.camShared with bucket := c.camShared.bucket - 8 * size } }
          (c.onRing r fun g => { g with bufs := bs }, some (r.val, b))

/-- The frame in hand replaced by its image. -/
def Chip.onFrame (c : Chip) (p : Fin 16) (f : CamFrame → CamFrame) : Chip :=
  c.onCam p fun k => { k with frame := k.frame.map f }

/-- The close of a frame: missing lines become pad, and its pixel stages, features and output start (R203,
R204). `gap`: it opens a frame gap. -/
def Chip.closeFrame (e : Env) (c : Chip) (p : Fin 16) (gap short : Bool) : Chip :=
  match (c.cam[p]).frame with
  | none => c
  | some f =>
    let few := decide (f.lines.length < f.cfg.height)
    let c := if few then (c.camSticky p cfFRAME_SHORT).bump (Reg.CAM_FRAME_FIX_CNT p) else c
    let f := { f with short := f.short || few || short, closeTick := c.ttu.index }
    let (c, b) := c.takeBuffer e p f
    let c := c.tally blkCAM 0x10 p 1
    c.onCam p fun k => { k with
      state := .idle, gap := gap, frame := none, closed := k.closed ++ [{ f with buf := b }] }

/-- A start of exposure: `off` units before unit u of tick t, counted back on the current grid (R205). -/
def Chip.soeOf (c : Chip) (t u off : Nat) : Nat × Nat × Bool :=
  let n := c.N
  let x := t * n + u
  let first := c.camShared.gridFirst * n
  if x < first + off then (c.camShared.gridFirst, 0, true) else ((x - off) / n, (x - off) % n, false)

/-- EXP_UNITS of an exposure time in ns (R206). -/
def expUnits (ns : Nat) : Nat := max 1 (rndDiv (4 * ns) 5).toNat

/-- A frame opens at an accepted FS (R205, R207, R218). -/
def Chip.openFrame (c : Chip) (p : Fin 16) (fn : Nat) : Chip :=
  let c := c.camCommit p
  let n := (c.cam[p]).seq + 1
  let c := c.onCam p fun k => (({ k with seq := n }).applyGens n)
  let k := c.cam[p]
  let (st, ss, early) := c.soeOf c.ttu.index c.subTick (c.fld (Reg.CAM_SOE_CFG p) 23 0)
  let f : CamFrame :=
    { cfg := c.camCfg p, seq := n, gen := k.gen, expUnits := expUnits k.genNs, uncertain := k.uncertain, fn := fn
      soeTick := st, soeSub := ss, early := early, lines := [], emb := none, lastPkt := c.ttu.index
      damaged := false, short := false, cut := false, fixed := false, closeTick := 0, buf := none }
  let c := (c.wrn (Reg.CAM_FRAME_SEQ p) (n % 2 ^ 32)).setFld (Reg.CAM_EXP_GEN p) 31 16 k.gen
  c.onCam p fun k => { k with
    state := .inFrame, gap := false, frame := some f
    fsAt := some c.ttu.up, period := k.fsAt.map fun a => c.ttu.up - a }

/-- Header corrections counted (R204). -/
def Chip.eccFix (c : Chip) (p : Fin 16) (fixed : Bool) : Chip := if fixed then c.bump (Reg.CAM_ECC_FIX_CNT p) else c

/-- A packet dropped in IDLE (R203). -/
def Chip.orphan (c : Chip) (p : Fin 16) : Chip := (c.camSticky p cfORPHAN).bump (Reg.CAM_PKT_DROP_CNT p)

/-! ### Lines (R200, R204) -/

/-- Bytes and pixels of a pixel group of a RAW type. -/
def pixelGroup (dt : Nat) : Nat × Nat :=
  if dt = 0x2A then (1, 1) else if dt = 0x2B then (5, 4) else if dt = 0x2C then (3, 2) else (7, 4)

/-- The pixels of one group, as CSI-2 packs them (PRESUMED, log entry 15). -/
def unpackGroup (dt : Nat) (g : List Nat) : List Nat :=
  let b (i : Nat) : Nat := g.getD i 0
  if dt = 0x2A then [b 0]
  else if dt = 0x2B then (List.range 4).map fun i => 4 * b i + bitsOf (b 4) (2 * i + 1) (2 * i)
  else if dt = 0x2C then (List.range 2).map fun i => 16 * b i + bitsOf (b 2) (4 * i + 3) (4 * i)
  else
    let w := b 4 + 2 ^ 8 * b 5 + 2 ^ 16 * b 6
    (List.range 4).map fun i => 64 * b i + bitsOf w (6 * i + 5) (6 * i)

/-- The pixels of a payload; `none` where its length is no whole number of groups. -/
def unpackLine (dt : Nat) (bs : List Byte) : Option (List Nat) :=
  let (nb, _) := pixelGroup dt
  if bs.length % nb ≠ 0 then none
  else some ((List.range (bs.length / nb)).flatMap fun i => unpackGroup dt (((bs.drop (nb * i)).take nb).map (·.toNat)))

/-- A line assembled from a bound long packet (R204). -/
def Chip.addLine (c : Chip) (p : Fin 16) (crcOk : Bool) (bs : List Byte) : Chip :=
  match (c.cam[p]).frame with
  | none => c
  | some f =>
    if f.cfg.height ≤ f.lines.length then
      let c := c.camSticky p cfFRAME_CUT
      let c := if f.fixed then c else c.bump (Reg.CAM_FRAME_FIX_CNT p)
      c.onFrame p fun f => { f with cut := true, fixed := true }
    else
      let c := c.tally blkCAM 0x12 p 1
      match (if crcOk then unpackLine f.cfg.dt bs else none) with
      | none =>
        ((c.camSticky p cfLINE_CRC).bump (Reg.CAM_LINE_ERR_CNT p)).onFrame p fun f =>
          { f with lines := f.lines ++ [[]], damaged := true }
      | some px =>
        let c := if px.length = f.cfg.width then c else (c.camSticky p cfLINE_FIX).bump (Reg.CAM_LINE_FIX_CNT p)
        c.onFrame p fun f => { f with
          lines := f.lines ++ [px.take f.cfg.width]
          short := f.short || decide (px.length < f.cfg.width)
          cut := f.cut || decide (f.cfg.width < px.length) }

/-- An embedded-data line: the first 32 bytes of a frame's first one are kept (R202). -/
def Chip.addEmbedded (c : Chip) (p : Fin 16) (bs : List Byte) : Chip :=
  c.onFrame p fun f => if f.emb.isSome then f else { f with emb := some (bs.take 32) }

/-- A foreign packet (R202). -/
def Chip.foreign (c : Chip) (p : Fin 16) : Chip :=
  if (c.cam[p]).state = .off then c else (c.camSticky p cfFOREIGN).bump (Reg.CAM_FOREIGN_CNT p)

/-! ### Pixel stages (R208) -/

/-- A received pixel; none for a pad pixel. -/
def CamFrame.pixel (f : CamFrame) (col row : Nat) : Option Nat := (f.lines[row]?).bind (·[col]?)

/-- Step 1 of R208. -/
def CamFrame.blackened (f : CamFrame) (col row : Nat) : Option Nat := (f.pixel col row).map (· - f.cfg.black)

/-- Steps 1 and 2 of R208. -/
def CamFrame.corrected (f : CamFrame) (col row : Nat) : Option Nat :=
  match f.blackened col row with
  | none => none
  | some v =>
    if f.cfg.defects.contains (col, row) then
      let side (x : Nat) : Option Nat :=
        if f.cfg.width ≤ x ∨ f.cfg.defects.contains (x, row) then none else f.blackened x row
      match (if col = 0 then none else side (col - 1)), side (col + 1) with
      | some l, some r => some (rndDiv (l + r : Nat) 2).toNat
      | some l, none => some l
      | none, some r => some r
      | none, none => some 0
    else some v

/-! ### Blobs (R209) -/

/-- A foreground pixel: column, row and corrected value. -/
structure Px where
  c : Nat
  r : Nat
  p : Nat
  deriving DecidableEq, Repr

/-- An 8-connected set of foreground pixels of one ROI, and the raster index of its first pixel. -/
structure Blob where
  roi : Nat
  first : Nat
  px : List Px
  edge : Bool
  deriving DecidableEq, Repr

/-- Whether pixel (c, r), next in raster order, touches a pixel of the blob. -/
def Blob.touches (b : Blob) (c r : Nat) : Bool :=
  b.px.any fun q => (q.r = r ∧ q.c + 1 = c) || (q.r + 1 = r && decide (q.c ≤ c + 1) && decide (c ≤ q.c + 1))

/-- The labelling of an ROI in raster order: blobs, provisional labels used, and whether one more was needed. -/
structure Labels where
  blobs : List Blob
  used : Nat
  ovf : Bool

/-- One foreground pixel labelled (R209). -/
def Labels.add (l : Labels) (roi : Roi) (width : Nat) (q : Px) : Labels :=
  let edge := q.c = roi.x0 ∨ q.c + 1 = roi.x0 + roi.w ∨ q.r = roi.y0 ∨ q.r + 1 = roi.y0 + roi.h
  let near := l.blobs.filter fun b => b.touches q.c q.r
  match near with
  | [] =>
    if 256 ≤ l.used then { l with ovf := true }
    else { l with blobs := l.blobs ++ [⟨roi.idx, q.r * width + q.c, [q], edge⟩], used := l.used + 1 }
  | b :: bs =>
    let m : Blob := ⟨roi.idx, bs.foldl (fun x y => min x y.first) b.first, near.flatMap (·.px) ++ [q], edge || near.any (·.edge)⟩
    { l with blobs := l.blobs.filter (fun b => !b.touches q.c q.r) ++ [m] }

/-- The blobs of one ROI. -/
def CamFrame.roiBlobs (f : CamFrame) (roi : Roi) : Labels :=
  (List.range roi.h).foldl (fun l j => (List.range roi.w).foldl (fun (l : Labels) i =>
    match f.corrected (roi.x0 + i) (roi.y0 + j) with
    | some v => if f.cfg.thresh ≤ v then l.add roi f.cfg.width ⟨roi.x0 + i, roi.y0 + j, v⟩ else l
    | none => l) l) ⟨[], 0, false⟩

def Blob.area (b : Blob) : Nat := b.px.length
def Blob.sw (b : Blob) : Nat := (b.px.map (·.p)).sum

/-- The order of R209. -/
def Blob.before (a b : Blob) : Bool :=
  if a.area ≠ b.area then decide (b.area < a.area)
  else if a.sw ≠ b.sw then decide (b.sw < a.sw)
  else if a.roi ≠ b.roi then decide (a.roi < b.roi)
  else decide (a.first < b.first)

/-- The blobs of a frame in rank order, and whether a label was missing. -/
def CamFrame.blobs (f : CamFrame) : List Blob × Bool :=
  let ls := f.cfg.rois.map f.roiBlobs
  (sortBy Blob.before (ls.flatMap (·.blobs)), ls.any (·.ovf))

/-! ### Heads (R210) -/

/-- What the history holds for a tick, and for the tick before it. -/
def CamShared.at? (k : CamShared) (t : Nat) : Option (List (Option HistHead) × List (Option HistHead)) :=
  match k.hist.find? (·.1 == t) with
  | none => none
  | some (_, hs) => some (hs, ((k.hist.find? (·.1 + 1 == t)).map (·.2)).getD hs)

/-- Whether an entry that a tick's association reads, of a head of the mask, is absent (R210, R313). -/
def CamShared.gap (k : CamShared) (t mask : Nat) : Bool :=
  match k.at? t with
  | none => true
  | some (s3, s0) => (List.range 64).any fun h => bitOf mask h && (s3[h]? == some none || s0[h]? == some none)

/-- The head's displacement in the latest tick up to t whose displacement is not zero. -/
def latestMove (h : Nat) : List (Nat × List (Option HistHead)) → Option (Int × Int)
  | [] => none
  | [_] => none
  | a :: b :: rest =>
    match (a.2[h]?).join, (b.2[h]?).join with
    | some p, some q =>
      if a.1 = b.1 + 1 ∧ (p.x ≠ q.x ∨ p.y ≠ q.y) then some (p.x - q.x, p.y - q.y) else latestMove h (b :: rest)
    | _, _ => latestMove h (b :: rest)

/-- A unit scan direction in Q2.14, truncated toward zero. -/
def scanDir (d : Option (Int × Int)) : Int × Int :=
  match d with
  | none => (16384, 0)
  | some (dx, dy) =>
    let l : Int := isqrt ((dx * dx + dy * dy).toNat)
    ((dx * 2 ^ 14).tdiv l, (dy * 2 ^ 14).tdiv l)

/-- What is known of a blob's head. -/
structure Assoc where
  head : Option Nat
  ph : Int × Int
  dir : Int × Int
  vid : Nat

def Assoc.none_ : Assoc := ⟨none, (0, 0), (16384, 0), 0⟩

/-- The head of a blob at machine point (x, y), for a midpoint at unit u of tick t (R210). -/
def Chip.assocHead (c : Chip) (f : CamFrame) (t u : Nat) (x y : Int) : Assoc :=
  match c.camShared.at? t with
  | none => Assoc.none_
  | some (s3, s0) =>
    let n : Int := c.N
    let point (h : Nat) : Int × Int :=
      match (s3[h]?).join, (s0[h]?).join with
      | some b, some a => (a.x + rndDiv ((b.x - a.x) * u) n, a.y + rndDiv ((b.y - a.y) * u) n)
      | _, _ => (0, 0)
    let dist (h : Nat) : Int := let q := point h; (q.1 - x) * (q.1 - x) + (q.2 - y) * (q.2 - y)
    let cand := (List.range 64).filter fun h =>
      bitOf f.cfg.heads h && c.headOn h && ((s3[h]?).join.map (·.on)).getD false &&
        decide (dist h ≤ (f.cfg.assoc * 8) * (f.cfg.assoc * 8))
    let best := cand.foldl (fun (m : Option Nat) h =>
      match m with
      | none => some h
      | some g => if dist h < dist g then some h else some g) none
    match best with
    | none => Assoc.none_
    | some h => ⟨some h, point h, scanDir (latestMove h (c.camShared.hist.filter (·.1 ≤ t))), ((s3[h]?).join.map (·.vid)).getD 0⟩

/-! ### Features (R211) -/

def usat16 (x : Int) : Nat := satU 16 x

/-- Largest and smallest of a linear form over the pixels. -/
def spanOf (f : Px → Int) : List Px → Int × Int
  | [] => (0, 0)
  | [q] => (f q, f q)
  | q :: qs => let (a, b) := spanOf f qs; (min a (f q), max b (f q))

/-- The centroid in 1/256 pixel. -/
def Blob.centre (b : Blob) : Int × Int :=
  (rndDiv (256 * (b.px.map fun q => q.p * q.c).sum : Nat) b.sw, rndDiv (256 * (b.px.map fun q => q.p * q.r).sum : Nat) b.sw)

/-- The machine point of a centroid. -/
def CamCfg.machine (k : CamCfg) (cx cy : Int) : Int × Int :=
  (satS 32 (k.tx + rndShift (k.m00 * cx + k.m01 * cy) 24), satS 32 (k.ty + rndShift (k.m10 * cx + k.m11 * cy) 24))

/-- The eight features of a blob (R211). -/
def Blob.features (b : Blob) (k : CamCfg) (s : Assoc) : List Nat :=
  let (cx, cy) := b.centre
  let (x, y) := k.machine cx cy
  let (ux, uy) := s.dir
  let a := k.m00 * ux + k.m10 * uy
  let e := k.m01 * ux + k.m11 * uy
  let ac := -(k.m00 * uy) + k.m10 * ux
  let ec := -(k.m01 * uy) + k.m11 * ux
  let (u0, u1) := spanOf (fun q => a * q.c + e * q.r) b.px
  let (v0, v1) := spanOf (fun q => ac * q.c + ec * q.r) b.px
  let pw : Int := (a.natAbs + e.natAbs : Nat)
  let pv : Int := (ac.natAbs + ec.natAbs : Nat)
  [usat16 b.area, b.px.foldl (fun m q => max m q.p) 0, (rndDiv b.sw b.area).toNat,
    usat16 (rndShift (u1 - u0 + pw) 33), usat16 (rndShift (v1 - v0 + pv) 33),
    usat16 (rndShift (a * cx + e * cy - 256 * u0 + 128 * pw) 41),
    if s.head.isNone then 32768 else usat16 (32768 + rndShift ((s.ph.1 - x) * ux + (s.ph.2 - y) * uy) 17),
    usat16 (rndShift b.sw 8)]

/-! ### Records (R212, R213) -/

/-- FLAGS of R212. -/
def CamFrame.flagByte (f : CamFrame) (edge noHead ovf : Bool) : Nat :=
  b2n f.damaged + 2 * b2n f.short + 4 * b2n f.cut + 8 * b2n edge + 16 * b2n noHead + 32 * b2n f.uncertain + 64 * b2n ovf

/-- The 64 bytes of a record (R212). -/
def recordBytes64 (p : Nat) (f : CamFrame) (head blob flags roi : Nat) (x y : Int) (feats : List Nat) (vid cxp cyp : Nat) :
    List Byte :=
  let body := leBytes 1 p ++ leBytes 1 head ++ leBytes 1 blob ++ leBytes 1 flags ++ leBytes 4 (f.seq % 2 ^ 32) ++
    leBytes 2 f.gen ++ leBytes 2 f.fn ++ leBytes 8 f.soeTick ++ leBytes 2 f.soeSub ++ leBytes 1 roi ++ leBytes 1 0 ++
    leBytes 4 (unsOf 32 x) ++ leBytes 4 (unsOf 32 y) ++ feats.flatMap (leBytes 2 ·) ++ leBytes 4 vid ++
    leBytes 2 cxp ++ leBytes 2 cyp ++ leBytes 4 0
  body ++ leBytes 4 (crc32 body)

/-- A record goes to the pipeline's feature ring, which always acts as DROP (R213, R335). -/
def Chip.postFeature (e : Env) (c : Chip) (p : Fin 16) (bs : List Byte) : Chip :=
  let c := (c.bump (Reg.CAM_FEAT_CNT p)).tally blkCAM 0x11 p 1
  match c.camRing 4 p with
  | none => c
  | some r => if c.hasRoom r then c.writeRecord e r bs else c.dropRecord r

/-- One blob's record computed, posted and, where R214 lets it, given to MPC. -/
def Chip.blobRecord (e : Env) (c : Chip) (p : Fin 16) (f : CamFrame) (miss ovf : Bool) (tm um count : Nat)
    (rank : Nat) (b : Blob) : Chip :=
  let (cx, cy) := b.centre
  let (x, y) := f.cfg.machine cx cy
  let s := if miss || f.early || f.cfg.assoc == 0 then Assoc.none_ else c.assocHead f tm um x y
  let feats := b.features f.cfg s
  let head := s.head.getD 0xFF
  let c := c.postFeature e p (recordBytes64 p f head (rank + 16 * count) (f.flagByte b.edge s.head.isNone ovf) b.roi x y
    feats s.vid ((asr cx 4).toNat % 2 ^ 16) ((asr cy 4).toNat % 2 ^ 16))
  if s.head.isSome && !f.damaged && !f.short && !f.uncertain then
    (c.l1Feature p head feats).temperRecord e f.soeTick ⟨x, y, 0⟩ feats
  else c.bump (Reg.CAM_MPC_HELD_CNT p)

/-- The frame buffer of a frame (R221): its header and its pixels after step 2 of R208. -/
def CamFrame.bufferBytes (f : CamFrame) (p : Nat) (ovf noHead : Bool) : List Byte :=
  let hdr := leBytes 4 (f.seq % 2 ^ 32) ++ leBytes 2 f.gen ++ leBytes 2 f.fn ++ leBytes 8 f.soeTick ++
    leBytes 2 f.soeSub ++ leBytes 2 f.cfg.width ++ leBytes 2 f.cfg.height ++ leBytes 1 (f.flagByte false noHead ovf) ++
    leBytes 1 p ++ leBytes 4 0 ++ bytesAt (f.emb.getD []) 0 32
  let rows := (List.range f.cfg.height).flatMap fun j => (List.range f.cfg.width).flatMap fun i =>
    leBytes 2 ((f.corrected i j).getD f.cfg.pad)
  hdr ++ leBytes 4 (crc32 hdr) ++ rows

/-- The output of a frame that has a buffer (R221, R343). -/
def Chip.writeFrame (e : Env) (c : Chip) (p : Fin 16) (f : CamFrame) (ovf noHead : Bool) : Chip :=
  match f.buf with
  | none => c
  | some (r, b) =>
    match inst? 256 r with
    | none => c
    | some r =>
      let (c, st) := c.ringWriteAs e reqCAM r b.addr (f.bufferBytes p ovf noHead)
      let c := if st = 0 then c else c.noteFailure r b.idx st
      (c.post e r ⟨b.idx, st, b.irq, true, some (f.seq % 2 ^ 32), some f.soeTick⟩).look e r

/-- The records of the oldest closed frame: computed and posted in rank order (R210 to R214). -/
def Chip.featureRecords (e : Env) (c : Chip) (p : Fin 16) : Chip :=
  match (c.cam[p]).closed with
  | [] => c
  | f :: rest =>
    let c := c.onCam p fun k => { k with closed := rest }
    let n := c.N
    let x := f.soeSub + f.expUnits / 2
    let tm := f.soeTick + x / n
    let (bs, noLabel) := f.blobs
    let ovf := noLabel || decide (8 < bs.length)
    let c := if noLabel then c.camSticky p cfBLOB_OVF else c
    let miss := c.camShared.gap tm f.cfg.heads || decide (f.closeTick < tm)
    let c := if miss && !bs.isEmpty then c.camSticky p cfHIST_MISS else c
    let c := c.writeFrame e p f ovf (miss || f.early)
    let top := bs.take 8
    if top.isEmpty then
      (c.postFeature e p (recordBytes64 p f 0xFF 0xF0 (f.flagByte false true ovf) 0xFF 0 0 (List.replicate 8 0) 0 0 0)).bump
        (Reg.CAM_MPC_HELD_CNT p)
    else
      top.zipIdx.foldl (fun c b => c.blobRecord e p f miss ovf tm (x % n) top.length b.2 b.1) c

/-! ### The history (R210) -/

/-- The history takes in a tick that has been committed. -/
def Chip.pushCamHistory (c : Chip) (t : Nat) : Chip :=
  let hs := c.hd.toList.map fun h => some (⟨h.out.p3.x, h.out.p3.y, h.out.on, h.vid⟩ : HistHead)
  { c with camShared := { c.camShared with hist := ((t, hs) :: c.camShared.hist).take 8192 } }

/-- A regrid clears the history; ticks of the new grid count from its first tick (R205, R210). -/
def Chip.clearCamHistory (c : Chip) (first : Nat) : Chip :=
  { c with camShared := { c.camShared with hist := [], gridFirst := first } }

/-! ### Enable, disable, identity (R203, R220) -/

/-- A write of ENABLE. -/
def Chip.camEnable (c : Chip) (p : Fin 16) (on : Bool) : Chip :=
  let k := c.cam[p]
  if on then
    if k.state ≠ .off then c
    else if c.camValid p then
      c.onCam p fun k => { k with
        state := .ident, gap := false, gen := 0, genNs := c.fld (Reg.CAM_EXP_NS p) 24 0, waiting := [], uncertain := false
        fsAt := none, period := none, cci := if k.xfer.isSome then k.cci else c.cciIdentity p }
    else (c.setFld (Reg.CAM_CTRL p) 0 0 0).camFlag p cfCFG_ERR 0
  else if k.state = .off then c
  else c.onCam p fun k => { k.supersede with state := .off, gap := false, frame := none }

/-- The identity read ends with the bytes read, or with a CCI failure (R220). -/
def Chip.identDone (c : Chip) (p : Fin 16) (res : Option (List Byte)) : Chip :=
  if (c.cam[p]).state ≠ .ident then c
  else
    let n := c.fld (Reg.CAM_ID_CFG p) 19 16
    let c := c.onCam p fun k => { k with cci := c.cciIdentity p }
    let pass (c : Chip) : Chip := c.onCam p fun k => { k with state := .idle, idOk := true, gap := true }
    let fail (c : Chip) : Chip :=
      ((c.onCam p fun k => { k with state := .off, idOk := false }).setFld (Reg.CAM_CTRL p) 0 0 0).camFlag p cfID_ERR 0
    if n = 0 then pass c
    else
      match res with
      | none => fail c
      | some bs =>
        let v := leAt bs 0 n
        let c := c.wrPair (Reg.CAM_ID_LO p) (setBits (c.rdPair (Reg.CAM_ID_LO p)) (8 * n - 1) 0 v)
        if c.bit (Reg.CAM_ID_CFG p) 20 ∧ v ≠ c.rdPair (Reg.CAM_ID_EXP_LO p) % 2 ^ (8 * n) then fail c else pass c

/-- CAM_STATUS, CAM_EXP_GEN and CAM_EXP_STATE as read. -/
def Cam.status (k : Cam) : Nat :=
  (match k.state with | .off => 0 | .ident => 1 | .idle => 2 | .inFrame => 3) + 8 * b2n k.idOk +
    2 ^ 16 * ((k.frame.map (·.lines.length)).getD 0)

def Cam.expState (k : Cam) : Nat :=
  b2n k.pend.isSome + 2 * b2n k.xfer.isSome + 4 * b2n (!k.waiting.isEmpty) + 16 * k.lastRes + 2 ^ 16 * k.resGen

/-! ### Packets (R199 to R204) -/

/-- The parity bits that each header bit takes part in, as a mask, for the 24 bits of data identifier and word count and the
two of VCX (PRESUMED, log entry 15). -/
def eccColumns : List Nat :=
  [0x07, 0x0B, 0x0D, 0x0E, 0x13, 0x15, 0x16, 0x19, 0x1A, 0x1C, 0x23, 0x25, 0x26, 0x29, 0x2A, 0x2C, 0x31, 0x32, 0x34, 0x38,
    0x1F, 0x2F, 0x37, 0x3B, 0x3D, 0x3E]

/-- The 26 header bits that the ECC covers. -/
def headerBits (h : Nat) : Nat := h % 2 ^ 24 + 2 ^ 24 * (h / 2 ^ 30)

/-- The six parity bits of 26 header bits. -/
def eccOf (x : Nat) : Nat :=
  (eccColumns.zipIdx.filter fun y => bitOf x y.2).foldl (fun m y => m ^^^ y.1) 0

/-- A received header checked (R199): its 26 bits, single errors corrected, and whether one was; none where the error cannot be
corrected. -/
def eccCheck (h : Nat) : Option (Nat × Bool) :=
  let x := headerBits h
  let syn := eccOf x ^^^ bitsOf h 29 24
  if syn = 0 then some (x, false)
  else
    match eccColumns.zipIdx.find? (·.1 == syn) with
    | some y => some (x ^^^ 2 ^ y.2, true)
    | none => if [1, 2, 4, 8, 16, 32].contains syn then some (x, true) else none

/-- One byte taken into the CRC-16 of a payload, as CSI-2 defines it (PRESUMED, log entry 15). -/
def csiCrcByte (c : Nat) (b : Byte) : Nat :=
  (List.range 8).foldl (fun x _ => if x % 2 = 1 then (x / 2) ^^^ 0x8408 else x / 2) (c ^^^ b.toNat)

def csiCrc (bs : List Byte) : Nat := bs.foldl csiCrcByte 0xFFFF

/-- A bound packet of pixels or embedded data (R203, R204). -/
def Chip.boundLong (c : Chip) (p : Fin 16) (emb crcOk : Bool) (bs : List Byte) : Chip :=
  if (c.cam[p]).state = .idle then c.orphan p
  else
    let c := c.onFrame p fun f => { f with lastPkt := c.ttu.index }
    if emb then c.addEmbedded p bs else c.addLine p crcOk bs

/-- A short-packet type of R200. -/
def shortType (dt : Nat) : Bool := dt ≤ 0x03 || (0x08 ≤ dt && dt ≤ 0x0F)

/-- Whether a header's 26 bits belong to the bound stream (R200 to R202). -/
def Chip.isBound (c : Chip) (p : Fin 16) (x : Nat) : Bool :=
  let bind := Reg.CAM_BIND p
  let dt := bitsOf x 5 0
  bitsOf x 25 24 == 0 && bitsOf x 7 6 == c.fld bind 9 8 &&
    (shortType dt || dt == c.fld bind 5 0 || (dt == 0x12 && c.bit bind 16))

/-- A packet of the bound stream, by its data type (R200, R203). -/
def Chip.boundPacket (e : Env) (c : Chip) (p : Fin 16) (dt wc : Nat) (bs : List Byte) (crc : Nat) : Chip :=
  let idle : Bool := (c.cam[p]).state = .idle
  let payload := bs.take wc
  let crcOk := decide (payload.length = wc ∧ csiCrc payload = crc)
  if dt = 0x00 then (if idle then c else (c.camSticky p cfFS_NO_FE).closeFrame e p false true).openFrame p wc
  else if dt = 0x01 then (if idle then c.orphan p else c.closeFrame e p true false)
  else if shortType dt then c.onFrame p fun f => { f with lastPkt := c.ttu.index }
  else c.boundLong p (decide (dt = 0x12)) crcOk payload

/-- A packet at an enabled port: dropped for an error in its header or its start, foreign, or of the bound stream; before the
identity read has passed only a foreign packet counts (R201 to R204). -/
def Chip.packet (e : Env) (c : Chip) (p : Fin 16) (header : Option (BitVec 32)) (bs : List Byte) (crc : Nat) : Chip :=
  let st := (c.cam[p]).state
  let drop (bits : Nat) : Chip := if st = .ident then c else (c.camSticky p bits).bump (Reg.CAM_PKT_DROP_CNT p)
  if st = .off then c
  else
    match header with
    | none => drop cfPHY_ERR
    | some h =>
      match eccCheck h.toNat with
      | none => drop cfECC_UE
      | some (x, fixed) =>
        if !c.isBound p x then c.foreign p
        else if st = .ident then c
        else (c.eccFix p fixed).boundPacket e p (bitsOf x 5 0) (bitsOf x 23 8) bs crc

/-! ### Commands -/

/-- IDENT_COMPLETE. -/
def execIdentComplete (p : Fin 16) (res : Option (List Byte)) (s : State) : Host.Outcome State Fault Refusal :=
  .next (s.act fun _ c => c.identDone p res)

/-- FRAME_START: a packet whose data type is that of an FS. -/
def execFrameStart (p : Fin 16) (id : Byte) (fn : BitVec 16) (ecc : Byte) (s : State) : Host.Outcome State Fault Refusal :=
  .next (s.act fun e c => c.packet e p (some (ecc ++ fn ++ id)) [] 0)

/-- FRAME_END: a packet whose data type is that of an FE. -/
def execFrameEnd (p : Fin 16) (header : BitVec 32) (s : State) : Host.Outcome State Fault Refusal :=
  .next (s.act fun e c => c.packet e p (some header) [] 0)

/-- LONG_PACKET, or where no header is received, a start-of-transmission error. -/
def execLongPacket (p : Fin 16) (header : Option (BitVec 32)) (bs : List Byte) (crc : BitVec 16) (s : State) :
    Host.Outcome State Fault Refusal :=
  .next (s.act fun e c => c.packet e p header bs crc.toNat)

/-- FOREIGN_PACKET: a packet outside the binding. -/
def execForeignPacket (x : CsiPacket) (s : State) : Host.Outcome State Fault Refusal :=
  .next (s.act fun e c => c.packet e x.port (some x.header) x.bytes x.crc.toNat)

/-- FRAME_TMO: FRAME_TMO ticks since the frame's last accepted packet (R203). -/
def execFrameTmo (p : Fin 16) (s : State) : Host.Outcome State Fault Refusal :=
  .next (s.act fun e c =>
    let n := c.fld (Reg.CAM_FRAME_CFG p) 31 16
    match (c.cam[p]).frame with
    | none => c
    | some f =>
      if n ≠ 0 ∧ f.lastPkt + n ≤ c.ttu.index then (c.closeFrame e p true true).camFlag p cfFRAME_TMO 0 else c)

/-- FEATURE_RECORD. -/
def execFeatureRecord (p : Fin 16) (s : State) : Host.Outcome State Fault Refusal :=
  .next (s.act fun e c => c.featureRecords e p)

/-- CCI_TRANSFER_START. -/
def execCciTransferStart (p : Fin 16) (s : State) : Host.Outcome State Fault Refusal :=
  .next (s.act fun _ c => c.cciStart p)

/-- CCI_TRANSFER_COMPLETE: the transfer completed, or failed at a write. -/
def execCciTransferComplete (p : Fin 16) (failed : Option CciFail) (s : State) : Host.Outcome State Fault Refusal :=
  .next (s.act fun _ c => c.cciEnd p failed)

end Sys2Proof.Machine
end

