-- ==== Sys2Proof/Machine/Port.lean ====
section
/-! DEFINITION. Field ports (R279 to R292): modes and conversions, port states, the energy governor and
diagnostics, and the raw transitions that they deliver to the axes (R281, R283). -/

namespace Sys2Proof.Machine

/-- Field port p replaced by its image. -/
def Chip.onPort (c : Chip) (p : Fin 24) (f : Port → Port) : Chip := { c with port := upd c.port p f }

/-- Axis a replaced by its image. -/
def Chip.onAxis (c : Chip) (a : Fin 8) (f : Axis → Axis) : Chip := { c with axis := upd c.axis a f }

/-- EFP_FLAGS bits (R291). -/
def pfTRIP_I : Nat := 0x1
def pfTRIP_U : Nat := 0x2
def pfTRIP_E : Nat := 0x4
def pfOPEN : Nat := 0x8
def pfSHORT : Nat := 0x10
def pfCFG_ERR : Nat := 0x20
def pfREARM_REJ : Nat := 0x40
def pfRANGE : Nat := 0x200
def pfCJC_ERR : Nat := 0x400

def Chip.portSticky (c : Chip) (p : Fin 24) (b : Nat) : Chip := if b = 0 then c else c.sticky (Reg.EFP_FLAGS p) b
def Chip.portFlag (c : Chip) (p : Fin 24) (b p2 : Nat) : Chip := c.flag (Reg.EFP_FLAGS p) (.other p) b p2

def Chip.portMode (c : Chip) (p : Nat) : Nat := c.fld (Reg.EFP_CFG p) 2 0
def Chip.portSub (c : Chip) (p : Nat) : Nat := c.fld (Reg.EFP_CFG p) 4 4

/-- The configuration is valid (R279, R283). -/
def Chip.portValid (c : Chip) (p : Nat) : Bool :=
  let m := c.portMode p
  let g := Reg.EFP_GOV_CFG p
  decide (m ≤ 5) && (c.portSub p == 0 || m == 3 || m == 4) &&
    decide (1 ≤ c.fld g 7 0 ∧ c.fld g 7 0 ≤ 250 ∧ 1 ≤ c.fld g 15 8 ∧ c.fld g 15 8 ≤ 105 ∧ 1 ≤ c.fld g 22 16 ∧ c.fld g 22 16 ≤ 66)

/-! ### Raw transitions (R274, R275, R281) -/

/-- Whether a port named by an axis is active, with its polarity (R274); a port that has tripped or been
switched off counts as active whatever its polarity (R283). -/
def Chip.portActive (c : Chip) (idx : Nat) (pol : Bool) : Bool :=
  match inst? 24 idx with
  | some p => (c.port[p]).lost || ((c.port[p]).raw != pol)
  | none => false

def Chip.homePort (c : Chip) (a : Nat) : Nat := c.fld (Reg.HVI_AX_HOME_CFG a) 4 0
def Chip.homeActive (c : Chip) (a : Nat) : Bool := c.portActive (c.homePort a) (c.bit (Reg.HVI_AX_HOME_CFG a) 5)

/-- The limit port and polarity toward a direction. -/
def Chip.limitPort (c : Chip) (a : Nat) (dir : Int) : Nat :=
  if dir < 0 then c.fld (Reg.HVI_AX_HOME_CFG a) 12 8 else c.fld (Reg.HVI_AX_HOME_CFG a) 20 16

def Chip.limitActive (c : Chip) (a : Nat) (dir : Int) : Bool :=
  c.portActive (c.limitPort a dir) (c.bit (Reg.HVI_AX_HOME_CFG a) (if dir < 0 then 13 else 21))

/-- A search runs toward HOME_PORT (R275). -/
def Axis.searching (x : Axis) : Bool := x.state = .homing && x.doing = .search

/-- HOME_LATCH: the edge of this tick latches P_L and opens the debounce window. The tick's state is that of
its start; an edge stamped in the tick before uses that tick's (R275). `ap`: the tick's acceleration. -/
def Axis.latchEdge (x : Axis) (n deb idx : Nat) (now_ : AxTick) (active : Bool) : Axis :=
  match x.latchDue with
  | none => x
  | some (t, u) =>
    let k := if t = idx then now_ else x.last
    let m : Int := 2 * (n : Int) * n
    let pl := (k.s * m + 2 * n * k.v * u + k.a * u * u).fdiv (m * 2 ^ 32)
    { x with latchDue := none, latch := some ⟨pl, t * n + u, t * n + u + deb * n, 0, active⟩ }

/-- The end of a debounce window (R275). -/
inductive Debounced where
  | good | glitch
  deriving DecidableEq, Repr

/-- HOMED, HOME_FAIL and the stop that a search ends in. -/
def Axis.endSearch (x : Axis) (after : AxAfter) : Axis :=
  { x with doing := .decStop, after := after, latchDue := none }

end Sys2Proof.Machine
end

