-- ==== Sys2Proof/Machine/Axis.lean ====
section
/-! DEFINITION. Machine axes (R259 to R278): limits and the planner (R267 to R270), commutation (R262), the
phase loops and duties (R263, R264), axis states and commands (R261), staged and queued moves (R266),
winding measurement (R273), limits and homing (R274, R275), standstill (R271), faults and the island (R260,
R265, R272). -/

namespace Sys2Proof.Machine

/-- HVI_AX_FLAGS bits (R277). -/
def xfDECEL_DEFERRED : Nat := 0x1
def xfQUEUE_OVF : Nat := 0x2
def xfSTAGE_OVF : Nat := 0x4
def xfVEL_CAP : Nat := 0x8
def xfBRAKE_SAT : Nat := 0x10
def xfCHATTER : Nat := 0x20
def xfGLITCH : Nat := 0x40
def xfHOME_FAIL : Nat := 0x80
def xfMOVED_UNPOWERED : Nat := 0x100
def xfPOS_UNWATCHED : Nat := 0x200
def xfVBUS_LOST : Nat := 0x400
def xfAXIS_ESTOP : Nat := 0x800
def xfCMD_REJ : Nat := 0x1000
def xfWIND_ERR : Nat := 0x2000
def xfFAULTED : Nat := 0x4000

def Chip.axSticky (c : Chip) (a : Fin 8) (b : Nat) : Chip := c.sticky (Reg.HVI_AX_FLAGS a) b
def Chip.axFlag (c : Chip) (a : Fin 8) (b p2 : Nat) : Chip := c.flag (Reg.HVI_AX_FLAGS a) (.other a) b p2

/-- An enabled state (R261). -/
def AxState.enabled : AxState → Bool
  | .disabled => false
  | .fault => false
  | _ => true

/-! ### Limits (R267) -/

/-- A velocity in microsteps per second, in Q32.32 microsteps per tick. -/
def axVel (n v : Nat) : Int := rndDiv (v * n * 2 ^ 32 : Nat) 800000000

/-- The limits of an axis from its active copies. -/
def Chip.axLims (c : Chip) (a : Nat) : AxLims :=
  let n := c.N
  let acc (r : Nat) : Int := rndDiv (c.actn r * 256 * n ^ 2 * 2 ^ 32 : Nat) (64 * 10 ^ 16)
  { vmax := c.actn (Reg.HVI_AX_VMAX a)
    v := axVel n (c.actn (Reg.HVI_AX_VMAX a))
    acc := acc (Reg.HVI_AX_ACC a)
    dec := acc (Reg.HVI_AX_DEC a)
    edec := acc (Reg.HVI_AX_EDEC a)
    j := rndDiv (c.actn (Reg.HVI_AX_JERK a) * 256000 * n ^ 3 * 2 ^ 32 : Nat) (512 * 10 ^ 24) }

/-- V_t of a speed: 0 selects VMAX, which also caps it (R266). -/
def AxLims.speed (l : AxLims) (n sp : Nat) : Int := if sp = 0 ∨ l.vmax < sp then l.v else axVel n sp

/-- A commit of limits, or a regrid (R267, R269): at rest they apply at once; in motion a change of VMAX, ACC, DEC or JERK
waits to be tried in the tick, and EDEC applies at once unless an emergency stop runs (R270). -/
def Chip.axRelimit (c : Chip) (a : Fin 8) : Chip :=
  let l := c.axLims a
  c.onAxis a fun x =>
    if x.doing = .rest then { x with lims := l, limPend := none, limTry := false }
    else
      let x := if x.doing = .eStop then x else { x with lims := { x.lims with edec := l.edec } }
      if x.limPend.getD x.lims = l then x
      else if x.lims = l then { x with limPend := none, limTry := false }
      else { x with limPend := some l, limTry := true }

/-! ### The planner (R267 to R270) -/

/-- The queued moves of the motion run in hand, up to its first stop (R268). -/
def runOfMoves (dir : Int) : List QMove → List QMove
  | [] => []
  | [m] => [m]
  | m :: n :: rest =>
    if n.blend && !m.planned && decide (0 < dir * (n.target - m.target)) then m :: runOfMoves dir (n :: rest) else [m]

/-- Distance of a move's end along the run. -/
def Axis.endOf (x : Axis) (m : QMove) : Int := x.dir * (m.target * 2 ^ 32 - x.origin)

/-- The constraints of a run of moves: its joints, and the stop at its end (R267, R268). -/
def Axis.limitsOf (x : Axis) (l : AxLims) (n : Nat) : List QMove → List Limit
  | [] => []
  | [m] => [⟨x.endOf m - x.d, 0, true⟩]
  | m :: k :: rest => ⟨x.endOf m - x.d, min (l.speed n m.speed) (l.speed n k.speed), false⟩ :: Axis.limitsOf x l n (k :: rest)

/-- The lowest and highest admissible acceleration of a tick. -/
def axRange (l : AxLims) (v a : Int) : Int × Int :=
  let lo := max (max (a - l.j) (-l.dec)) (-v)
  (lo, max (min (a + l.j) l.acc) lo)

/-- What a planner tick needs: vcap and the constraints. -/
def Axis.goal (x : Axis) (l : AxLims) (n homeVel : Nat) : Int × List Limit :=
  match x.doing with
  | .moves =>
    let run := runOfMoves x.dir x.queue
    ((run.head?.map fun m => l.speed n m.speed).getD 0, x.limitsOf l n run)
  | _ => (l.speed n (if homeVel = 0 then 1 else homeVel), [])

/-- The tick's acceleration along the motion, and whether no value is feasible. -/
def Axis.accel (x : Axis) (l : AxLims) (n homeVel : Nat) : Int × Bool :=
  match x.doing with
  | .rest => (0, false)
  | .eStop => (-(min x.v l.edec), false)
  | .decStop => ((axRange l x.v x.a).1, false)
  | _ =>
    let (vcap, ks) := x.goal l n homeVel
    let (lo, hi) := axRange l x.v x.a
    let ok := feasible l.dec l.j x.v vcap ks
    if !ok lo then (lo, true) else (bisect ok 96 lo hi, false)

/-- The lowest admissible acceleration of the tick is feasible with limits l (R269). A stop at DEC has no target to keep, and
no limit change applies in an emergency stop (R270). -/
def Axis.permits (x : Axis) (l : AxLims) (n homeVel : Nat) : Bool :=
  match x.doing with
  | .rest => true
  | .decStop => true
  | .eStop => false
  | _ =>
    let (vcap, ks) := x.goal l n homeVel
    feasible l.dec l.j x.v vcap ks (axRange l x.v x.a).1

/-- New limits tried (R269), and whether they are deferred. -/
def Axis.tryLims (x : Axis) (n homeVel : Nat) : Axis × Bool :=
  match x.limPend with
  | none => (x, false)
  | some l =>
    if !x.limTry then (x, false)
    else if x.permits l n homeVel then ({ x with lims := l, limPend := none, limTry := false }, false)
    else ({ x with limTry := false }, true)

def Chip.homeVel (c : Chip) (a : Nat) : Nat := c.rdn (Reg.HVI_AX_HOME_VEL a)

/-- The state of the tick in progress, signed: position and velocity at its start, and its acceleration under the limits that
the tick works with. -/
def Chip.axNow (c : Chip) (a : Fin 8) : AxTick :=
  let x := ((c.axis[a]).tryLims c.N (c.homeVel a)).1
  ⟨x.s, x.dir * x.v, x.dir * (x.accel x.lims c.N (c.homeVel a)).1⟩

/-! ### Phase loops and bridges -/

/-- OPEN on both phase loops, at once. -/
def Chip.openPhases (c : Chip) (a : Fin 8) : Chip :=
  (List.finRange 2).foldl (fun c (p : Fin 2) => c.onLoop (phaseLoop a p) fun l => { l.open_ with cmd := 0 }) c

/-- CLOSE on both phase loops, taken at the next boundary (R183, R263). -/
def Chip.closePhases (c : Chip) (a : Fin 8) : Chip :=
  (List.finRange 2).foldl (fun c (p : Fin 2) => c.onLoop (phaseLoop a p) fun l => { l with cmd := 2 }) c

/-- Bridges off, loops OPEN. -/
def Chip.bridgesOff (c : Chip) (a : Fin 8) : Chip :=
  (c.openPhases a).onAxis a fun x => { x with bridge := 0, duty := (0, 0), refs := (0, 0), amp := 0, wind := none }

/-- An amplitude ramp from the retained angle, with the state that follows it (R261, R262). -/
def Chip.startRamp (c : Chip) (a : Fin 8) (goal : AxState) : Chip :=
  (c.closePhases a).onAxis a fun x => { x with state := .ramp, rampTick := 0, rampTo := goal, bridge := 1, duty := (0, 0), wind := none }

/-- An entry into FAULT (R261, R277). -/
def Chip.enterFault (c : Chip) (a : Fin 8) (cause : Nat) : Chip :=
  let r := Reg.HVI_AX_FAULT a
  let c := (c.setFld r 7 0 cause).setFld r 23 8 (min (c.fld r 23 8 + 1) 0xFFFF)
  (c.onAxis a fun x => { x with
    state := .fault, doing := .rest, v := 0, a := 0, d := 0, origin := x.s, queue := [], latch := none, latchDue := none
    limitDue := false, after := .ready }).axFlag a xfFAULTED cause

/-- A fault that turns the bridges off at once. -/
def Chip.faultNow (c : Chip) (a : Fin 8) (cause : Nat) : Chip := (c.bridgesOff a).enterFault a cause

/-! ### Motion -/

/-- Rest at the axis's position. -/
def Axis.rests (x : Axis) : Axis := { x with doing := .rest, v := 0, a := 0, d := 0, origin := x.s }

/-- An emergency stop (R270): every queued move is flushed. -/
def Axis.quickStop (x : Axis) (after : AxAfter) : Axis :=
  { x with queue := [], latchDue := none, doing := if x.doing = .rest then .rest else .eStop, after := after }

/-- A stop at DEC, unless an emergency stop runs (R261, R269). -/
def Axis.stopAtDec (x : Axis) (after : AxAfter) : Axis :=
  { x with queue := [], latchDue := none, after := after
           doing := match x.doing with | .rest => .rest | .eStop => .eStop | _ => .decStop }

/-- What a stop ends in that is decided now: a fault or a DISABLE that the axis already stops for stands, and a search ends in
HOME_FAIL (R261, R275). -/
def Axis.stopAfter (x : Axis) : AxAfter :=
  match x.after with
  | .fault k => .fault k
  | .disable f => .disable (f || x.state = .homing)
  | .homeFail => .homeFail
  | .homed _ => .homeFail
  | .ready => if x.state = .homing then .homeFail else .ready

/-- What a stop for DISABLE ends in: as STOP, then DISABLED (R261). -/
def Axis.disableAfter (x : Axis) : AxAfter :=
  match x.stopAfter with
  | .fault k => .fault k
  | .disable f => .disable f
  | y => .disable (y == .homeFail)

/-- What a stop ends in, once the axis is at rest. -/
def Chip.afterStop (c : Chip) (a : Fin 8) : Chip :=
  let x := c.axis[a]
  let ready (c : Chip) : Chip := c.onAxis a fun x => { x.rests with state := .ready, after := .ready, latch := none, restTicks := 0 }
  match x.after with
  | .ready => ready c
  | .disable failed =>
    let c := (c.bridgesOff a).onAxis a fun x => { x.rests with state := .disabled, after := .ready, latch := none }
    if failed then (c.onAxis a fun x => { x with homed := false }).axSticky a xfHOME_FAIL else c
  | .fault k => c.enterFault a k
  | .homed pl =>
    (ready c).onAxis a fun x => { x with shift := some (c.rdInt (Reg.HVI_AX_HOME_OFS a) - pl), homed := true }
  | .homeFail => ((ready c).onAxis a fun x => { x with homed := false }).axSticky a xfHOME_FAIL

/-- The first move of the queue begins from rest: one that goes nowhere is removed, and one toward an active
limit faults the axis (R266, R274). -/
def Chip.startMove (a : Fin 8) : Nat → Chip → Chip
  | 0, c => c
  | f + 1, c =>
    let x := c.axis[a]
    match x.queue with
    | [] => c
    | m :: rest =>
      let dist := m.target * 2 ^ 32 - x.s
      if dist = 0 then Chip.startMove a f (c.onAxis a fun x => { x with queue := rest })
      else
        let dir : Int := if dist < 0 then -1 else 1
        if c.limitActive a dir then c.enterFault a 0x06
        else c.onAxis a fun x => { x with
          state := .moving, doing := .moves, after := .ready, origin := x.s, dir := dir, d := 0, v := 0, a := 0
          limTry := x.limPend.isSome }

/-- A search begins (R275). -/
def Chip.startSearch (c : Chip) (a : Fin 8) : Chip :=
  let dir : Int := if c.bit (Reg.HVI_AX_HOME_CFG a) 6 then 1 else -1
  if c.limitActive a dir ∧ c.limitPort a dir ≠ c.homePort a then c.enterFault a 0x07
  else c.onAxis a fun x => { x with
    state := .homing, doing := .search, after := .homeFail, origin := x.s, dir := dir, d := 0, v := 0, a := 0
    homeFrom := x.s, latch := none, latchDue := none, limTry := x.limPend.isSome }

/-- The moves still to run after d has been travelled. -/
def Axis.movesLeft (x : Axis) : List QMove → List QMove
  | [] => []
  | [m] => [m]
  | m :: k :: rest => if x.endOf m ≤ x.d then x.movesLeft (k :: rest) else m :: k :: rest

/-- The queue after d has been travelled: each joint passed begins the next move (R268, R269). -/
def Axis.passJoints (x : Axis) : Axis :=
  let q := x.movesLeft x.queue
  if q.length < x.queue.length then { x with queue := q, limTry := x.limPend.isSome } else x

/-- One tick of motion (R267, R270), and whether the axis comes to rest. -/
def Axis.stepMotion (x : Axis) (ap : Int) : Axis × Bool :=
  let v := x.v + ap
  match x.doing with
  | .rest => (x, false)
  | .moves =>
    let run := runOfMoves x.dir x.queue
    match run.getLast? with
    | none => (x.rests, true)
    | some m =>
      let total := x.endOf m
      let d := planSample x.d x.v ap total 3
      let q := match x.queue.drop (run.length - 1) with
        | k :: rest => x.queue.take (run.length - 1) ++ { k with planned := true } :: rest
        | [] => x.queue
      if total ≤ d then
        let y := { x with s := m.target * 2 ^ 32, queue := x.queue.drop run.length }
        (y.rests, true)
      else ({ x with d := d, s := x.origin + x.dir * d, v := v, a := ap, queue := q }.passJoints, false)
  | _ =>
    let d := x.d + rndDiv (18 * x.v + 9 * ap) 18
    let y := { x with d := d, s := x.origin + x.dir * d, v := v, a := ap }
    if v = 0 ∧ x.doing ≠ .search then (y.rests, true) else (y, false)

/-- HVI_AX_CTRL commands. -/
def axENABLE : Nat := 1
def axDISABLE : Nat := 2
def axSTOP : Nat := 3
def axQUICK_STOP : Nat := 4
def axHOME : Nat := 5
def axCLR_FAULT : Nat := 6
def axSET_POS : Nat := 7
def axACCEPT_POS : Nat := 8

/-- The carrier period lies in [10 µs, 80 µs] (R261, R264). -/
def Chip.carrierOk (c : Chip) (a : Nat) : Bool :=
  let t := c.fld (Reg.HVI_AX_BRIDGE a) 7 0 * c.N
  8000 ≤ t && t ≤ 64000

/-- The configuration is valid (R261). -/
def Chip.axValid (c : Chip) (a : Nat) : Bool :=
  let r := Reg.HVI_AX_HOME_CFG a
  [c.fld r 4 0, c.fld r 12 8, c.fld r 20 16].all (fun p => p == 0x1F || (decide (p < 24) && c.portMode p == 1)) &&
    c.carrierOk a

/-- A position frame in which POS reads HOME_OFS (R261). -/
def Axis.setFrame (x : Axis) (ofs : Int) : Axis :=
  let s := x.s + (ofs - asr x.s 32) * 2 ^ 32
  { x with s := s, origin := s, homed := true }

/-- The duties of a pulse: DUTY_MAX on the phase under test while it is driven, and both low sides while it decays (R273). -/
def windDuty (dm : Int) (w : WindRun) : Int × Int :=
  match w.stage with
  | .drive _ =>
    let d := if w.neg then -dm else dm
    if w.phase = 0 then (d, 0) else (0, d)
  | _ => (0, 0)

/-- The pulse of a winding measurement as it goes on. -/
def Chip.windGo (c : Chip) (a : Fin 8) (w : WindRun) : Chip :=
  c.onAxis a fun x => { x with wind := some w, duty := windDuty (c.fld (Reg.HVI_AX_SENSE a) 31 16 : Nat) w }

/-- A winding measurement begins with the positive pulse of phase A (R261, R273). -/
def Chip.startWinding (c : Chip) (a : Fin 8) : Chip :=
  (c.onAxis a fun x => { x with state := .measure, bridge := 1 }).windGo a ⟨0, false, .drive 0, 0, 0⟩

/-- A command taken in a state that lists it; `none` where it is discarded (R261). -/
def Chip.axCommand (c : Chip) (a : Fin 8) (cmd : Nat) : Option Chip :=
  let x := c.axis[a]
  let still := x.state = .ready ∨ x.state = .still
  let moving := x.state = .moving ∨ x.state = .homing
  if cmd = axENABLE then
    if x.state = .disabled ∧ c.island.powered ∧ c.axValid a then
      some (c.startWinding a)
    else none
  else if cmd = axDISABLE then
    if !x.state.enabled then none
    else if x.doing = .rest then some ((c.bridgesOff a).onAxis a fun x => { x with state := .disabled, queue := [] })
    else some (c.onAxis a fun x => { x.stopAtDec x.disableAfter with state := .moving, latch := none })
  else if cmd = axSTOP then
    if moving then
      let c := c.onAxis a fun x => { x.stopAtDec x.stopAfter with state := .moving, latch := none }
      some (if x.doing = .rest then c.afterStop a else c)
    else none
  else if cmd = axQUICK_STOP then
    if moving ∨ x.state = .ramp then
      let c := c.onAxis a fun x => { x.quickStop x.stopAfter with latch := none }
      some (if x.doing = .rest then c.afterStop a else c)
    else none
  else if cmd = axHOME then
    if x.state = .ready then some (c.startSearch a)
    else if x.state = .still then some (c.startRamp a .homing)
    else none
  else if cmd = axCLR_FAULT then
    if x.state = .fault then some ((c.bridgesOff a).onAxis a fun x => { x with state := .disabled }) else none
  else if cmd = axSET_POS then
    if still then some (c.onAxis a fun x => x.setFrame (c.rdInt (Reg.HVI_AX_HOME_OFS a))) else none
  else if cmd = axACCEPT_POS then
    if still then some (c.onAxis a fun x => { x with homed := true }) else none
  else none

/-- STATE of HVI_AX_STATUS. -/
def AxState.code : AxState → Nat
  | .disabled => 0 | .measure => 1 | .ramp => 2 | .ready => 3 | .moving => 4 | .homing => 5 | .still => 6
  | .unpowered => 7 | .fault => 8

/-- The command that waits is taken at a boundary; an AX_CMD that placed it completes (R261, R342). -/
def Chip.takeAxCmd (e : Env) (c : Chip) (a : Fin 8) (t : Nat) : Chip :=
  let x := c.axis[a]
  let c0 := c.onAxis a fun x => { x with cmd := 0, cmdRing := none }
  let (c, ok) :=
    if x.cmd = 0 then (c, true)
    else match c0.axCommand a x.cmd with
      | some c => (c, true)
      | none => (c0.axSticky a xfCMD_REJ, false)
  (List.finRange 256).foldl (fun c (r : Fin 256) =>
    match (c.ring r).cur with
    | some k =>
      if k.work = .axCmd a.val then
        c.finish e r k.desc (if ok && x.cmdRing == some r.val then 0x00 else 0x50) (c.axis[a]).state.code t
      else c
    | none => c) c

/-! ### Moves (R266, R342) -/

/-- New moves are refused while the bit that caused an axis stop is set (R276). -/
def Chip.movesRefused (c : Chip) : Bool :=
  c.bit Reg.HVI_GLB_CFG 0 && (c.rd Reg.MPC_SAFETY_STATUS &&& 0xD00#32) != 0

/-- A move placed in the staging list, or refused (R266, R276). -/
def Chip.stageMove (c : Chip) (a : Fin 8) (m : AxMove) : Chip × Bool :=
  if c.movesRefused ∨ 8 ≤ (c.axis[a]).staged.length then (c.axSticky a xfSTAGE_OVF, false)
  else (c.onAxis a fun x => { x with staged := x.staged ++ [m] }, true)

/-- PUSH: the three shadow values at once (R266). -/
def Chip.pushMove (c : Chip) (a : Fin 8) : Chip :=
  (c.stageMove a ⟨c.rdInt (Reg.HVI_MV_TARGET a), c.rdn (Reg.HVI_MV_SPEED a), c.bit (Reg.HVI_MV_FLAGS a) 0,
    c.bit (Reg.HVI_MV_FLAGS a) 1, none⟩).1

/-- One staged move appended at an HVI commit: the status of the AX_MOVE that placed it (R266, R342). One that ends where it
starts is removed: here where its start is known, else as it would start. -/
def Chip.appendMove (c : Chip) (a : Fin 8) (m : AxMove) : Chip × Nat :=
  let x := c.axis[a]
  if x.state = .unpowered ∨ x.state = .fault ∨ x.state = .disabled ∨ x.state = .measure then (c, 0x48)
  else if 64 ≤ x.queue.length then (c.axSticky a xfQUEUE_OVF, 0x51)
  else
    let base := (x.queue.getLast?.map (·.target)).getD (asr x.s 32)
    let target := if m.rel then base + m.target else m.target
    let c := if c.actn (Reg.HVI_AX_VMAX a) < m.speed then c.axSticky a xfVEL_CAP else c
    let stays : Bool := match x.queue.getLast? with
      | some k => k.target == target
      | none => decide (x.doing = .rest) && target * 2 ^ 32 == x.s
    if stays then (c, 0x00)
    else (c.onAxis a fun x => { x with queue := x.queue ++ [⟨target, m.speed, m.blend, false⟩] }, 0x00)

/-- The AX_MOVE on a ring completes at its commit boundary. -/
def Chip.moveDone (e : Env) (c : Chip) (a : Fin 8) (r status t : Nat) : Chip :=
  match inst? 256 r with
  | none => c
  | some r =>
    match (c.ring r).cur with
    | some k =>
      match k.work with
      | .axMove b full =>
        if b = a.val then c.finish e r k.desc (if full then 0x51 else status) (c.axis[a]).queue.length t else c
      | _ => c
    | none => c

/-- The HVI commit of one axis at the boundary of tick t: staged moves go to the queue in push order. An AX_MOVE whose staged
move has been flushed since completes NOT_ACTIVE (R261, R342). -/
def Chip.commitMoves (e : Env) (c : Chip) (a : Fin 8) (t : Nat) : Chip :=
  let st := (c.axis[a]).staged
  let c := c.onAxis a fun x => { x with staged := [] }
  let c := st.foldl (fun (c : Chip) (m : AxMove) =>
    let (c, k) := c.appendMove a m
    match m.ring with
    | some r => c.moveDone e a r k t
    | none => c) c
  (List.finRange 256).foldl (fun c (r : Fin 256) =>
    match (c.ring r).cur with
    | some k =>
      if k.work = .axMove a.val true then c.moveDone e a r 0x51 t
      else if k.work = .axMove a.val false then c.moveDone e a r 0x48 t
      else c
    | none => c) c

/-- Offsets that the HVI bit of TTU_COMMIT_REQ commits (R277). -/
def isHvi (a : Nat) : Bool := 0x110000 ≤ a && a < 0x120000

/-! ### Commutation (R262) -/

/-- Entry k of the microstep table. -/
def Chip.microstep (c : Chip) (k : Nat) : Int := (findKey (k % 1024) c.island.tab).getD (sineEntry k)

/-- The amplitude code (R262). -/
def Chip.amplitude (c : Chip) (a : Nat) : Nat :=
  min 32767 (rndDiv (c.actFld (Reg.HVI_AX_CUR a) 15 0 * c.fld (Reg.HVI_AX_SENSE a) 15 0 * 32768 : Nat) 15000000).toNat

def Chip.rampTicks (c : Chip) (a : Nat) : Nat := c.actFld (Reg.HVI_AX_STILL a) 15 4

/-- The angle advanced by a change of floor(s), and the tick's phase references (R262). -/
def Chip.commutate (c : Chip) (a : Fin 8) (ds : Int) : Chip :=
  let x := c.axis[a]
  let adv := if c.bit (Reg.HVI_AX_BRIDGE a) 16 then -ds else ds
  let th := ((x.theta + adv) % 1024).toNat
  let full := c.amplitude a
  let k := x.rampTick + 1
  let amp : Nat := match x.state with
    | .ramp => (rndDiv (full * min k (c.rampTicks a) : Nat) (c.rampTicks a)).toNat
    | .ready => full
    | .moving => full
    | .homing => full
    | _ => 0
  let ref (i : Nat) : Int := sat16 (rndShift (c.microstep i * amp) 15)
  c.onAxis a fun x => { x with
    theta := th, amp := amp, refs := (ref th, ref (th + 256)), rampTick := if x.state = .ramp then k else x.rampTick }

/-- The duty of a phase in 2^-16, clamped to DUTY_MAX (R264). -/
def Chip.phaseDuty (c : Chip) (a : Fin 8) (p : Fin 2) : Int :=
  let m : Int := c.fld (Reg.HVI_AX_SENSE a) 31 16
  clampInt (-m) m (2 * c.trimOf (phaseLoop a p))

/-- Duties loaded at a carrier-period start (R264). -/
def Chip.loadDuty (c : Chip) (a : Fin 8) (t : Nat) : Chip :=
  if t % max 1 (c.fld (Reg.HVI_AX_BRIDGE a) 7 0) = 0 ∧ (c.axis[a]).bridge = 1 ∧ (c.axis[a]).wind.isNone then
    c.onAxis a fun x => { x with duty := (c.phaseDuty a 0, c.phaseDuty a 1) }
  else c

/-- The high side and the low side of half-bridge `half` at unit `u` of a carrier period of `p` units (R259, R264, R271): the
leg that drives is high for |d| of the period, centred, and low for the rest; each gate turns on DEAD units after the other
has turned off. -/
def Axis.gates (x : Axis) (p dead u : Nat) (half : Fin 4) : Bool × Bool :=
  let d := if half.val < 2 then x.duty.1 else x.duty.2
  let drives := decide (d ≠ 0) && ((half.val % 2 == 0) == decide (0 < d))
  if x.bridge = 0 then (false, false)
  else if x.bridge = 2 ∨ !drives then (false, true)
  else
    let w := 2 ^ 16
    let on := p * (w - d.natAbs)
    let off := p * (w + d.natAbs)
    let at_ := 2 * w * u
    let wait := 2 * w * dead
    (decide (on + wait ≤ at_ ∧ at_ < off),
      decide (at_ < on ∧ off + wait ≤ at_ + 2 * w * p) || decide (off + wait ≤ at_))

/-- The gates of an axis at unit u of the tick in progress. -/
def Chip.gatesOf (c : Chip) (a : Fin 8) (u : Nat) (half : Fin 4) : Bool × Bool :=
  let b := Reg.HVI_AX_BRIDGE a
  let k := max 1 (c.fld b 7 0)
  (c.axis[a]).gates (k * c.N) (c.fld b 15 8) (c.ttu.index % k * c.N + u) half

/-! ### Due transitions -/

/-- RAMP_COMPLETE. -/
def Chip.rampDone (c : Chip) (a : Fin 8) : Chip :=
  let x := c.axis[a]
  if x.state = .ramp ∧ c.rampTicks a ≤ x.rampTick then
    match x.rampTo with
    | .homing => (c.onAxis a fun x => { x with state := .ready, restTicks := 0 }).startSearch a
    | _ => c.onAxis a fun x => { x with state := .ready, restTicks := 0 }
  else c

/-- STILL: STILL_MS at rest with an empty queue (R261, R271). -/
def Chip.goStill (c : Chip) (a : Fin 8) : Chip :=
  let x := c.axis[a]
  let ms := c.actFld (Reg.HVI_AX_STILL a) 31 16
  if x.state = .ready ∧ x.queue.isEmpty ∧ ms * 4000000 ≤ x.restTicks * c.N * 5 then
    (c.bridgesOff a).onAxis a fun x => { x with
      state := .still, bridge := if c.actFld (Reg.HVI_AX_STILL a) 0 0 = 1 then 2 else 0 }
  else c

/-- AXIS_FB_FAULT: a phase loop in FB_OPEN for LOST_L advancing ticks (R263). -/
def Chip.axisFbFault (c : Chip) (a : Fin 8) (p : Fin 2) : Chip :=
  let m := phaseLoop a p
  let l := c.mpc.loops[m]
  if !c.recoverDue m && decide (l.state = .fbOpen) && decide (c.lostL m ≤ l.count) && (c.axis[a]).state.enabled then
    c.faultNow a 0x05
  else c

/-- LIMIT: the emergency stop of a limit (R274, R275). -/
def Chip.takeLimit (c : Chip) (a : Fin 8) : Chip :=
  let x := c.axis[a]
  if x.limitDue then
    let after : AxAfter := match x.after with
      | .fault k => .fault k
      | _ => .fault (if x.state = .homing then 0x07 else 0x06)
    let c := c.onAxis a fun x => { x.quickStop after with limitDue := false, latch := none }
    if x.doing = .rest then c.afterStop a else c
  else c

/-- HOME_LATCH. -/
def Chip.takeLatch (c : Chip) (a : Fin 8) : Chip :=
  if (c.axis[a]).latchDue.isSome then
    let now_ := c.axNow a
    let deb := c.fld (Reg.HVI_AX_DEB a) 7 0
    let c := c.onAxis a fun x => x.latchEdge c.N deb c.ttu.index now_ true
    match (c.axis[a]).latch with
    | some k => c.wr (Reg.HVI_AX_LATCH a) (BitVec.ofInt 32 k.pl)
    | none => c
  else c

/-- DEBOUNCE_END, or too many transitions inside the window (R275). -/
def Chip.takeDebounce (c : Chip) (a : Fin 8) (now_ : Nat) : Chip :=
  let x := c.axis[a]
  match x.latch with
  | none => c
  | some k =>
    if !x.searching then c
    else if c.fld (Reg.HVI_AX_DEB a) 11 8 < k.count then
      (c.onAxis a fun x => { x.endSearch .homeFail with latch := none }).axSticky a xfCHATTER
    else if k.till ≤ now_ then
      if k.active then c.onAxis a fun x => { x.endSearch (.homed k.pl) with latch := none }
      else (c.onAxis a fun x => { x with latch := none }).axSticky a xfGLITCH
    else c

/-- HOME_RANGE_EXCEEDED (R275). -/
def Chip.takeRange (c : Chip) (a : Fin 8) : Chip :=
  let x := c.axis[a]
  if x.searching ∧ c.rdn (Reg.HVI_AX_HOME_RANGE a) * 2 ^ 32 ≤ (x.s - x.homeFrom).natAbs then
    c.onAxis a fun x => { x.endSearch .homeFail with latch := none }
  else c

/-- Every transition that is due and has not been taken, before the tick closes. -/
def Chip.takeAxisDues (c : Chip) (a : Fin 8) : Chip :=
  let c := (c.axisFbFault a 0).axisFbFault a 1
  let c := ((c.rampDone a).goStill a).takeLimit a
  ((c.takeLatch a).takeDebounce a ((c.ttu.index + 1) * c.N - 1)).takeRange a

/-! ### A tick -/

/-- A raw transition delivered to an axis, stamped with unit u of tick t (R274, R275, R281): while it homes, of any limit port
but HOME_PORT. -/
def Chip.axisEdge (c : Chip) (a : Fin 8) (p : Nat) (t u : Nat) : Chip :=
  let x := c.axis[a]
  let c :=
    if x.searching ∧ c.homePort a = p then
      let c := (c.takeLatch a).takeDebounce a (t * c.N + u)
      let act := c.homeActive a
      match (c.axis[a]).latch with
      | some k => c.onAxis a fun x => { x with latch := some { k with count := k.count + 1, active := act } }
      | none => if act ∧ (c.axis[a]).searching then c.onAxis a fun x => { x with latchDue := some (t, u) } else c
    else c
  let hit (dir : Int) : Bool := c.limitPort a dir == p && c.limitActive a dir
  let limit := if x.state = .homing then decide (c.homePort a ≠ p) && (hit 1 || hit (-1)) else hit x.dir
  if x.doing ≠ .rest ∧ limit then c.onAxis a fun x => { x with limitDue := true } else c

/-- A raw transition of a port delivered to every axis. -/
def Chip.deliverEdge (c : Chip) (p : Nat) (t u : Nat) : Chip :=
  (List.finRange 8).foldl (fun c a => c.axisEdge a p t u) c

/-- The axis at the boundary of tick t: a frame shift, PWM_RANGE after a regrid, its command, its commit and
the duties of a period start. -/
def Chip.openAxis (e : Env) (c : Chip) (a : Fin 8) (t : Nat) (commit regrid : Bool) : Chip :=
  let c := match (c.axis[a]).shift with
    | some k => c.onAxis a fun x => { x with
        shift := none, s := x.s + k * 2 ^ 32, origin := x.origin + k * 2 ^ 32
        queue := x.queue.map (fun (m : QMove) => { m with target := m.target + k }) }
    | none => c
  let c := if regrid then c.axRelimit a else c
  let c := if regrid && (c.axis[a]).state.enabled && !c.carrierOk a then c.faultNow a 0x08 else c
  let c := if commit then (c.commitAll fun x => isHvi x && (x - 0x110000) / 0x100 == a.val).axRelimit a else c
  let c := c.takeAxCmd e a t
  let c := if commit then c.commitMoves e a t else c
  c.loadDuty a t

/-- The axis's work of the tick that closes (R261, R262, R267 to R270). -/
def Chip.closeAxis (c : Chip) (a : Fin 8) : Chip :=
  let c := c.takeAxisDues a
  let x := c.axis[a]
  let c := if x.doing = .rest ∧ !x.queue.isEmpty then
      (if x.state = .ready ∨ x.state = .moving then c.startMove a (x.queue.length + 1)
       else if x.state = .still then c.startRamp a .moving else c)
    else c
  let c := c.onAxis a fun x =>
    if x.state = .moving ∧ x.doing = .rest ∧ x.queue.isEmpty then { x with state := .ready, restTicks := 0 } else x
  let hv := c.homeVel a
  let (y, def_) := (c.axis[a]).tryLims c.N hv
  let c := if def_ then (c.onAxis a fun _ => y).axSticky a xfDECEL_DEFERRED else c.onAxis a fun _ => y
  let (ap, bad) := y.accel y.lims c.N hv
  let c := if bad then c.axFlag a xfBRAKE_SAT 0 else c
  let (z, rest) := y.stepMotion ap
  let c := c.onAxis a fun _ => { z with last := ⟨y.s, y.dir * y.v, y.dir * ap⟩ }
  let c := c.commutate a (asr z.s 32 - asr y.s 32)
  let c := if rest then
      (if y.doing = .moves then (if z.queue.isEmpty then c.onAxis a fun x => { x with state := .ready, restTicks := 0 } else c)
       else c.afterStop a)
    else c
  c.onAxis a fun x => { x with
    restTicks := if x.state = .ready ∧ x.queue.isEmpty ∧ x.doing = .rest then x.restTicks + 1 else 0 }

/-- HVI_AX_STATUS, HVI_AX_VEL and HVI_AX_ANGLE as read. -/
def Axis.status (x : Axis) : Nat :=
  x.state.code + 2 ^ 4 * b2n x.homed + 2 ^ 5 * b2n (x.limPend.isSome && !x.limTry) + 2 ^ 8 * x.queue.length + 2 ^ 16 * x.staged.length

def Chip.axVelocity (c : Chip) (a : Fin 8) : Int :=
  let x := c.axis[a]
  satS 32 (rndDiv (x.dir * x.v * 800000000) ((c.N : Int) * 2 ^ 32))

/-! ### Safety and the island (R260, R265, R272, R276) -/

/-- An axis moves, or has moves that it would start. -/
def Axis.underway (x : Axis) : Bool := decide (x.doing ≠ .rest) || x.state = .moving || !x.queue.isEmpty

/-- The emergency stop of R270, which flushes the queue; an axis at rest between moves ends in READY at once. -/
def Chip.haltAxis (c : Chip) (a : Fin 8) : Chip :=
  c.onAxis a fun x =>
    let y := { x.quickStop x.stopAfter with latch := none }
    if x.doing = .rest ∧ x.state = .moving then { y with state := .ready, after := .ready, restTicks := 0 } else y

/-- The emergency stop of every moving axis on an ESTOP or expiry (R276). -/
def Chip.estopAxes (c : Chip) : Chip :=
  if c.bit Reg.HVI_GLB_CFG 0 then
    (List.finRange 8).foldl (fun c (a : Fin 8) =>
      if (c.axis[a]).underway then (c.haltAxis a).axSticky a xfAXIS_ESTOP else c) c
  else c

/-- The orderly stop of every moving axis in the power-fail sequence (R369). -/
def Chip.stopAxes (c : Chip) : Chip :=
  (List.finRange 8).foldl (fun c (a : Fin 8) => if (c.axis[a]).underway then c.haltAxis a else c) c

/-- VBUS as the island reports it, in 10 mV. -/
def Chip.setVbus (c : Chip) (v : Nat) : Chip := c.setFld Reg.HVI_ISL_STATUS 15 0 (min v 0xFFFF)

/-- VBUS_UV: the island becomes unpowered: every bridge is off (R260, R261). -/
def Chip.islandOff (c : Chip) : Chip :=
  let c := { c with island := { c.island with powered := false } }
  let c := c.sticky Reg.HVI_ISL_FLAGS 0x1
  (List.finRange 8).foldl (fun c (a : Fin 8) =>
    let c := c.bridgesOff a
    if (c.axis[a]).state.enabled && decide ((c.axis[a]).state ≠ .unpowered) then
      (c.onAxis a fun x => { x.rests with
        state := .unpowered, after := .ready, queue := [], staged := [], latch := none, latchDue := none
        limitDue := false }).axSticky a xfVBUS_LOST
    else c) c

/-- VBUS_OV: every bridge is off, and every enabled axis faults (R260). -/
def Chip.overVolt (c : Chip) : Chip :=
  (List.finRange 8).foldl (fun c (a : Fin 8) =>
      if (c.axis[a]).state.enabled then c.faultNow a 0x02 else c.bridgesOff a)
    (c.sticky Reg.HVI_ISL_FLAGS 0x2)

/-- VBUS as a tick reports it, against both thresholds (R260). -/
def Chip.takeVbus (c : Chip) (v : Nat) : Chip :=
  let c := c.setVbus v
  let c := if v < c.fld Reg.HVI_ISL_CFG 15 0 ∧ c.island.powered then c.islandOff else c
  if c.fld Reg.HVI_ISL_CFG 31 16 < v then c.overVolt else c

/-- ISLAND_POWERED: enabled axes ramp again (R260, R261). -/
def Chip.islandOn (c : Chip) : Chip :=
  let c := { c with island := { c.island with powered := true } }
  (List.finRange 8).foldl (fun c (a : Fin 8) => if (c.axis[a]).state = .unpowered then c.startRamp a .ready else c) c

/-! ### Shunt currents (R259, R272, R273) -/

/-- A current in mA against a sample's code, both in units in which full scale is 150 mV across SHUNT (R259, R262). -/
def codeMag (code : Int) : Nat := code.natAbs * 15000000
def Chip.maMag (c : Chip) (a ma : Nat) : Nat := ma * c.fld (Reg.HVI_AX_SENSE a) 15 0 * 32768

/-- Results of a winding measurement (R273): the reading of one phase from the two pulses' times in sub-step
instants, L in µH and R in mΩ. -/
def windPhase (n vbus dmax test t1 t2 : Nat) : Nat × Nat :=
  let l := (rndDiv (vbus * dmax * (t1 * n * 5) : Nat) (65536000 * test * 64 : Nat)).toNat
  (if t2 = 0 then 0xFFFF else (rndDiv (1000000 * l * 64 : Nat) (t2 * n * 5 : Nat)).toNat, l)

/-- A winding measurement fails (R261, R273). -/
def Chip.windFail (c : Chip) (a : Fin 8) (cause : Nat) : Chip := (c.axSticky a xfWIND_ERR).faultNow a cause

/-- Both phases have been measured: their results lie in the windows or not (R273). -/
def Chip.windJudge (c : Chip) (a : Fin 8) : Chip :=
  let w := Reg.HVI_AX_WIND_LIM a
  let ok (r : Nat) : Bool := decide (50 * c.fld w 7 0 ≤ c.fld r 15 0 ∧ c.fld r 15 0 ≤ 50 * c.fld w 15 8 ∧
    100 * c.fld w 23 16 ≤ c.fld r 31 16 ∧ c.fld r 31 16 ≤ 100 * c.fld w 31 24)
  if ok (Reg.HVI_AX_WIND_A a) && ok (Reg.HVI_AX_WIND_B a) then c.startRamp a .ready else c.windFail a 0x04

/-- The current of a pulse has decayed: the next pulse, or the result of the phase (R273). -/
def Chip.windNext (c : Chip) (a : Fin 8) (w : WindRun) : Chip :=
  if !w.neg then c.windGo a { w with neg := true, stage := .drive 1 }
  else
    let (r, l) := windPhase c.N (c.fld Reg.HVI_ISL_STATUS 15 0 * 10) (c.fld (Reg.HVI_AX_SENSE a) 31 16)
      (c.fld (Reg.HVI_AX_WIND_CFG a) 15 0) w.t1 w.t2
    let c := c.wrn (if w.phase = 0 then Reg.HVI_AX_WIND_A a else Reg.HVI_AX_WIND_B a) (min r 0xFFFF + 2 ^ 16 * min l 0xFFFF)
    if w.phase = 0 then c.windGo a ⟨1, false, .drive 1, 0, 0⟩ else c.windJudge a

/-- The phase under test at one sub-step instant: its sample, where one has arrived (R273). -/
def Chip.windSample (c : Chip) (a : Fin 8) (code : Option Int) : Chip :=
  match (c.axis[a]).wind with
  | none => c
  | some w =>
    let ts := c.fld (Reg.HVI_AX_WIND_CFG a) 15 0
    let i := code.map codeMag
    match w.stage with
    | .drive n =>
      if i.any fun m => c.maMag a ts ≤ m then c.windGo a { w with stage := .decay 1, t1 := w.t1 + n }
      else if 160000000 ≤ n * c.N * 5 then c.windFail a 0x03
      else c.windGo a { w with stage := .drive (n + 1) }
    | .decay n =>
      if i.any fun m => m ≤ c.maMag a (rndDiv (ts * 3679 : Nat) 10000).toNat then c.windGo a { w with stage := .wait, t2 := w.t2 + n }
      else c.windGo a { w with stage := .decay (n + 1) }
    | .wait => if i.any fun m => 20 * m < c.maMag a ts then c.windNext a w else c

/-- A sample of a phase of an axis that stands or has no bus: four above MOVE_DET_MA in a row are a motion (R272). -/
def Chip.moveSample (c : Chip) (a : Fin 8) (p : Fin 2) (code : Int) : Chip :=
  let x := c.axis[a]
  let above := (x.state = .still ∨ x.state = .unpowered) ∧ c.maMag a (c.fld (Reg.HVI_AX_PROT a) 31 16) < codeMag code
  let n := if above then (if p = 0 then x.moved.1 else x.moved.2) + 1 else 0
  let c := c.onAxis a fun x => { x with moved := if p = 0 then (n, x.moved.2) else (x.moved.1, n) }
  if n = 4 then (c.onAxis a fun x => { x with homed := false }).axFlag a xfMOVED_UNPOWERED 0 else c

/-- The sample sets of an axis in one tick. -/
def Chip.axisSamples (c : Chip) (a : Fin 8) (sets : List (List Int)) : Chip :=
  let c := (List.range 8).foldl (fun (c : Chip) (j : Nat) =>
    c.windSample a (match (c.axis[a]).wind with
      | some w => (sets.getD w.phase.val [])[j]?
      | none => none)) c
  (List.finRange 2).foldl (fun (c : Chip) (p : Fin 2) =>
    (sets.getD p.val []).foldl (fun (c : Chip) (k : Int) => c.moveSample a p k) c) c

/-! ### Commands -/

/-- AXIS_FB_FAULT. -/
def execAxisFbFault (a : Fin 8) (p : Fin 2) (s : State) : Host.Outcome State Fault Refusal :=
  .next (s.act fun _ c => c.axisFbFault a p)

/-- WINDING_MEASUREMENT (R273): samples of the phase under test at the next sub-step instants. -/
def execWindingMeasurement (a : Fin 8) (codes : List Int) (s : State) : Host.Outcome State Fault Refusal :=
  .next (s.act fun _ c => codes.foldl (fun (c : Chip) (k : Int) => c.windSample a (some k)) c)

/-- RAMP_COMPLETE. -/
def execRampComplete (a : Fin 8) (s : State) : Host.Outcome State Fault Refusal := .next (s.act fun _ c => c.rampDone a)

/-- STILL. -/
def execStill (a : Fin 8) (s : State) : Host.Outcome State Fault Refusal := .next (s.act fun _ c => c.goStill a)

/-- LIMIT. -/
def execLimit (a : Fin 8) (s : State) : Host.Outcome State Fault Refusal := .next (s.act fun _ c => c.takeLimit a)

/-- HOME_LATCH. -/
def execHomeLatch (a : Fin 8) (s : State) : Host.Outcome State Fault Refusal := .next (s.act fun _ c => c.takeLatch a)

/-- DEBOUNCE_END: decided where the window ends in the current tick or before it. -/
def execDebounceEnd (a : Fin 8) (s : State) : Host.Outcome State Fault Refusal :=
  .next (s.act fun _ c => c.takeDebounce a ((c.ttu.index + 1) * c.N - 1))

/-- HOME_RANGE_EXCEEDED. -/
def execHomeRangeExceeded (a : Fin 8) (s : State) : Host.Outcome State Fault Refusal :=
  .next (s.act fun _ c => c.takeRange a)

/-- A comparator trips when |I| exceeds OC_MA, in every state (R265). An axis that is in FAULT already takes the new cause
without another entry (DEDUCED, log entry 99). -/
def Chip.overcurrent (c : Chip) (a : Fin 8) (ma : Nat) : Chip :=
  if ma ≤ c.fld (Reg.HVI_AX_PROT a) 15 0 then c
  else if (c.axis[a]).state = .fault then (c.bridgesOff a).setFld (Reg.HVI_AX_FAULT a) 7 0 0x01
  else c.faultNow a 0x01

/-- OVERCURRENT (R265). -/
def execOvercurrent (x : ShuntPeak) (s : State) : Host.Outcome State Fault Refusal :=
  .next (s.act fun _ c => c.overcurrent x.axis x.ma)

/-- VBUS_UV: the island reports a VBUS below the threshold. -/
def execVbusUv (mv10 : Nat) (s : State) : Host.Outcome State Fault Refusal :=
  .next (s.act fun _ c =>
    let c := c.setVbus mv10
    if mv10 < c.fld Reg.HVI_ISL_CFG 15 0 ∧ c.island.powered then c.islandOff else c)

/-- ISLAND_POWERED: VBUS has stayed at or above VBUS_UV + 1.0 V for 10 ms. -/
def execIslandPowered (mv10 : Nat) (s : State) : Host.Outcome State Fault Refusal :=
  .next (s.act fun _ c =>
    let c := c.setVbus mv10
    if c.fld Reg.HVI_ISL_CFG 15 0 + 100 ≤ mv10 ∧ !c.island.powered then c.islandOn else c)

/-- VBUS_OV (R260). -/
def execVbusOv (mv10 : Nat) (s : State) : Host.Outcome State Fault Refusal :=
  .next (s.act fun _ c =>
    let c := c.setVbus mv10
    if c.fld Reg.HVI_ISL_CFG 31 16 < mv10 then c.overVolt else c)

/-- MOVED_UNPOWERED (R272): samples of a phase that the island's logic has taken. -/
def execMovedUnpowered (x : ShuntSamples) (s : State) : Host.Outcome State Fault Refusal :=
  .next (s.act fun _ c => x.codes.foldl (fun (c : Chip) (k : Int) => c.moveSample x.axis x.phase k) c)

end Sys2Proof.Machine
end

