-- ==== Sys2Proof/Machine/Sensor.lean ====
section
/-! DEFINITION. Temperatures from resistance and from thermoelectric voltage (R279). The reference functions are those of
IEC 60751 and IEC 60584-1, which R279 names; their coefficients are PRESUMED from those standards (log entry 14). -/

namespace Sys2Proof.Machine

/-! Temperatures are counted in 1/200 °C, half of the resolution, so that a result rounds to the nearest 0.01 °C. -/

/-- The greatest `j` in `[lo, lo + 2^n)` with `f j ≤ x`, for a rising `f` with `f lo ≤ x`. -/
def bisectRising (f : Int → Int) (x : Int) : Nat → Int → Int
  | 0, lo => lo
  | n + 1, lo => let mid := lo + (2 ^ n : Nat); if f mid ≤ x then bisectRising f x n mid else bisectRising f x n lo

/-- The number of hundredths nearest to the argument at which a rising `f` of 1/200 steps reaches `x`, ties away from
zero. -/
def hundredths (f : Int → Int) (lo x : Int) : Int :=
  let j := bisectRising f x 19 lo
  if j % 2 = 0 then j / 2 else if j < 0 ∧ f j = x then (j - 1) / 2 else (j + 1) / 2

/-! ### Resistance thermometers (IEC 60751) -/

/-- R(t) / R(0) × 1.6 × 10^24 at `j` / 200 °C: 1 + A t + B t² + C (t − 100) t³, the last term below 0 °C. -/
def rtdRatio (j : Int) : Int :=
  1600000000000000000000000 + 31266400000000000000 * j - 23100000000000 * j * j -
    (if j < 0 then 4183 * (j - 20000) * j * j * j else 0)

/-- Temperature in 0.01 °C of a Pt100 or Pt1000 of a resistance in mΩ, held at −200.01 °C or 850.01 °C where it lies
beyond −200 °C to 850 °C. -/
def rtdTemperature (pt1000 : Bool) (r : Int) : Int :=
  let x := r * (if pt1000 then 1600000000000000000 else 16000000000000000000)
  if x < rtdRatio (-40000) then -20001
  else if rtdRatio 170000 < x then 85001
  else hundredths rtdRatio (-40000) x

/-! ### Thermocouples (IEC 60584-1) -/

/-- A coefficient of a reference function in mV: mantissa, and the power of ten that it is divided by. -/
abbrev Coeff := Int × Nat

/-- Type K below and from 0 °C, and type N below and from 0 °C. -/
def typeKLow : List Coeff :=
  [(0, 0), (394501280250, 13), (236223735980, 16), (-328589067840, 18), (-499048287770, 20), (-675090591730, 22),
    (-574103274280, 24), (-310888728940, 26), (-104516093650, 28), (-198892668780, 31), (-163226974860, 34)]
def typeKHigh : List Coeff :=
  [(-176004136860, 13), (389212049750, 13), (185587700320, 16), (-994575928740, 19), (318409457190, 21),
    (-560728448890, 24), (560750590590, 27), (-320207200030, 30), (971511471520, 34), (-121047212750, 37)]
def typeNLow : List Coeff :=
  [(0, 0), (261591059620, 13), (109574842280, 16), (-938411115540, 19), (-464120397590, 22), (-263033577160, 23),
    (-226534380030, 25), (-760893007910, 28), (-934196678350, 31)]
def typeNHigh : List Coeff :=
  [(0, 0), (259293946010, 13), (157101418800, 16), (438256272370, 19), (-252611697940, 21), (643118193390, 24),
    (-100634715190, 26), (997453389920, 30), (-608632456070, 33), (208492293390, 36), (-306821961510, 40)]

/-- Thermoelectric voltages are kept in 10^-52 mV. -/
def emfUnit : Nat := 10 ^ 52

/-- The polynomial at `j` / 200 °C. -/
def polyEmf (cs : List Coeff) (j : Int) : Int :=
  (cs.foldr (fun (k : Coeff) (acc : Int) => k.1 * (10 ^ (72 - k.2) : Nat) + acc * j / 200) 0) / (10 ^ 20 : Nat)

/-- e^(-y) in 2^-128, for y in 2^-128: the series of a 256th of it, raised again. -/
def expNeg (y : Int) : Int :=
  let one : Int := (2 ^ 128 : Nat)
  let z := y / 256
  let (s, _) := (List.range 40).foldl (fun (a : Int × Int) (k : Nat) =>
    (a.1 + a.2, -(a.2 * z / one) / ((k : Int) + 1))) (0, one)
  (List.range 8).foldl (fun (v : Int) _ => v * v / one) s

/-- The exponential term of type K from 0 °C. -/
def typeKBump (j : Int) : Int :=
  let d := 50 * j - 1269686
  1185976 * expNeg (1183432 * d * d * (2 ^ 128 : Nat) / (10 ^ 18 : Nat)) * (10 ^ 45 : Nat) / (2 ^ 128 : Nat)

/-- The reference function of type K or N at `j` / 200 °C. -/
def tcEmf (typeN : Bool) (j : Int) : Int :=
  if typeN then polyEmf (if j < 0 then typeNLow else typeNHigh) j
  else if j < 0 then polyEmf typeKLow j
  else polyEmf typeKHigh j + typeKBump j

/-- The span of the reference functions: −270 °C to 1,372 °C (K) or 1,300 °C (N). -/
def tcLow : Int := -54000
def tcHigh (typeN : Bool) : Int := if typeN then 260000 else 274400

/-- Temperature in 0.01 °C of a thermocouple from its voltage in 0.5 µV and the cold junction in 0.01 °C. Outside the span of the
reference function no temperature is stated: a free value (DESIGN CHOICE, log entry 14). -/
def tcTemperature (typeN : Bool) (v cj : Int) : Int :=
  let x := v * (emfUnit / 2000 : Nat) + tcEmf typeN (2 * cj)
  if tcLow ≤ 2 * cj ∧ 2 * cj ≤ tcHigh typeN ∧ tcEmf typeN tcLow ≤ x ∧ x ≤ tcEmf typeN (tcHigh typeN) then
    hundredths (tcEmf typeN) tcLow x
  else Config.tcTemperature typeN v cj

end Sys2Proof.Machine
end

