-- ==== Sys2Proof/Machine/FieldPort.lean ====
section
/-! DEFINITION. Field ports at work (R279 to R292): enabling, loop measurement, conversions, contact
transitions, trips and output periods. -/

namespace Sys2Proof.Machine

def pfOUT_CLAMP : Nat := 0x80
def pfOUT_DROP : Nat := 0x100

/-- EFP_STATUS and EFP_TRIPPED as read. -/
def Port.status (x : Port) : Nat :=
  (match x.state with | .off => 0 | .diag => 1 | .run => 2 | .tripped => 3) +
    2 ^ 2 * b2n x.valid + 2 ^ 3 * b2n x.raw + 2 ^ 4 * b2n x.stale

def Chip.portsTripped (c : Chip) : Nat :=
  ((List.finRange 24).map fun (p : Fin 24) => b2n ((c.port[p]).state = .tripped) * 2 ^ p.val).sum

/-- A port that enters TRIPPED or OFF counts as active for every axis that names it, from the present instant on
(R283). -/
def Chip.portLost (c : Chip) (p : Fin 24) : Chip :=
  (c.onPort p fun x => { x with lost := true }).deliverEdge p c.ttu.index c.subTick

/-- The port at high impedance and OFF (R283). -/
def Chip.portOff (c : Chip) (p : Fin 24) : Chip :=
  if (c.port[p]).state = .off then c
  else
    let c := c.onPort p fun x => { x with state := .off, valid := false, stale := false }
    (c.wrn (Reg.EFP_VALUE p) 0).portLost p

/-- Entry to DIAG, with which the governor's windows begin (R283, R284). -/
def Chip.portDiag (c : Chip) (p : Fin 24) : Chip :=
  c.onPort p fun x => { x with state := .diag, valid := false, diagAt := c.ttu.up }

/-- A write of EFP_CTRL (R283): enabling, disabling, DIAG and REARM. A REARM comes at least 100 ms after the
trip or is discarded. -/
def Chip.portCtrl (c : Chip) (p : Fin 24) (v : Nat) : Chip :=
  let x := c.port[p]
  if !bitOf v 0 then (c.wrn (Reg.EFP_CTRL p) 0).portOff p
  else
    match x.state with
    | .off =>
      if c.portValid p then
        ((c.wrn (Reg.EFP_CTRL p) 1).setFld (Reg.EFP_DIAG p) 31 30 0).portDiag p
      else (c.wrn (Reg.EFP_CTRL p) 0).portSticky p pfCFG_ERR
    | .run => if bitOf v 1 then c.portDiag p else c
    | .tripped =>
      if !bitOf v 2 then c
      else if x.tripAt + 100 * edgesPerMs ≤ c.ttu.up then c.portDiag p
      else c.portSticky p pfREARM_REJ
    | .diag => c

/-- RESULT of a loop measurement (R290): resistance in 0.1 Ω, current in µA. -/
def diagResult (mode r cur : Nat) : Nat :=
  if 200000 < r then 2
  else if mode = 2 then (if cur < 3600 then 2 else if 21000 < cur then 3 else 1)
  else if (mode = 3 ∧ r < 20) ∨ (mode = 4 ∧ r < 5) then 3
  else 1

/-- Whether a contact counts as closed, from its voltage in mV and current in µA and what it counted as before: closed
below 300 Ω, open above 3 kΩ (R280). -/
def contactClosed (was : Bool) (mv ua : Nat) : Bool :=
  if 10 * mv < 3 * ua then true else if 3 * ua < mv then false else was

/-- The end of a loop measurement: EFP_DIAG, VALID unless OPEN or SHORT applies, and RUN (R283, R290). In DRY
mode OPEN is reported and is no fault. `near`: what the comparator holds of a contact between its thresholds. -/
def Chip.diagDone (c : Chip) (p : Fin 24) (r cur : Nat) (near : Bool) : Chip :=
  if (c.port[p]).state ≠ .diag then c
  else
    let m := c.portMode p
    let k := diagResult m r cur
    let c := c.wrn (Reg.EFP_DIAG p) (min r (2 ^ 24 - 1) + 2 ^ 30 * k)
    let bad : Bool := (k == 2 && m != 1) || k == 3
    let closed := contactClosed near r 10000
    let c := c.onPort p fun x => { x with state := .run, valid := !bad, lost := false, raw := m == 1 && closed }
    let c := if m = 1 then c.wrn (Reg.EFP_VALUE p) (b2n closed) else c
    if bad then c.portFlag p (if k = 2 then pfOPEN else pfSHORT) 0 else c

/-! ### The energy governor (R284) -/

/-- Edges between two samples of the governor, and in one of its windows. -/
def govEdges : Nat := 40
def govWindow : Nat := edgesPerMs

/-- Four samples in a row above a threshold, the last of them the newest. -/
def fourAbove (limit : Nat) (newest : List Nat) : Bool :=
  decide (4 ≤ newest.length) && (newest.take 4).all fun x => decide (limit < x)

/-- The flags of the trip conditions that hold at the newest of the governor's samples. `samples`: current in µA and
voltage in mV, oldest first, at 20 MHz up to the present instant; those before the entry to DIAG are not the governor's.
The energy of the window in progress is in 10^-17 J × 5. -/
def Chip.govTrips (c : Chip) (p : Fin 24) (samples : List (Nat × Nat)) : Nat :=
  let g := Reg.EFP_GOV_CFG p
  let age := c.ttu.up - (c.port[p]).diagAt
  let newest := samples.reverse.take (age / govEdges + 1)
  let window := newest.take (age % govWindow / govEdges + 1)
  let energy := (window.map fun x => x.1 * x.2).sum
  (if fourAbove (c.fld g 7 0 * 100) (newest.map (·.1)) then pfTRIP_I else 0) +
    (if fourAbove (c.fld g 15 8 * 100) (newest.map (·.2)) then pfTRIP_U else 0) +
    (if c.fld g 22 16 * 20000000000 < energy then pfTRIP_E else 0)

/-- Samples of the governor. A trip condition that holds puts the port at high impedance (R283, R284). -/
def Chip.portTrip (c : Chip) (p : Fin 24) (samples : List (Nat × Nat)) : Chip :=
  let x := c.port[p]
  let k := c.govTrips p samples
  if (x.state = .diag ∨ x.state = .run) ∧ k ≠ 0 then
    let c := c.onPort p fun x => { x with state := .tripped, valid := false, tripAt := c.ttu.up }
    ((c.bump (Reg.EFP_TRIP_CNT p)).portFlag p k 0).portLost p
  else c

/-- A measured value in EFP_VALUE, and for the level 1 loops that the port feeds (R279, R188). -/
def Chip.portValue (c : Chip) (p : Fin 24) (v : Int) : Chip :=
  (c.wr (Reg.EFP_VALUE p) (BitVec.ofInt 32 v)).l1Feed 2 p v

/-- A value held inside the mode's range, and RANGE where it lay outside (R279, R291). -/
def Chip.portRanged (c : Chip) (p : Fin 24) (lo hi v : Int) : Chip :=
  let w := clampInt lo hi v
  (if w = v then c else c.portSticky p pfRANGE).portValue p w

/-- VALID falls, with a flag and its event (R283). -/
def Chip.portInvalid (c : Chip) (p : Fin 24) (b : Nat) : Chip :=
  (c.onPort p fun x => { x with valid := false }).portFlag p b 0

/-- A conversion (R279, R290). `raw`: the quantity converted, in µA (MA, OUT), mΩ with the lead (RTD) or
0.5 µV (TC); `open_`: the input is open; `cj`: the cold junction of the port domain in 0.01 °C, as EFP_CJC
shows it. -/
def Chip.convert (c : Chip) (p : Fin 24) (raw : Int) (open_ : Bool) (cj : Option Int) : Chip :=
  let x := c.port[p]
  if x.state = .run ∧ x.valid ∧ !x.stale then
    match c.portMode p with
    | 2 =>
      if raw < 3600 then c.portInvalid p pfOPEN
      else if 21000 < raw then c.portInvalid p pfSHORT
      else c.portRanged p 0 25000 raw
    | 3 =>
      if open_ then c.portInvalid p pfOPEN
      else c.portRanged p (-20000) 85000 (rtdTemperature (c.portSub p == 1) (raw - c.fld (Reg.EFP_LEAD p) 15 0))
    | 4 =>
      let c := match cj with
        | some t => c.wrn Reg.EFP_CJC (unsOf 31 t + 2 ^ 31)
        | none => c.wrn Reg.EFP_CJC 0
      if open_ then c.portInvalid p pfOPEN
      else
        match cj with
        | none => c.portSticky p pfCJC_ERR
        | some t =>
          let r := clampInt (-160000) 160000 raw
          let c := if r = raw then c else c.portSticky p pfRANGE
          c.portValue p (tcTemperature (c.portSub p == 1) r t)
    | 5 => c.portValue p raw
    | _ => c
  else c

/-- The contact's voltage in mV and current in µA as they change; a transition is stamped with the present unit less the filter delay of 64 units: a stamp that falls back across the
boundary belongs to the tick before (R281). -/
def Chip.dryEdge (c : Chip) (p : Fin 24) (mv ua : Nat) : Chip :=
  let x := c.port[p]
  let closed := contactClosed x.raw mv ua
  let u := c.subTick
  if c.portMode p = 1 ∧ x.state = .run ∧ x.raw ≠ closed then
    let c := c.onPort p fun x => { x with raw := closed }
    let c := c.bump (Reg.EFP_EDGE_CNT p)
    let c := if 64 ≤ u then c.deliverEdge p c.ttu.index (u - 64)
      else c.deliverEdge p (c.ttu.index - 1) (c.N + u - 64)
    if (c.port[p]).valid ∧ !(c.port[p]).stale then c.portValue p (b2n closed) else c
  else c

/-- The start of an output period: the duty last written takes effect (R282). -/
def Chip.outPeriod (c : Chip) (p : Fin 24) : Chip :=
  if c.portMode p = 5 ∧ (c.port[p]).state = .run then
    c.onPort p fun x => { x with duty := if c.bit (Reg.EFP_OUT p) 16 then x.dutyL1 else c.fld (Reg.EFP_OUT p) 15 0 }
  else c

/-! ### Commands -/

/-- DIAG_COMPLETE (R290). -/
def execDiagComplete (p : Fin 24) (r cur : Nat) (near : Bool) (s : State) : Host.Outcome State Fault Refusal :=
  .next (s.act fun _ c => c.diagDone p r cur near)

/-- CONVERSION (R279). -/
def execConversion (p : Fin 24) (raw : Int) (open_ : Bool) (cj : Option Int) (s : State) :
    Host.Outcome State Fault Refusal :=
  .next (s.act fun _ c => c.convert p raw open_ cj)

/-- DRY_TRANSITION (R281). -/
def execDryTransition (p : Fin 24) (mv ua : Nat) (s : State) : Host.Outcome State Fault Refusal :=
  .next (s.act fun _ c => c.dryEdge p mv ua)

/-- OUT_PERIOD_START (R282). -/
def execOutPeriodStart (p : Fin 24) (s : State) : Host.Outcome State Fault Refusal :=
  .next (s.act fun _ c => c.outPeriod p)

end Sys2Proof.Machine
end

