-- ==== Sys2Proof/Machine/Assay.lean ====
section
/-! DEFINITION. Assay calibration (R429 to R437), the supply and temperature monitors (R438 to R441). -/

namespace Sys2Proof.Machine

/-- ASY_FLAGS bits (R444). -/
def afREF_RANGE : Nat := 0x1
def afCHAN_FAIL : Nat := 0x2
def afTRIM_RANGE : Nat := 0x4
def afABORTED : Nat := 0x8

def Chip.onAsy (c : Chip) (f : AsyRun → AsyRun) : Chip := { c with asy := c.asy.map f }

/-! ### Channels (R429, R434, R435) -/

/-- D and LSB_NV of a channel (R429). -/
def asyScale (ch : Nat) : Nat × Nat := if ch < 24 then (1, 1000) else if ch < 48 then (40, 500) else (1, 100000)

/-- The expected reference code E (R429). -/
def asyExpected (ch refUv : Nat) : Int :=
  let (d, l) := asyScale ch
  rndDiv (16000 * refUv : Nat) (d * l : Nat)

/-- The field port of a channel. -/
def asyPort (ch : Nat) : Option (Fin 24) := if ch < 48 then inst? 24 (ch % 24) else none

/-- Whether a field-port channel may be measured: its port in RUN, its range in use (R434). -/
def Chip.asyReady (c : Chip) (ch : Nat) : Bool :=
  match asyPort ch with
  | none => true
  | some p =>
    let m := c.portMode p
    (c.port[p]).state = .run && (if ch < 24 then m == 2 || m == 3 || m == 5 else m == 4)

/-- STALE of a channel's output (R435). -/
def Chip.asyStale (c : Chip) (ch : Nat) (b : Bool) : Chip :=
  match asyPort ch with
  | some p => c.onPort p fun x => { x with stale := b }
  | none => c.setFld (Reg.MON_RAIL (ch - 48)) 16 16 (b2n b)

/-- The trims of a register as signed numbers. -/
def ofsTrim (w : Nat) : Int := signOf 12 (bitsOf w 11 0)
def gainTrim (w : Nat) : Int := signOf 12 (bitsOf w 27 16)
def trimWord (o g : Int) : Nat := unsOf 12 o + 2 ^ 16 * unsOf 12 g

/-! ### The result record (R437) -/

/-- A result entry. -/
def asyEntry (ch res trims : Nat) (ofs gain ref m0 m1 : Int) : List Byte :=
  let s (n : Nat) (v : Int) : List Byte := leBytes n (unsOf (8 * n) v)
  leBytes 1 ch ++ leBytes 1 res ++ leBytes 2 0 ++ s 2 (ofsTrim trims) ++ s 2 (gainTrim trims) ++
    s 4 ofs ++ s 4 gain ++ s 4 ref ++ s 4 m0 ++ s 4 m1 ++ leBytes 4 0

/-- The record: header and entries, with RES_CRC over every other byte. -/
def asyRecord (status chans failed : Nat) (refUv refUnc tick : Nat) (rows : List Byte) : List Byte :=
  let h := leBytes 1 status ++ leBytes 1 chans ++ leBytes 1 failed ++ leBytes 1 0 ++ leBytes 4 refUv ++
    leBytes 2 refUnc ++ leBytes 2 0 ++ leBytes 8 tick ++ leBytes 8 0
  h ++ leBytes 4 (crc32 (h ++ rows)) ++ rows

/-- The channels of a mask, in ascending order. -/
def asyChans (mask : Nat) : List Nat := (List.range 56).filter fun i => bitOf mask i

/-! ### A run (R432 to R436) -/

/-- The ASSAY descriptor in progress, if its ring still owes it (R344). -/
def Chip.asyRing (c : Chip) : Option (Fin 256 × Desc) :=
  (List.finRange 256).findSome? fun r => match (c.ring r).cur with
    | some ⟨d, .assay⟩ => some (r, d)
    | _ => none

/-- The end of a run: the record, the flags and the completion (R431, R437). -/
def Chip.asyFinish (e : Env) (c : Chip) (x : AsyRun) : Chip :=
  let status := if x.abort then 0x4D else if x.failed = 0 then 0 else 0x03
  let c := { c with asy := none }
  let c := if status = 0x03 then c.sticky Reg.ASY_FLAGS afCHAN_FAIL else c
  let c := if x.abort then c.sticky Reg.ASY_FLAGS afABORTED else c
  let (c, _) := c.dramWrite e reqHST x.addr
    (asyRecord status (asyChans x.mask).length x.failed x.refUv x.refUnc x.tick x.rows)
  match c.asyRing with
  | some (r, d) => c.finish e r d status x.failed x.addr
  | none => c

/-- A SKIPPED entry. Its residuals and measured codes are open (R437 gives them for measured channels). -/
def Chip.asySkip (c : Chip) (ch : Nat) : Chip :=
  let (a, c) := c.draw 32
  let (b, c) := c.draw 32
  let (d, c) := c.draw 32
  let (m, c) := c.draw 32
  let (n, c) := c.draw 32
  c.onAsy fun x => { x with
    failed := x.failed + 1, rows := x.rows ++ asyEntry ch 3 (c.rdn (Reg.ASY_TRIM ch)) a b d m n }

/-- The next channel begins its first phase; one that may not be measured is SKIPPED. The run ends after the
last channel. -/
def Chip.asyNext (e : Env) : Nat → Chip → Chip
  | 0, c => c
  | n + 1, c =>
    match c.asy with
    | none => c
    | some x =>
      match x.left with
      | [] => c.asyFinish e x
      | ch :: rest =>
        let c := c.onAsy fun x => { x with left := rest }
        if x.abort ∨ !c.asyReady ch then Chip.asyNext e n (c.asySkip ch)
        else
          (c.onAsy fun x => { x with chan := ch, phase := 1, old := c.rd (Reg.ASY_TRIM ch), clamped := false }).asyStale ch true

/-- The channel in progress ends as SKIPPED with its previous trims (R434, R436). -/
def Chip.asyDrop (e : Env) (c : Chip) (x : AsyRun) : Chip :=
  let c := ((c.wr (Reg.ASY_TRIM x.chan) x.old).asyStale x.chan false).asySkip x.chan
  Chip.asyNext e 57 c

/-- The end of a channel's last phase: its residuals and its result (R433). -/
def Chip.asyChannel (e : Env) (c : Chip) (x : AsyRun) (m0 m1 m0b m1b : Int) : Chip :=
  let ex := asyExpected x.chan x.refUv
  let gain := rndDiv ((m1b - m0b - ex) * 1000000) ex
  let pass : Bool := gain.natAbs ≤ x.gainTol && m0b.natAbs ≤ x.ofsTol
  let res := if x.clamped then 2 else if pass then 0 else 1
  let row := asyEntry x.chan res (c.rdn (Reg.ASY_TRIM x.chan)) m0b gain (m1b - ex) m0 m1
  let c := (c.asyStale x.chan false).onAsy fun x => { x with
    failed := x.failed + b2n (res != 0), rows := x.rows ++ row }
  Chip.asyNext e 57 c

/-- New trims from m0 and m1 (R433). -/
def Chip.asyTrim (c : Chip) (x : AsyRun) (m0 m1 : Int) : Chip :=
  let ex := asyExpected x.chan x.refUv
  let eg := rndDiv ((m1 - m0 - ex) * 1000000) ex
  let no := ofsTrim x.old.toNat - rndDiv m0 2
  let ng := gainTrim x.old.toNat - eg
  let out : Bool := no < -2048 || 2047 < no || ng < -2048 || 2047 < ng
  let c := if out then c.sticky Reg.ASY_FLAGS afTRIM_RANGE else c
  (c.onAsy fun x => { x with clamped := out }).wrn (Reg.ASY_TRIM x.chan)
    (trimWord (clampInt (-2048) 2047 no) (clampInt (-2048) 2047 ng))

/-- ASSAY_PHASE_DONE: the samples of the phase in progress, whose sum is given (R432, R436). -/
def Chip.asyPhase (e : Env) (c : Chip) (sum : Int) : Chip :=
  match c.asy with
  | none => c
  | some x =>
    let m := rndDiv (16 * sum) ((2 ^ x.avg : Nat) : Int)
    if x.abort then c.asyDrop e x
    else if x.phase = 1 then c.onAsy fun x => { x with m0 := m, phase := 2 }
    else if x.phase = 2 then
      if x.trim then (c.onAsy fun x => { x with m1 := m, phase := 3 }).asyTrim x x.m0 m
      else c.asyChannel e x x.m0 m x.m0 m
    else if x.phase = 3 then c.onAsy fun x => { x with m0b := m, phase := 4 }
    else c.asyChannel e x x.m0 x.m1 x.m0b m

/-- A port that leaves RUN during one of its channel's phases ends that channel (R434). -/
def Chip.asyLost (e : Env) (c : Chip) (p : Fin 24) : Chip :=
  match c.asy with
  | none => c
  | some x => if asyPort x.chan = some p ∧ (c.port[p]).state ≠ .run then c.asyDrop e x else c

/-- ABORT of ASY_CTRL (R436). -/
def Chip.asyAbort (c : Chip) : Chip := c.onAsy fun x => { x with abort := true }

/-- The parameters of a block that passes R430. -/
def asyParams (b : List Byte) : Option AsyRun :=
  let mask := leAt b 0 8
  let refUv := leAt b 16 4
  let avg := leAt b 22 1
  if leAt b 60 4 = crc32 (b.take 60) ∧ leAt b 28 32 = 0 ∧ mask < 2 ^ 56 ∧ leAt b 8 8 % 32 = 0 ∧ leAt b 8 8 < 2 ^ 35 ∧
      2400000 ≤ refUv ∧ refUv ≤ 2600000 ∧ 4 ≤ avg ∧ avg ≤ 12 ∧ leAt b 23 1 ≤ 1 ∧ 1 ≤ leAt b 24 2 ∧ 1 ≤ leAt b 26 2 then
    some { mask := mask, addr := leAt b 8 8, refUv := refUv, refUnc := leAt b 20 2, avg := avg, trim := leAt b 23 1 == 1
           gainTol := leAt b 24 2, ofsTol := leAt b 26 2, tick := 0, left := asyChans mask, chan := 0, phase := 1
           m0 := 0, m1 := 0, m0b := 0, old := 0, clamped := false, abort := false, failed := 0, rows := [] }
  else none

/-- A run refused by ASY_BUSY or REF_RANGE: only the header is written. Its FAILED and TICK are open. -/
def Chip.asyRefuse (e : Env) (c : Chip) (r : Fin 256) (d : Desc) (x : AsyRun) (status : Nat) : Chip :=
  let (f, c) := c.draw 8
  let (t, c) := c.draw 64
  let c := if status = 0x02 then c.sticky Reg.ASY_FLAGS afREF_RANGE else c
  let (c, _) := c.dramWrite e reqHST x.addr (asyRecord status (asyChans x.mask).length f x.refUv x.refUnc t [])
  c.finish e r d status none x.addr

/-- An ASSAY descriptor (R430, R431). `ref`: REFCAL_V as measured over 256 samples, in µV. -/
def Chip.assay (e : Env) (c : Chip) (r : Fin 256) (d : Desc) (ref : Nat) : Chip :=
  let a := leAt d.bytes 8 8
  if !d.clean [(8, 15)] ∨ 2 ^ 35 ≤ a then c.finish e r d 0x41 none none
  else
    let (c, b) := c.dramRead e reqHST a 64
    if (firstRefused (mayRead reqHST) a 64).isSome then c.finish e r d 0x45 none none
    else if !b.ok then c.finish e r d 0x44 none none
    else match asyParams b.bytes with
      | none => c.finish e r d 0x41 none none
      | some x =>
        let n := 32 + 32 * (asyChans x.mask).length
        if (firstRefused (mayWrite reqHST) x.addr n).isSome then c.finish e r d 0x45 none x.addr
        else if (firstRefused (fun y => (c.guardOf y).isNone) x.addr n).isSome then c.finish e r d 0x46 none x.addr
        else if c.asy.isSome then c.asyRefuse e r d x 0x01
        else if 100 * (max ref x.refUv - min ref x.refUv) > 2 * x.refUv then c.asyRefuse e r d x 0x02
        else
          let c := c.await r d .assay
          Chip.asyNext e 57 { c with asy := some { x with tick := c.ttu.index } }

/-- ASY_STATUS as read (R444). -/
def Chip.asyStatus (c : Chip) : Nat :=
  match c.asy with
  | none => 0
  | some x => 1 + 2 ^ 8 * x.chan

/-! ### The monitors (R438 to R441) -/

/-- MON_FLAGS bits (R444). -/
def nfRAIL_LOW : Nat := 0x1
def nfRAIL_HIGH : Nat := 0x2
def nfRAIL_FAULT : Nat := 0x4
def nfSITE_ERR : Nat := 0x8
def nfTHERM_FF : Nat := 0x10
def nfTHERM_DSP : Nat := 0x20
def nfTHERM_REQ : Nat := 0x40
def nfTHERM_STOP : Nat := 0x80

/-- Nominal rail voltages in mV (R438). -/
def railNominal (r : Nat) : Nat := [750, 800, 900, 1100, 1800, 1800, 3300, 3300].getD r 0

/-- A sample of a rail, in mV: the reading, and its crossings of LOW and HIGH (R438, R439). A rail whose
channel Assay measures holds its value (R435). -/
def Chip.railSample (c : Chip) (r : Fin 8) (mv : Nat) : Chip :=
  if c.bit (Reg.MON_RAIL r) 16 then c
  else
    let v := min mv 0xFFFF
    let c := c.setFld (Reg.MON_RAIL r) 15 0 v
    let lo := c.fld (Reg.MON_RAIL_THR r) 15 0
    let hi := c.fld (Reg.MON_RAIL_THR r) 31 16
    let n := railNominal r
    let inside : Bool := decide (100 * lo + n ≤ 100 * v ∧ 100 * v + n ≤ 100 * hi)
    let bit_ : BitVec 8 := 1#8 <<< r.val
    let c := if v < lo ∧ c.mon.lowArmed.getLsbD r then
        { c.flag Reg.MON_FLAGS .none nfRAIL_LOW r with mon := { c.mon with lowArmed := c.mon.lowArmed &&& ~~~bit_ } } else c
    let c := if hi < v ∧ c.mon.highArmed.getLsbD r then
        { c.flag Reg.MON_FLAGS .none nfRAIL_HIGH r with mon := { c.mon with highArmed := c.mon.highArmed &&& ~~~bit_ } } else c
    if inside then { c with mon := { c.mon with
      lowArmed := c.mon.lowArmed ||| bit_, highArmed := c.mon.highArmed ||| bit_ } } else c

/-- A conversion of one site, in 1/16 °C; none where it failed (R441). -/
def Chip.siteConvert (c : Chip) (s : Nat) (v : Option Int) : Chip :=
  let a := Reg.MON_TEMP s
  match v with
  | some t =>
    let ok : Bool := -640 ≤ t && t ≤ 2400
    let c := { c with mon := { c.mon with fails := c.mon.fails.set s 0 } }
    let c := c.wrn a (unsOf 16 (satS 16 t) + 2 ^ 16 * b2n ok)
    if ok then c else c.sticky Reg.MON_FLAGS nfSITE_ERR
  | none =>
    let n := c.mon.fails.getD s 0 + 1
    let c := { c with mon := { c.mon with fails := c.mon.fails.set s n } }
    if 10 ≤ n then (c.setFld a 16 16 0).sticky Reg.MON_FLAGS nfSITE_ERR else c

/-- TMAX over the sites not excluded, in 1/16 °C, and whether three or more are excluded (R441). -/
def Chip.tmax (c : Chip) : Int × Bool :=
  let on := (List.range 12).filter fun s => c.bit (Reg.MON_TEMP s) 16
  let ts := on.map fun s => signOf 16 (c.fld (Reg.MON_TEMP s) 15 0)
  let top : Option Int := ts.foldl (fun (m : Option Int) (t : Int) => some (match m with | none => t | some x => max x t)) none
  let excl : Bool := decide (on.length ≤ 9)
  (if excl then max (top.getD 1600) 1600 else top.getD 0, excl)

/-- TEMP_CONVERSION: the twelve sites (R441). -/
def Chip.tempConvert (c : Chip) (vs : List (Option Int)) : Chip :=
  let c := (List.range 12).foldl (fun (c : Chip) (s : Nat) => c.siteConvert s ((vs[s]?).getD none)) c
  let (t, x) := c.tmax
  (c.setFld Reg.MON_STATUS 3 3 (b2n x)).setFld Reg.MON_STATUS 31 16 (unsOf 16 (satS 16 t))

/-! ### Commands -/

/-- GOVERNOR_TRIP (R284). -/
def execGovernorTrip (p : Fin 24) (ua mv : List Nat) (s : State) : Host.Outcome State Fault Refusal :=
  .next (s.act fun e c => (c.portTrip p (ua.zip mv)).asyLost e p)

/-- ASSAY (R430). -/
def execAssay (r : Fin 256) (ref : Nat) (errs : List DramErr) (s : State) : Host.Outcome State Fault Refusal :=
  .next (s.act fun e c => { c with derr := errs }.begin r 0x23 fun d c => c.assay e r d ref)

/-- ASSAY_PHASE_DONE (R432). -/
def execAssayPhaseDone (sum : Int) (s : State) : Host.Outcome State Fault Refusal :=
  .next (s.act fun e c => c.asyPhase e sum)

/-- RAIL_SAMPLE (R439). -/
def execRailSample (r : Fin 8) (mv : Nat) (s : State) : Host.Outcome State Fault Refusal :=
  .next (s.act fun _ c => c.railSample r mv)

/-- TEMP_CONVERSION (R441). -/
def execTempConversion (vs : List (Option Int)) (s : State) : Host.Outcome State Fault Refusal :=
  .next (s.act fun _ c => c.tempConvert vs)

end Sys2Proof.Machine
end

