-- ==== Sys2Proof/Machine/Display.lean ====
section
/-! DEFINITION. Panel outputs (R387 to R400): output states, commits, blending, CRC rectangles and low refresh. -/

namespace Sys2Proof.Machine

/-- Output n replaced by its image. -/
def Chip.onDsp (c : Chip) (n : Fin 2) (f : Dsp → Dsp) : Chip := { c with dsp := upd c.dsp n f }

/-- DSP_FLAGS bits (R400). -/
def dfCOMMIT_REJ : Nat := 0x1
def dfRETRAIN : Nat := 0x2
def dfUNPLUG : Nat := 0x4
def dfUNDERRUN : Nat := 0x8
def dfSCAN_UE : Nat := 0x10
def dfCRC_FAIL : Nat := 0x20
def dfLR_NOCAP : Nat := 0x40
def dfTHERM_NOLR : Nat := 0x80
def dfLINK_FAIL : Nat := 0x100

def Chip.dspSticky (c : Chip) (n : Fin 2) (b : Nat) : Chip := c.sticky (Reg.DSP_FLAGS n) b
def Chip.dspFlag (c : Chip) (n : Fin 2) (b p2 : Nat) : Chip := c.flag (Reg.DSP_FLAGS n) (.other n) b p2

/-! ### Settings (R390) -/

/-- Timing, link and planes as one list of numbers: read from the shadow or the active copies. -/
structure DspSet where
  lanes : Nat
  rate : Nat
  pclk : Nat
  hAct : Nat
  hFp : Nat
  hSync : Nat
  hBp : Nat
  vAct : Nat
  vFp : Nat
  vSync : Nat
  vBp : Nat
  bg : Nat
  lrEn : Bool
  static : Nat
  lrHz : Nat
  crcEn : Nat
  action : Nat
  crcN : Nat
  deriving DecidableEq, Repr

/-- One plane (R394). -/
structure DspPlane where
  en : Bool
  fmt : Nat
  galpha : Nat
  addr : Nat
  stride : Nat
  x : Nat
  y : Nat
  w : Nat
  h : Nat
  deriving DecidableEq, Repr

/-- A CRC rectangle (R397). -/
structure DspRect where
  x : Nat
  y : Nat
  w : Nat
  h : Nat
  exp : Nat
  deriving DecidableEq, Repr

/-- The settings of an output, from a function that reads its registers. -/
def dspSet (g : Nat → Nat) (n : Nat) : DspSet where
  lanes := bitsOf (g (Reg.DSP_LINK n)) 1 0
  rate := bitsOf (g (Reg.DSP_LINK n)) 3 2
  pclk := bitsOf (g (Reg.DSP_PCLK n)) 18 0
  hAct := bitsOf (g (Reg.DSP_HTIM0 n)) 12 0
  hFp := bitsOf (g (Reg.DSP_HTIM0 n)) 28 16
  hSync := bitsOf (g (Reg.DSP_HTIM1 n)) 12 0
  hBp := bitsOf (g (Reg.DSP_HTIM1 n)) 28 16
  vAct := bitsOf (g (Reg.DSP_VTIM0 n)) 12 0
  vFp := bitsOf (g (Reg.DSP_VTIM0 n)) 28 16
  vSync := bitsOf (g (Reg.DSP_VTIM1 n)) 12 0
  vBp := bitsOf (g (Reg.DSP_VTIM1 n)) 28 16
  bg := bitsOf (g (Reg.DSP_BG n)) 23 0
  lrEn := bitOf (g (Reg.DSP_LR n)) 0
  static := bitsOf (g (Reg.DSP_LR n)) 15 8
  lrHz := bitsOf (g (Reg.DSP_LR n)) 23 16
  crcEn := bitsOf (g (Reg.DSP_CRC_CFG n)) 3 0
  action := bitsOf (g (Reg.DSP_CRC_CFG n)) 5 4
  crcN := bitsOf (g (Reg.DSP_CRC_CFG n)) 11 8

def dspPlane (g : Nat → Nat) (n p : Nat) : DspPlane where
  en := bitOf (g (Reg.DSP_PL_CFG n p)) 0
  fmt := bitsOf (g (Reg.DSP_PL_CFG n p)) 2 1
  galpha := bitsOf (g (Reg.DSP_PL_CFG n p)) 15 8
  addr := g (Reg.DSP_PL_ADDR_LO n p) + 2 ^ 32 * bitsOf (g (Reg.DSP_PL_ADDR_HI n p)) 2 0
  stride := bitsOf (g (Reg.DSP_PL_STRIDE n p)) 17 0
  x := bitsOf (g (Reg.DSP_PL_POS n p)) 12 0
  y := bitsOf (g (Reg.DSP_PL_POS n p)) 28 16
  w := bitsOf (g (Reg.DSP_PL_SIZE n p)) 12 0
  h := bitsOf (g (Reg.DSP_PL_SIZE n p)) 28 16

def dspRect (g : Nat → Nat) (n k : Nat) : DspRect where
  x := bitsOf (g (Reg.DSP_CRC_POS n k)) 12 0
  y := bitsOf (g (Reg.DSP_CRC_POS n k)) 28 16
  w := bitsOf (g (Reg.DSP_CRC_SIZE n k)) 12 0
  h := bitsOf (g (Reg.DSP_CRC_SIZE n k)) 28 16
  exp := g (Reg.DSP_CRC_EXP n k)

def DspSet.laneCount (s : DspSet) : Nat := [1, 2, 4].getD s.lanes 0
/-- The rate in kbit/s per lane. -/
def DspSet.kbit (s : DspSet) : Nat := [1620000, 2700000, 5400000].getD s.rate 0
/-- The rate as DPCD 0x00001 spells it. -/
def DspSet.dpcdRate (s : DspSet) : Nat := [0x06, 0x0A, 0x14].getD s.rate 0xFF
def DspSet.htotal (s : DspSet) : Nat := s.hAct + s.hFp + s.hSync + s.hBp
def DspSet.vtotal (s : DspSet) : Nat := s.vAct + s.vFp + s.vSync + s.vBp
/-- VTOTAL_LR (R398). -/
def DspSet.vtotalLr (s : DspSet) : Nat := s.pclk * 1000 / (s.htotal * s.lrHz)

/-- Bytes of one pixel (R394). -/
def pixelSize (fmt : Nat) : Nat := [2, 3, 4].getD fmt 0

/-- A plane, or a rectangle, lies inside the active area with a nonzero size. -/
def DspSet.holds (s : DspSet) (x y w h : Nat) : Bool := 0 < w && 0 < h && x + w ≤ s.hAct && y + h ≤ s.vAct

/-- Every field in its range (R400). -/
def DspSet.inRange (s : DspSet) : Bool :=
  let p (x : Nat) : Bool := 1 ≤ x && x ≤ 4095
  decide (s.lanes ≤ 2) && decide (s.rate ≤ 2) && decide (25000 ≤ s.pclk ∧ s.pclk ≤ 300000) &&
    decide (64 ≤ s.hAct ∧ s.hAct ≤ 3840) && decide (64 ≤ s.vAct ∧ s.vAct ≤ 2160) &&
    p s.hFp && p s.hSync && p s.hBp && p s.vFp && p s.vSync && p s.vBp &&
    decide (1 ≤ s.static ∧ 1 ≤ s.lrHz ∧ 1 ≤ s.crcN ∧ s.crcN ≤ 15)

/-- A commit of the shadow settings is valid (R390). -/
def Chip.dspValid (c : Chip) (n : Fin 2) : Bool :=
  let s := dspSet c.rdn n
  let ps := (List.range 2).map (dspPlane c.rdn n)
  let rs := (List.range 4).map (dspRect c.rdn n)
  s.inRange && decide (s.pclk * 24 * 10 ≤ s.laneCount * s.kbit * 8) &&
    decide (s.laneCount ≤ c.fld (Reg.DSP_DPCD n 0) 20 16) && decide (s.dpcdRate ≤ c.fld (Reg.DSP_DPCD n 0) 15 8) &&
    ps.all (fun p => !p.en || s.holds p.x p.y p.w p.h) &&
    (rs.zipIdx.all fun r => !bitOf s.crcEn r.2 || s.holds r.1.x r.1.y r.1.w r.1.h) &&
    ps.all (fun p => p.addr % 64 == 0 && p.stride % 64 == 0 && decide (p.w * pixelSize p.fmt ≤ p.stride))

/-! ### Output states (R389) -/

def Chip.asyncCap (c : Chip) (n : Fin 2) : Bool := c.bit (Reg.DSP_SINK n) 0

/-- Low refresh is in force (R398). -/
def Chip.lrOn (c : Chip) (n : Fin 2) : Bool := (dspSet c.actn n).lrEn && c.asyncCap n

/-- LR_NOCAP where low refresh is asked of a sink that cannot follow it (R398). -/
def Chip.noteNoCap (c : Chip) (n : Fin 2) : Chip :=
  if (dspSet c.actn n).lrEn && !c.asyncCap n then c.dspSticky n dfLR_NOCAP else c

/-- Training begins; with LR_EN the sink is told to ignore the timing parameters (R389, R398). -/
def Chip.dspTrain (c : Chip) (n : Fin 2) (byCommit blank : Bool) : Chip :=
  (c.onDsp n fun x => { x with
    state := .train, byCommit := byCommit, blank := blank
    parIgnore := x.parIgnore || (dspSet c.actn n).lrEn }).noteNoCap n

/-- The link fails with a cause (R389). -/
def Chip.dspFail (c : Chip) (n : Fin 2) (cause : Nat) : Chip :=
  (c.onDsp n fun x => { x with
    state := .linkFail, cause := cause, video := false, blank := false, byCommit := false, unplugged := false
    porch := 0 }).dspSticky n dfLINK_FAIL

/-- Back to DETECT. -/
def Dsp.toDetect (x : Dsp) : Dsp :=
  { x with state := .detect, cause := 0, video := false, blank := false, byCommit := false, porch := 0, idle := 0 }

/-- The commit of an output is taken: its settings become active, or it is discarded whole (R390, R392). The
Bool tells whether it was valid. -/
def Chip.dspTake (c : Chip) (n : Fin 2) : Chip × Bool :=
  let c := c.onDsp n fun x => { x with pend := false }
  if !c.dspValid n then (c.dspFlag n dfCOMMIT_REJ 0, false)
  else
    let was := dspSet c.actn n
    let c := c.commitAll fun a => 0x100000 + 0x400 * n.val ≤ a && a < 0x100000 + 0x400 * (n.val + 1)
    let now_ := dspSet c.actn n
    let c := (c.onDsp n fun x => { x with bgOnly := false }).noteNoCap n
    let st := (c.dsp[n]).state
    (if st = .ready then c.dspTrain n false false
     else if st = .run ∧ (was.lanes ≠ now_.lanes ∨ was.rate ≠ now_.rate) then c.dspTrain n true true
     else c, true)

/-- A write of COMMIT (R392, R398): taken at once outside RUN and in an extended front porch, else it waits
for the next vertical blanking. `therm`: lower refresh is requested, and a commit shortens no blanking (R399). -/
def Chip.dspCommit (c : Chip) (n : Fin 2) (therm : Bool) : Chip :=
  let x := c.dsp[n]
  let c := if x.pend then c.bump (Reg.DSP_REPLACE_CNT n) else c
  if x.state ≠ .run then (c.dspTake n).1
  else if c.ttu.up < x.porch then
    ((c.onDsp n fun x => { x with porch := if therm then x.porch else 0, idle := 0 }).dspTake n).1
  else c.onDsp n fun x => { x with pend := true }

/-- A write of DSP_CTRL (R389). -/
def Chip.dspCtrl (c : Chip) (n : Fin 2) (v : Nat) : Chip :=
  if !bitOf v 0 then (c.wrn (Reg.DSP_CTRL n) 0).onDsp n fun x => { x.toDetect with state := .off, pend := x.pend }
  else
    let c := c.wrn (Reg.DSP_CTRL n) 1
    match (c.dsp[n]).state with
    | .off => c.onDsp n Dsp.toDetect
    | .linkFail => if bitOf v 1 then c.onDsp n Dsp.toDetect else c
    | _ => c

/-- The reads of sink detection: DPCD bytes 0x00000 to 0x0000F and EDID blocks (R388). -/
def Chip.sinkRead (c : Chip) (n : Fin 2) (dpcd edid : List Byte) : Chip :=
  let c := (List.range 4).foldl (fun (c : Chip) (j : Nat) => c.wrn (Reg.DSP_DPCD n j) (leAt dpcd (4 * j) 4)) c
  let blocks := min 4 (1 + leAt edid 126 1)
  let c := (List.range 128).foldl (fun (c : Chip) (j : Nat) =>
    c.wrn (Reg.DSP_EDID n j) (if j < 32 * blocks then leAt edid (4 * j) 4 else 0)) c
  c.wrn (Reg.DSP_SINK n) (b2n (bitOf (leAt dpcd 7 1) 6) + 2 * blocks)

/-- HPD high for 100 ms (R389). `res`: the reads, or none where one failed three times. -/
def Chip.sinkDetect (c : Chip) (n : Fin 2) (res : Option (List Byte × List Byte)) : Chip :=
  let c := if (c.dsp[n]).state = .linkFail ∧ (c.dsp[n]).unplugged then c.onDsp n Dsp.toDetect else c
  if (c.dsp[n]).state ≠ .detect then c
  else match res with
    | none => c.dspFail n 1
    | some (d, ed) => (c.sinkRead n d ed).onDsp n fun x => { x with state := .ready }

/-- Whether DPCD 0x00202 to 0x00204 show one of the active lanes out of lock: a lane without its clock recovery, equalisation
or symbol lock, or lanes not aligned (R389; VESA DisplayPort; PRESUMED, log entry 104). -/
def DspSet.outOfLock (s : DspSet) (st : Vector Byte 3) : Bool :=
  ((List.range s.laneCount).any fun i => bitsOf (st[0].toNat + 2 ^ 8 * st[1].toNat) (4 * i + 2) (4 * i) != 7) ||
    !bitOf st[2].toNat 0

/-- An HPD IRQ, with DPCD 0x00202 to 0x00204 as read (R389). -/
def Chip.hpdIrq (c : Chip) (n : Fin 2) (st : Vector Byte 3) : Chip :=
  if (c.dsp[n]).state = .run ∧ (dspSet c.actn n).outOfLock st then (c.dspSticky n dfRETRAIN).dspTrain n false true else c

/-- HPD low for 2 ms (R389). -/
def Chip.unplug (c : Chip) (n : Fin 2) : Chip :=
  match (c.dsp[n]).state with
  | .off => c
  | .linkFail => c.onDsp n fun x => { x with unplugged := true }
  | _ => (c.dspSticky n dfUNPLUG).onDsp n Dsp.toDetect

/-- Training ends (R389). -/
def Chip.trained (c : Chip) (n : Fin 2) (ok : Bool) : Chip :=
  if (c.dsp[n]).state ≠ .train then c
  else if ok then c.onDsp n fun x => { x with
    state := .run, blank := x.video && x.blank, video := true, byCommit := false, missRun := 0 }
  else c.dspFail n 2

/-! ### Pixels (R391, R394 to R396) -/

/-- Red, green and blue of a number. -/
def rgbOf (x : Nat) : List Nat := [bitsOf x 23 16, bitsOf x 15 8, bitsOf x 7 0]

/-- A stored pixel: its three components and its alpha (R394). -/
def pixelOf (fmt v : Nat) : List Nat × Nat :=
  match fmt with
  | 0 =>
    let r := bitsOf v 15 11
    let g := bitsOf v 10 5
    let b := bitsOf v 4 0
    ([8 * r + r / 4, 4 * g + g / 16, 8 * b + b / 4], 255)
  | 1 => (rgbOf v, 255)
  | _ => (rgbOf v, bitsOf v 31 24)

/-- One component blended (R395). -/
def blend (a s d : Nat) : Nat := (rndDiv ((a * s + (255 - a) * d : Nat) : Int) 255).toNat

/-- The bytes of a plane's buffer lie within the rights of the output's scanout (R391). -/
def DspPlane.readable (p : DspPlane) (n : Nat) : Bool :=
  (firstRefused (mayRead (reqDSP n)) p.addr (p.stride * (p.h - 1) + p.w * pixelSize p.fmt)).isNone

/-- A byte as scanout reads it, from the bursts that came with errors, or else as it is stored (R300); none is poisoned. -/
def Chip.scanByte (e : Env) (c : Chip) (seen : List (Nat × Option (List Byte))) (a : Nat) : Option Byte :=
  match seen.find? fun x => x.1 == a / 128 * 128 with
  | some (_, bs) => bs.map fun bs => bs.getD (a % 128) 0
  | none => some (c.dramByte e a)

/-- A plane's pixel at an output position: components, alpha, and whether a burst of it is poisoned; `none`
where the plane does not cover the position. -/
def Chip.planePixel (e : Env) (c : Chip) (seen : List (Nat × Option (List Byte))) (p : DspPlane) (readable : Bool) (x y : Nat) :
    Option (List Nat × Nat × Bool) :=
  if p.en ∧ p.x ≤ x ∧ x < p.x + p.w ∧ p.y ≤ y ∧ y < p.y + p.h then
    if !readable then some ([0, 0, 0], 0, false)
    else
      let k := pixelSize p.fmt
      let a := p.addr + p.stride * (y - p.y) + k * (x - p.x)
      let bs := (List.range k).map fun i => c.scanByte e seen (a + i)
      let (s, pa) := pixelOf p.fmt (leNat (bs.map (·.getD 0)))
      some (s, pa, bs.any (·.isNone))
  else none

/-- An output pixel: BG, with each covering plane blended over it in turn (R395, R396). -/
def blendPixel (bg : List Nat) (ps : List (DspPlane × Option (List Nat × Nat × Bool))) : List Nat :=
  if ps.any fun p => p.2.any (·.2.2) then bg
  else ps.foldl (fun (d : List Nat) p =>
    match p.2 with
    | none => d
    | some (s, pa, _) =>
      let a := (rndDiv ((pa * p.1.galpha : Nat) : Int) 255).toNat
      (s.zip d).map fun q => blend a q.1 q.2) bg

/-- The frame in progress as a function of the position. -/
def Chip.outPixel (e : Env) (c : Chip) (n : Fin 2) (seen : List (Nat × Option (List Byte))) (ps : List (DspPlane × Bool)) (x y : Nat) : List Nat :=
  let bg := rgbOf (dspSet c.actn n).bg
  if (c.dsp[n]).bgOnly ∨ (c.dsp[n]).under.any (fun u => u.1 == y && decide (u.2 ≤ x)) then bg
  else blendPixel bg (ps.map fun p => (p.1, c.planePixel e seen p.1 p.2 x y))

/-- The CRC of a rectangle of the frame (R397). -/
def Chip.rectCrc (e : Env) (c : Chip) (n : Fin 2) (seen : List (Nat × Option (List Byte))) (ps : List (DspPlane × Bool)) (r : DspRect) : Nat :=
  crc32 ((List.range r.h).flatMap fun j => (List.range r.w).flatMap fun i =>
    (c.outPixel e n seen ps (r.x + i) (r.y + j)).map (BitVec.ofNat 8))

/-- The bursts with errors of the buffers of the enabled planes, read in turn, as they decode. -/
def Chip.scanBursts (e : Env) (n : Fin 2) (p : Nat → Bool) : List Nat → Chip → Chip × List (Nat × Option (List Byte))
  | [], c => (c, [])
  | b :: bs, c =>
    if p b then
      let (c, r) := c.readBurst e (reqDSP n) b false
      let (c, seen) := Chip.scanBursts e n p bs c
      (c, (b, r) :: seen)
    else Chip.scanBursts e n p bs c

/-- Scanout of the frame's planes: a plane outside the rights is reported, and poisoned bursts are found. -/
def Chip.scanout (e : Env) (c : Chip) (n : Fin 2) : Chip × List (Nat × Option (List Byte)) × List (DspPlane × Bool) :=
  let ps := ((List.range 2).map (dspPlane c.actn n)).map fun p => (p, p.readable n)
  let c := ps.foldl (fun (c : Chip) p =>
    if p.1.en ∧ !p.2 then c.regionViol (reqDSP n) p.1.addr false else c) c
  let hits (b : Nat) : Bool := ps.any fun p =>
    p.1.en && p.2 && decide (p.1.addr < b + 128 ∧ b < p.1.addr + p.1.stride * p.1.h)
  let bursts := (c.derr.map fun x => x.beat / 16 * 128).eraseDups
  let (c, seen) := Chip.scanBursts e n hits bursts c
  (if seen.any (·.2.isNone) then c.dspFlag n dfSCAN_UE 0 else c, seen, ps)

/-- The check of the frame's CRC rectangles (R397). The ACTION applies at every frame that ends CRC_N mismatches in a row; a
frame with no rectangle enabled is none that is checked (DEDUCED, log entry 104). -/
def Chip.checkRects (e : Env) (c : Chip) (n : Fin 2) : Chip :=
  let (c, seen, ps) := c.scanout e n
  let s := dspSet c.actn n
  let (c, miss) := (List.range 4).foldl (fun (x : Chip × Nat) (k : Nat) =>
    if bitOf s.crcEn k then
      let r := dspRect x.1.actn n k
      let v := x.1.rectCrc e n seen ps r
      (x.1.wrn (Reg.DSP_CRC_VAL n k) v, if v = r.exp then x.2 else x.2 + 2 ^ k)
    else x) (c, 0)
  let run := if s.crcEn = 0 then (c.dsp[n]).missRun else if miss = 0 then 0 else (c.dsp[n]).missRun + 1
  let c := c.onDsp n fun x => { x with missed := miss, missRun := run }
  let c := if miss = 0 then c else c.bump (Reg.DSP_CRC_MISS_CNT n)
  if miss ≠ 0 ∧ s.crcN ≤ run ∧ 1 ≤ s.action then
    let c := c.dspFlag n dfCRC_FAIL 0
    if s.action = 2 then c.onDsp n fun x => { x with bgOnly := true } else c
  else c

/-! ### Vertical blanking (R392, R393, R397 to R399) -/

/-- Whether this blanking is extended (R398, R399), and the end of its front porch, as `up` counts. -/
def Chip.porchEnd (c : Chip) (n : Fin 2) (t : DspSet) (idle : Nat) (therm : Bool) : Nat :=
  let k := dspSet c.actn n
  let lr := ({ t with lrHz := k.lrHz } : DspSet).vtotalLr
  if c.lrOn n ∧ t.vtotal < lr ∧ (therm ∨ k.static ≤ idle) then
    c.ttu.up + (lr - t.vAct - t.vSync - t.vBp) * t.htotal * edgesPerMs / t.pclk
  else 0

/-- VERTICAL_BLANKING: the frame sent is counted and checked, a pending commit is taken, and the blanking may
be extended. `therm`: the thermal manager requests lower refresh. -/
def Chip.vblank (e : Env) (c : Chip) (n : Fin 2) (therm : Bool) : Chip :=
  let x := c.dsp[n]
  if !x.video then c
  else
    let c := c.wrn (Reg.DSP_FRAME_CNT n) ((c.rdn (Reg.DSP_FRAME_CNT n) + 1) % 2 ^ 32)
    let c := if x.blank then c.bump (Reg.DSP_BLANK_CNT n) else c.checkRects e n
    let c := c.onDsp n fun x => { x with under := [], blank := x.state = .train }
    if x.state = .train ∧ x.byCommit then c.dspFail n 2
    else
      let t := dspSet c.actn n
      let (c, taken) := if x.pend then c.dspTake n else (c, false)
      let idle := if taken then 0 else x.idle + 1
      let c := if therm ∧ !c.lrOn n then c.dspSticky n dfTHERM_NOLR else c
      c.onDsp n fun x => { x with idle := idle, porch := if x.state = .run then c.porchEnd n t idle therm else 0 }

/-- UNDERRUN: the FIFO runs empty at a position of the frame in progress (R396). -/
def Chip.underrun (c : Chip) (n : Fin 2) (x y : Nat) : Chip :=
  if (c.dsp[n]).state = .run ∧ !(c.dsp[n]).blank then
    ((c.bump (Reg.DSP_UNDERRUN_CNT n)).dspSticky n dfUNDERRUN).onDsp n fun d => { d with under := (y, x) :: d.under }
  else c

/-- DSP_STATUS as read (R400). -/
def Chip.dspStatus (c : Chip) (n : Fin 2) : Nat :=
  let x := c.dsp[n]
  (match x.state with | .off => 0 | .detect => 1 | .ready => 2 | .train => 3 | .run => 4 | .linkFail => 5) +
    2 ^ 3 * b2n (c.lrOn n) + 2 ^ 4 * x.cause + 2 ^ 8 * x.missed

/-- The thermal manager requests lower display refresh (R442). -/
def Chip.thermDsp (c : Chip) : Bool := decide (2 ≤ c.fld Reg.MON_STATUS 2 0)

/-! ### Commands -/

/-- SINK_DETECT (R388). -/
def execSinkDetect (n : Fin 2) (res : Option (List Byte × List Byte)) (s : State) : Host.Outcome State Fault Refusal :=
  .next (s.act fun _ c => c.sinkDetect n res)

/-- HPD_IRQ (R389). -/
def execHpdIrq (n : Fin 2) (st : Vector Byte 3) (s : State) : Host.Outcome State Fault Refusal :=
  .next (s.act fun _ c => c.hpdIrq n st)

/-- UNPLUG (R389). -/
def execUnplug (n : Fin 2) (s : State) : Host.Outcome State Fault Refusal := .next (s.act fun _ c => c.unplug n)

/-- TRAINING_COMPLETE (R389). -/
def execTrainingComplete (n : Fin 2) (ok : Bool) (s : State) : Host.Outcome State Fault Refusal :=
  .next (s.act fun _ c => c.trained n ok)

/-- VERTICAL_BLANKING (R392). -/
def execVerticalBlanking (n : Fin 2) (errs : List DramErr) (s : State) : Host.Outcome State Fault Refusal :=
  .next (s.act fun e c => { c with derr := errs }.vblank e n c.thermDsp)

/-- UNDERRUN (R396). -/
def execUnderrun (n : Fin 2) (x y : Nat) (s : State) : Host.Outcome State Fault Refusal :=
  .next (s.act fun _ c => c.underrun n x y)

end Sys2Proof.Machine
end

