-- ==== Sys2Proof/Machine/Ingot.lean ====
section
/-! DEFINITION. Ingots as the load checks read them (R65 to R83): the header, the checks of R82 in their
order, and the LOAD and LOAD_CHECK_COMPLETE commands. -/

namespace Sys2Proof.Machine

/-! ### The header (R68) -/

/-- The fields of a header at a base, with nothing read beyond it. COMPILER_ID is kept nowhere: no record or register
that the rules name reports it (DESIGN CHOICE, log entry 96). -/
def headerIngot (base : Nat) (h : List Byte) : Ingot where
  base := base
  len := leAt h 8 4
  layerNo := leAt h 12 4
  devIndex := leAt h 16 1
  strict := bitOf (leAt h 17 1) 0
  temperMode := leAt h 18 1
  headMask := BitVec.ofNat 64 (leAt h 24 8)
  dirOff := leAt h 32 4
  dirCount := leAt h 36 4
  listOff := leAt h 40 4
  sharedOff := leAt h 44 4
  sharedCount := leAt h 48 4
  profOff := leAt h 52 4
  profCount := leAt h 56 2
  temperOff := leAt h 60 4
  nx := leAt h 64 2
  ny := leAt h 66 2
  x0 := leSAt h 68 4
  y0 := leSAt h 72 4
  dir := []
  lists := []
  shared := []
  profiles := []

/-- A length rounded up to a multiple of `n`. -/
def roundUp (n x : Nat) : Nat := (x + n - 1) / n * n

/-- The host data region of R297. -/
def inHostData (a n : Nat) : Bool := 0x80000000 ≤ a && a + n ≤ 0x800000000

/-- Two byte ranges share a byte. -/
def meets (a b : Nat × Nat) : Bool := a.1 < b.1 + b.2 && b.1 < a.1 + a.2 && 0 < a.2 && 0 < b.2

/-- Bytes of the Temper section (R80). -/
def Ingot.temperLen (g : Ingot) : Nat := roundUp 32 (2 * g.nx * g.ny)

/-- The sections that the header names, as offset and length (R65, R82). -/
def Ingot.sections (g : Ingot) : List (Nat × Nat) :=
  [(g.dirOff, 32 * g.dirCount), (g.listOff, 1024)] ++
    (if g.sharedCount = 0 then [] else [(g.sharedOff, 4 * g.sharedCount)]) ++
    [(g.profOff, 32 * g.profCount)] ++ (if g.temperMode = 2 then [(g.temperOff, g.temperLen)] else [])

/-- A range is aligned, inside the Ingot and clear of the header (R65). -/
def Ingot.placed (g : Ingot) (s : Nat × Nat) : Bool := s.1 % 32 == 0 && 256 ≤ s.1 && s.1 + s.2 ≤ g.len

/-- No two ranges of a list share a byte. -/
def disjointAll : List (Nat × Nat) → Bool
  | [] => true
  | s :: ss => ss.all (fun t => !meets s t) && disjointAll ss

/-! ### Checks on the header (R82, codes 0x01 to 0x09) -/

/-- Codes 0x01 and 0x02. -/
def magicCode (h : List Byte) : Nat :=
  if leAt h 0 4 ≠ 0x4749584D ∨ leAt h 4 2 ≠ 0x0100 ∨ leAt h 6 2 ≠ 256 then 0x01
  else if leAt h 252 4 ≠ crc32 (h.take 252) then 0x02 else 0

/-- Code 0x03 (R65). -/
def Ingot.rangeBad (g : Ingot) : Bool :=
  g.len % 32 != 0 || decide (g.len < 1408) || decide (2 ^ 31 < g.len) || !inHostData g.base g.len

/-- Code 0x08. -/
def Ingot.fieldBad (g : Ingot) (h : List Byte) : Bool :=
  leAt h 17 1 > 1 || !zeroAt h 19 23 || !zeroAt h 58 59 || !zeroAt h 80 251 ||
    g.dirCount == 0 || decide (1048576 < g.dirCount) || decide (262144 < g.sharedCount) ||
    g.profCount == 0 || decide (256 < g.profCount) ||
    (match g.temperMode with
      | 0 => !zeroAt h 60 75
      | 1 => g.nx == 0 || g.ny == 0 || decide (4194304 < g.nx * g.ny)
      | 2 => g.nx == 0 || g.ny == 0 || decide (4194304 < g.nx * g.ny)
      | _ => true)

/-- Codes 0x06 to 0x09 in order, 0 where none fails. -/
def Chip.headerCode (c : Chip) (g : Ingot) (h : List Byte) : Nat :=
  if g.devIndex ≠ (if c.gangEn then c.devIndex else 0) then 0x06
  else if (List.finRange 64).any fun k => g.headMask.getLsbD k && !c.headOn k then 0x07
  else if g.fieldBad h then 0x08
  else if !(g.sections.all g.placed && disjointAll g.sections) then 0x09
  else 0

/-! ### The directory, the lists and the profiles (R70 to R74) -/

/-- A directory entry's fields. -/
def billetOf (b : List Byte) : Billet where
  off := leAt b 0 4
  count := leAt b 4 2
  headA := leAt b 6 1
  headB := leAt b 7 1
  tile := leAt b 8 2
  kind := leAt b 10 1
  start := ⟨leSAt b 12 4, leSAt b 16 4, leSAt b 20 2⟩
  dur := leAt b 24 4
  crc := leAt b 28 4

/-- The byte range of a Billet's records. -/
def Billet.range (b : Billet) : Nat × Nat := (b.off, 32 * b.count)

/-- A directory entry meets R70, its reserved bytes are 0, and its records lie where they may. -/
def Chip.entryOk (c : Chip) (g : Ingot) (raw : List Byte) : Bool :=
  let b := billetOf raw
  zeroAt raw 11 11 && zeroAt raw 22 23 && 1 ≤ b.count && b.count ≤ 256 &&
    (if b.kind = 0 then decide (b.headA < 64) && b.headB == 0xFF && b.tile == 0xFFFF
     else b.kind == 1 && decide (b.headA < b.headB) && c.headOn b.headB && b.tile != 0xFFFF) &&
    g.placed b.range && g.sections.all (fun s => !meets s b.range)

/-- Chunks of `n` bytes. -/
def chunks (n : Nat) (bs : List Byte) : List (List Byte) := (List.range (bs.length / n)).map fun i => (bs.drop (n * i)).take n

/-- The heads that a directory names. -/
def headsNamed (dir : List Billet) : BitVec 64 :=
  dir.foldl (fun m b => (m ||| (1#64 <<< b.headA)) ||| (if b.kind = 1 then 1#64 <<< b.headB else 0)) 0

/-- The range of a head's index array, from its entry of the head list table (R71). -/
def arrayRange (raw : List Byte) : Nat × Nat := (leAt raw 0 4, 4 * leAt raw 4 4)

/-- The indices of an array of u32. -/
def indices (bs : List Byte) : List Nat := (chunks 4 bs).map leNat

/-- R71 on the head list table: reserved bytes 0; every index array placed, clear of every other section and
of the records. -/
def Ingot.tableOk (g : Ingot) (dir : List Billet) (table : List (List Byte)) : Bool :=
  let arrays := (table.map arrayRange).filter fun a => a.2 != 0
  table.all (fun raw => zeroAt raw 8 15) && arrays.all g.placed && disjointAll arrays &&
    arrays.all fun a => g.sections.all (fun s => !meets s a) && dir.all fun b => !meets b.range a

/-- R71 and R72 on the lists: every own Billet exactly once in the array of its head, every shared Billet
exactly once in the shared list, nothing else in either; and HEAD_MASK names exactly the heads used. -/
def Ingot.listsOk (g : Ingot) (dir : List Billet) (lists : List (List Nat)) (shared : List Nat) : Bool :=
  let own (p : List Nat × Nat) : Bool := p.1.all fun i => match dir[i]? with
    | some b => b.kind == 0 && b.headA == p.2
    | none => false
  lists.zipIdx.all own && lists.all (fun l => decide l.Nodup) &&
    (lists.map List.length).sum == (dir.filter fun b => b.kind == 0).length &&
    shared.all (fun i => match dir[i]? with
      | some b => b.kind == 1
      | none => false) &&
    decide shared.Nodup && shared.length == (dir.filter fun b => b.kind == 1).length &&
    headsNamed dir == g.headMask

/-- A profile entry (R74). -/
def profileOf (b : List Byte) : Profile :=
  ⟨leAt b 0 2, leAt b 2 2, leAt b 4 2, leAt b 6 2, leAt b 8 2, leSAt b 10 2, leSAt b 12 2, leAt b 14 2⟩

/-- A Billet's records pass REC_CRC and R79. -/
def recordsOk (profiles : Nat) (b : Billet) (bs : List Byte) : Bool :=
  crc32 bs == b.crc && (billetSegs b profiles bs).2

/-! ### The checks on what the header names (R82, codes 0x0A to 0x0F) -/

/-- A section read for the checks; none where it holds uncorrectable data. -/
def Chip.loadRead (e : Env) (c : Chip) (g : Ingot) (s : Nat × Nat) : Chip × Option (List Byte) :=
  let (c, d) := c.checkRead e reqHST (g.base + s.1) s.2
  (c, if d.ok then some d.bytes else none)

/-- The index arrays read in head order. -/
def Chip.readArrays (e : Env) (g : Ingot) : List (Nat × Nat) → Chip → Chip × Option (List (List Nat))
  | [], c => (c, some [])
  | a :: as, c =>
    let (c, bs) := c.loadRead e g a
    match bs with
    | none => (c, none)
    | some bs =>
      let (c, rest) := Chip.readArrays e g as c
      (c, rest.map (indices bs :: ·))

/-- A strict load's check of every Billet's records: the failing code, or 0. -/
def Chip.strictCode (e : Env) (g : Ingot) : List Billet → Chip → Chip × Nat
  | [], c => (c, 0)
  | b :: bs, c =>
    let (c, r) := c.loadRead e g b.range
    match r with
    | none => (c, 0x0F)
    | some r => if recordsOk g.profCount b r then Chip.strictCode e g bs c else (c, 0x0E)

/-- The checks of codes 0x0A to 0x0F in their order: the Ingot, or the failing code. Nothing is read after an
uncorrectable section. -/
def Chip.bodyCheck (e : Env) (c : Chip) (g : Ingot) (written : Bool) : Chip × Except Nat Ingot :=
  let (c, d) := c.loadRead e g (g.dirOff, 32 * g.dirCount)
  match d with
  | none => (c, .error 0x0F)
  | some d =>
    if !(chunks 32 d).all (c.entryOk g) then (c, .error 0x0A)
    else
      let dir := (chunks 32 d).map billetOf
      let (c, t) := c.loadRead e g (g.listOff, 1024)
      match t with
      | none => (c, .error 0x0F)
      | some t =>
        if !g.tableOk dir (chunks 16 t) then (c, .error 0x0B)
        else
          let (c, ls) := Chip.readArrays e g ((chunks 16 t).map arrayRange) c
          match ls with
          | none => (c, .error 0x0F)
          | some ls =>
            let (c, sh) := c.loadRead e g (g.sharedOff, 4 * g.sharedCount)
            match sh with
            | none => (c, .error 0x0F)
            | some sh =>
              if !g.listsOk dir ls (indices sh) then (c, .error 0x0B)
              else
                let (c, p) := c.loadRead e g (g.profOff, 32 * g.profCount)
                match p with
                | none => (c, .error 0x0F)
                | some p =>
                  if !(chunks 32 p).all (fun r => zeroAt r 16 31) then (c, .error 0x0C)
                  else if written then (c, .error 0x0D)
                  else
                    let g := { g with dir := dir, lists := ls, shared := indices sh, profiles := (chunks 32 p).map profileOf }
                    let (c, code) := if g.strict then Chip.strictCode e g dir c else (c, 0)
                    (c, if code = 0 then .ok g else .error code)

/-! ### LOAD (R82 to R85) -/

/-- One lease entry replaced by its image. -/
def Chip.onLease (c : Chip) (i : Fin 16) (f : Lease → Lease) : Chip :=
  { c with hst := { c.hst with leases := upd c.hst.leases i f } }

/-- A descriptor ends with a status that R83 lets change nothing else: no error register of the ring. -/
def Chip.finishQuiet (e : Env) (c : Chip) (r : Fin 256) (d : Desc) (status : Nat) (info0 info1 : Option Nat) : Chip :=
  let c := c.onRing r fun g => { g with cur := none }
  (c.post e r ⟨d.idx, status, d.irq, true, info0, info1⟩).look e r

/-- A failed load (R83): its completion, one LOAD_FAIL event, and the flag that its reason names. -/
def Chip.loadFail (e : Env) (c : Chip) (r : Fin 256) (d : Desc) (base code : Nat) : Chip :=
  let c := if code = 0x0F then (c.sticky Reg.HST_FLAGS 0x20).irqVector (c.fld Reg.HST_IRQ_CFG 13 8)
    else if code = 0x0D then (c.sticky Reg.HST_LEASE_VIOL 0x10).bump Reg.HST_LEASE_VIOL_CNT
    else c
  let c := c.raise blkHST 0x005 .none sevWARN code (base % 2 ^ 32) (base / 2 ^ 32 % 8)
  c.finishQuiet e r d code none none

/-- A free lease entry, if any. -/
def Chip.freeLease (c : Chip) : Option (Fin 16) := (List.finRange 16).find? fun i => c.hst.leases[i].state == .free

/-- A LOAD descriptor (R82): the checks of the base and of the header up to LEASE_OVERLAP are made at once,
and then the entry is LOADING until LOAD_CHECK_COMPLETE. -/
def Chip.load (e : Env) (c : Chip) (r : Fin 256) (d : Desc) : Chip :=
  let base := leAt d.bytes 8 8
  if !d.clean [(8, 15)] ∨ 2 ^ 35 ≤ base then c.finish e r d 0x41 none none
  else if base % 4096 ≠ 0 ∨ !inHostData base 256 then c.loadFail e r d base 0x03
  else
    let (c, h) := c.checkRead e reqHST base 256
    let g := headerIngot base h.bytes
    let len := roundUp 4096 g.len
    if !h.ok then c.loadFail e r d base 0x0F
    else if magicCode h.bytes ≠ 0 then c.loadFail e r d base (magicCode h.bytes)
    else if g.rangeBad then c.loadFail e r d base 0x03
    else match c.freeLease with
      | none => c.loadFail e r d base 0x04
      | some i =>
        if (List.finRange 16).any fun k => c.hst.leases[k].state != .free &&
            meets (base, len) (c.hst.leases[k].base, c.hst.leases[k].len) then c.loadFail e r d base 0x05
        else
          let c := c.onLease i fun _ => { Lease.reset with state := .loading, base := base, len := len, layerNo := g.layerNo }
          c.await r d (.load i.val h.bytes)

/-- The load checks end (R82, R85). -/
def Chip.loadDone (e : Env) (c : Chip) (r : Fin 256) : Chip :=
  match (c.ring r).cur with
  | some ⟨d, .load i h⟩ =>
    match inst? 16 i with
    | none => c
    | some i =>
      let l := c.hst.leases[i]
      let g := headerIngot l.base h
      let code := c.headerCode g h
      let (c, res) := if code ≠ 0 then (c, Except.error code) else c.bodyCheck e g l.written
      match res with
      | .error code => (c.onLease i fun _ => Lease.reset).loadFail e r d l.base code
      | .ok g =>
        let c := c.onLease i fun l => { l with state := .loaded, ingot := some g }
        c.finish e r d 0x00 i.val g.layerNo
  | _ => c

end Sys2Proof.Machine
end

