-- ==== Sys2Proof/Machine/Code.lean ====
section
/-! DEFINITION. The line codes of the lanes: the 8b/10b code with its running disparity and its control symbols (R229), the
ordered sets (R230), symbol alignment (R231), and the patterns of the PRBS tests (R253). A code group is a number of ten
bits whose most significant bit is the first on the line; a running disparity is true where it is positive. -/

namespace Sys2Proof.Machine

/-! ### 8b/10b (R229) -/

/-- A symbol: a data symbol or a control symbol, by its octet. -/
inductive Symbol where
  | data (o : Byte)
  | ctrl (o : Byte)
  deriving DecidableEq, Repr

/-- Ones among the low n bits. -/
def onesOf (n x : Nat) : Nat := ((List.range n).filter fun i => bitOf x i).length

/-- The sub-blocks abcdei of the data symbols D0 to D31, at negative running disparity. -/
def sixBits : List Nat :=
  [0b100111, 0b011101, 0b101101, 0b110001, 0b110101, 0b101001, 0b011001, 0b111000,
   0b111001, 0b100101, 0b010101, 0b110100, 0b001101, 0b101100, 0b011100, 0b010111] ++
  [0b011011, 0b100011, 0b010011, 0b110010, 0b001011, 0b101010, 0b011010, 0b111010,
   0b110011, 0b100110, 0b010110, 0b110110, 0b001110, 0b101110, 0b011110, 0b101011]

/-- The sub-blocks fghj of 0 to 7, at negative running disparity. -/
def fourBits : List Nat := [0b1011, 0b1001, 0b0101, 0b1100, 0b1101, 0b1010, 0b0110, 0b1110]

/-- The sub-block abcdei of x. -/
def six (rd : Bool) (x : Nat) : Nat :=
  let g := sixBits.getD x 0
  if rd ∧ (onesOf 6 g ≠ 3 ∨ x = 7) then 63 - g else g

/-- Where the alternate sub-block of 7 stands, which keeps a run of equal bits short. -/
def alternate7 (rd : Bool) (x : Nat) : Bool := if rd then x == 11 || x == 13 || x == 14 else x == 17 || x == 18 || x == 20

/-- The sub-block fghj of y behind the sub-block of x. -/
def four (rd : Bool) (x y : Nat) : Nat :=
  let g := if y = 7 ∧ alternate7 rd x then 0b0111 else fourBits.getD y 0
  if rd ∧ (onesOf 4 g ≠ 2 ∨ y = 3) then 15 - g else g

/-- The running disparity after a sub-block of 2n bits: `tie` is the balanced sub-block that leaves it positive. -/
def subDisparity (n tie : Nat) (rd : Bool) (g : Nat) : Bool :=
  if n < onesOf (2 * n) g ∨ g = tie then true
  else if onesOf (2 * n) g < n ∨ g = 2 ^ (2 * n) - 1 - tie then false
  else rd

/-- The running disparity after a code group, a valid one or not. -/
def disparity (rd : Bool) (g : Nat) : Bool := subDisparity 2 0b0011 (subDisparity 3 0b000111 rd (g / 16)) (g % 16)

/-- The control symbols: octet, and code group at negative running disparity; at positive it is the complement. -/
def controlGroups : List (Byte × Nat) :=
  [(0x1C, 0b0011110100), (0x3C, 0b0011111001), (0x7C, 0b0011110011), (0x9C, 0b0011110010), (0xBC, 0b0011111010),
   (0xFC, 0b0011111000), (0xFB, 0b1101101000), (0xFD, 0b1011101000), (0xFE, 0b0111101000)]

/-- The code group of a symbol. -/
def encodeSymbol (rd : Bool) : Symbol → Nat
  | .data o =>
    let s := six rd (o.toNat % 32)
    16 * s + four (subDisparity 3 0b000111 rd s) (o.toNat % 32) (o.toNat / 32)
  | .ctrl o =>
    let g := ((controlGroups.find? fun p => p.1 == o).map (·.2)).getD 0
    if rd then 1023 - g else g

/-- The symbol of a code group; none is a code error. -/
def decodeGroup (rd : Bool) (g : Nat) : Option Symbol :=
  match controlGroups.find? fun p => encodeSymbol rd (.ctrl p.1) == g with
  | some p => some (.ctrl p.1)
  | none =>
    match (List.range 32).find? fun x => six rd x == g / 16 with
    | none => none
    | some x =>
      ((List.range 8).find? fun y => four (subDisparity 3 0b000111 rd (g / 16)) x y == g % 16).map fun y =>
        .data (BitVec.ofNat 8 (x + 32 * y))

/-- The code groups of symbols, and the running disparity after them. -/
def encodeAll : Bool → List Symbol → List Nat × Bool
  | rd, [] => ([], rd)
  | rd, s :: ss =>
    let g := encodeSymbol rd s
    let r := encodeAll (disparity rd g) ss
    (g :: r.1, r.2)

/-- The symbols of code groups. -/
def decodeAll : Bool → List Nat → List (Option Symbol)
  | _, [] => []
  | rd, g :: gs => decodeGroup rd g :: decodeAll (disparity rd g) gs

/-! ### Ordered sets and packets (R230, R237, R239) -/

def symSOP : Symbol := .ctrl 0xFB
def symEOP : Symbol := .ctrl 0xFD
def symEDB : Symbol := .ctrl 0xFE

/-- A training set with its LANE. -/
def trainSymbols (o : Byte) (lane : Nat) : List Symbol :=
  let l := BitVec.ofNat 8 lane
  [.ctrl 0xBC, .data o, .data l, .data (~~~l)]

/-- The fill. -/
def idleSymbols : List Symbol := [.ctrl 0xBC, .data 0x50]

/-- The check byte of an FC set. -/
def fcCheck (ack crd : Byte) : Byte := ack ^^^ crd ^^^ 0xC3

/-- The check byte of a PRS: of 0x80 | ID and TH. -/
def prsCheck (id : BitVec 7) (th : BitVec 24) : Byte :=
  (0x80 ||| id.setWidth 8) ^^^ th.extractLsb' 0 8 ^^^ th.extractLsb' 8 8 ^^^ th.extractLsb' 16 8 ^^^ 0x96

/-- The symbols of what lane `l` sends. -/
def LaneSent.symbols (l : Nat) : LaneSent → List Symbol
  | .ts1 => trainSymbols 0x4A l
  | .ts2 => trainSymbols 0xB5 l
  | .fc ack crd =>
    let a := BitVec.ofNat 8 ack
    let k := BitVec.ofNat 8 crd
    [.ctrl 0x9C, .data a, .data k, .data (fcCheck a k)]
  | .probe id => let i := BitVec.ofNat 8 id; [.ctrl 0x1C, .data i, .data 0, .data (~~~i)]
  | .packet bs => symSOP :: bs.map .data ++ [symEOP]
  | .edb => [symEDB]
  | .tmk b1 b2 =>
    let x := BitVec.ofNat 8 b1
    let y := BitVec.ofNat 8 b2
    [.ctrl 0x3C, .data x, .data y, .data (x ^^^ y ^^^ 0x5A)]
  | .idleEntry => List.replicate 4 (.ctrl 0x7C)
  | .exitBurst => List.replicate 64 (.ctrl 0xFC)
  | .shortTraining => (List.range 8).flatMap fun _ => trainSymbols 0xB5 l
  | .fill => idleSymbols
  | .raw _ => []

/-- The line bits of a code group, first bit first. -/
def groupBits (g : Nat) : List Bool := (List.range 10).map fun i => bitOf g (9 - i)

/-- The line bits of what lane `l` sends from a running disparity on, and the running disparity after it. A raw pattern
bypasses the code (R253). -/
def LaneSent.line (l : Nat) (rd : Bool) : LaneSent → List Bool × Bool
  | .raw bs => (bs, rd)
  | x => let r := encodeAll rd (x.symbols l); (r.1.flatMap groupBits, r.2)

/-! ### Alignment and code errors (R229, R231, R251) -/

/-- A K28.5 followed by the second symbol of IDL, TS1 or TS2 in the last twenty bits: the running disparity after it. -/
def alignsAt (w : Nat) : Option Bool :=
  [false, true].findSome? fun rd =>
    let r := disparity rd (w / 1024)
    if encodeSymbol rd (.ctrl 0xBC) = w / 1024 ∧
        (decodeGroup r (w % 1024) == some (.data 0x50) || decodeGroup r (w % 1024) == some (.data 0x4A) ||
          decodeGroup r (w % 1024) == some (.data 0xB5)) then some (disparity r (w % 1024))
    else none

/-- A comma in the last seven bits. -/
def commaAt (w : Nat) : Bool := w % 128 == 0b0011111 || w % 128 == 0b1100000

/-- A code error is noted, with the symbols received since each of the last ones. -/
def LaneRx.err (x : LaneRx) : LaneRx :=
  { x with ages := 0 :: x.ages, count := x.count + 1, excess := x.excess || decide (15 ≤ x.ages.length) }

/-- One bit received; `may`: the receiver's state lets it acquire alignment. -/
def LaneRx.bit (may : Bool) (x : LaneRx) (b : Bool) : LaneRx :=
  let w := (2 * x.last + b2n b) % 2 ^ 20
  let x := { x with last := w }
  if x.aligned then
    let n := x.phase + 1
    let x := if commaAt w ∧ n ≠ 7 ∧ !may then x.err else x
    if n < 10 then { x with phase := n }
    else
      let g := w % 1024
      let x := { x with phase := 0, ages := (x.ages.map (· + 1)).filter (· < 1024) }
      let x := if (decodeGroup x.rd g).isNone then x.err else x
      { x with rd := disparity x.rd g }
  else if may then
    match alignsAt w with
    | some rd => { x with aligned := true, phase := 0, rd := rd }
    | none => x
  else x

/-- A run of bits received: its code errors are counted from 0. -/
def LaneRx.take (may : Bool) (x : LaneRx) (bs : List Bool) : LaneRx :=
  bs.foldl (fun (x : LaneRx) (b : Bool) => x.bit may b) { x with count := 0, excess := false }

/-! ### PRBS patterns (R253, R254) -/

/-- Degree and tap of the pattern of a MODE. -/
def prbsPoly (mode : Nat) : Nat × Nat :=
  match mode with
  | 1 => (7, 6)
  | 2 => (15, 14)
  | 3 => (23, 18)
  | _ => (31, 28)

/-- The bit of a pattern that follows the last ones, the newest in bit 0. -/
def prbsNext (mode reg : Nat) : Bool := bitOf reg ((prbsPoly mode).1 - 1) != bitOf reg ((prbsPoly mode).2 - 1)

def prbsPush (mode reg : Nat) (b : Bool) : Nat := (2 * reg + b2n b) % 2 ^ (prbsPoly mode).1

/-- One bit of the generator, with the flips of INJ_BIT and of RATE_LOG2. -/
def Prbs.send (mode rate : Nat) (x : Prbs) : Prbs :=
  let b := prbsNext mode x.gen
  let due := rate != 0 && x.since + 1 == 2 ^ rate
  let inj := decide (0 < x.flips)
  { x with
    gen := prbsPush mode x.gen b
    since := if due then 0 else x.since + 1
    flips := x.flips - 1
    out := x.out ++ [b != (due != inj)] }

/-- One bit of the checker, with LOCK. Out of lock it predicts each bit from those received; LOCK comes after 64 bits that
agree, and the pattern then runs on from them (DESIGN CHOICE, log entry 98). -/
def Prbs.check (mode : Nat) : Bool × Prbs → Bool → Bool × Prbs
  | (true, x), b =>
    let p := prbsNext mode x.ref
    let bad := ((b != p) :: x.bad).take 64
    let x := { x with ref := prbsPush mode x.ref p, bad := bad, errs := x.errs + b2n (b != p) }
    if 32 ≤ (bad.filter id).length then (false, { x with good := 0, fill := 0, bad := [] }) else (true, x)
  | (false, x), b =>
    let n := (prbsPoly mode).1
    let good := if x.fill < n ∨ b ≠ prbsNext mode x.ref ∨ x.ref = 0 then 0 else x.good + 1
    (decide (64 ≤ good), { x with ref := prbsPush mode x.ref b, fill := min (x.fill + 1) n, good := good, bad := [] })

end Sys2Proof.Machine
end

