-- ==== Sys2Proof/Machine/Lane.lean ====
section
/-! DEFINITION. Head lanes and the Kenak Lane Protocol (R227 to R258): link states, capabilities, delay
measurement, packets and messages, credits and copies, idle and exit, faults and tests. -/

namespace Sys2Proof.Machine

/-- Lane l replaced by its image. -/
def Chip.onLane (c : Chip) (l : Fin 76) (f : Lane → Lane) : Chip := { c with lane := upd c.lane l f }

/-- The lane of a head (R227). -/
def headLane (h : Fin 64) : Fin 76 := ⟨h.val, by omega⟩

/-- LNK_FLAGS bits (R257). -/
def kfCODE_ERR : Nat := 0x1
def kfUL_CRC : Nat := 0x2
def kfUL_LOST : Nat := 0x4
def kfTICK_MISSED : Nat := 0x8
def kfEDGE_ERR : Nat := 0x10
def kfCRD_STALL : Nat := 0x20
def kfMSG_FAIL : Nat := 0x40
def kfDRIFT : Nat := 0x80
def kfLINK_DOWN : Nat := 0x100

def Chip.laneSticky (c : Chip) (h : Fin 64) (b : Nat) : Chip := c.sticky (Reg.LNK_FLAGS h) b
def Chip.laneFlag (c : Chip) (h : Fin 64) (b p2 : Nat) : Chip := c.flag (Reg.LNK_FLAGS h) (.head h) b p2
def Chip.laneTally (c : Chip) (h : Fin 64) (evsel : Nat) (n : Nat := 1) : Chip :=
  c.tally blkLNK evsel h.val n

/-- CAUSE of LNK_DOWN_CAUSE (R257). -/
def kcSW : Nat := 0x01
def kcTRAIN_TMO : Nat := 0x02
def kcCAP_REJ : Nat := 0x03
def kcCAP_RANGE : Nat := 0x04
def kcPROBE_FAIL : Nat := 0x05
def kcDELAY_RANGE : Nat := 0x06
def kcLOS : Nat := 0x07
def kcUL_TIMEOUT : Nat := 0x08
def kcHEAD_FAULT : Nat := 0x09
def kcCRD_STALL : Nat := 0x0A
def kcPERIOD_FAIL : Nat := 0x0B
def kcEXIT_FAIL : Nat := 0x0C
def kcLANE_MISMATCH : Nat := 0x0D

/-! ### Packets (R239, R240, R244) -/

/-- One byte of the CRC-16 of R239. -/
def crc16Byte (c : Nat) (b : Byte) : Nat :=
  (List.range 8).foldl (fun (c : Nat) (_ : Nat) => if bitOf c 15 then (2 * c % 65536) ^^^ 0x1021 else 2 * c) (c ^^^ (b.toNat * 256))

/-- The CRC-16 of R239. -/
def crc16 (bs : List Byte) : Nat := bs.foldl crc16Byte 0xFFFF

/-- A packet's bytes with their CRC, low byte first; inverted where an error is injected (R254). -/
def withCrc (bs : List Byte) (inject : Bool) : List Byte :=
  bs ++ leBytes 2 (if inject then 65535 - crc16 bs else crc16 bs)

/-- Credits of a packet whose bytes 0 to L − 1 are given: SOP, the bytes, the CRC and EOP, in units of 16 (R244). -/
def packetCost (len : Nat) : Nat := (len + 4 + 15) / 16

/-- Downlink credit available (R244). -/
def Lane.credit (k : Lane) : Nat := if k.fcSeen then (k.crd + 256 - k.used) % 256 else 0

/-- INJ_CRC applies to this packet of class `sel`; it is used up (R254). -/
def Chip.takeInject (c : Chip) (l : Nat) (sel : Nat) : Bool × Chip :=
  if c.bit (Reg.LNK_INJECT l) 0 && c.fld (Reg.LNK_INJECT l) 2 1 == sel then (true, c.setFld (Reg.LNK_INJECT l) 0 0 0)
  else (false, c)

/-- A lane that has sent something as lane h. -/
def Lane.sends (k : Lane) (h : Nat) (x : LaneSent) : Lane := { k with sent := k.sent ++ [x], txRd := (x.line h k.txRd).2 }

/-- Something sent on a lane. -/
def Chip.send (c : Chip) (h : Fin 64) (x : LaneSent) : Chip := c.onLane (headLane h) fun k => k.sends h x

/-- Credits granted again with the next FC: buffer space freed of a packet for which none is sent (R244, R251). -/
def Chip.regrant (c : Chip) (h : Fin 64) (freed : Nat) : Chip :=
  c.onLane (headLane h) fun k => { k with grant := (k.grant + freed) % 256 }

/-- An FC set: an acknowledgement, and the credits granted so far (R244). -/
def Chip.sendFc (c : Chip) (h : Fin 64) (ack : Option Nat) (freed : Nat) : Chip :=
  let c := (c.regrant h freed).onLane (headLane h) fun k => { k with ack := ack.getD k.ack }
  let k := c.lane[headLane h]
  c.send h (.fc k.ack k.grant)

/-- A packet sent: its credits are consumed. -/
def Chip.sendPacket (c : Chip) (h : Fin 64) (bs : List Byte) (sel : Nat) : Chip :=
  let (inj, c) := c.takeInject h sel
  (c.onLane (headLane h) fun k => { k with used := (k.used + packetCost bs.length) % 256 }).send h (.packet (withCrc bs inj))

/-- Bytes 0 to L − 1 of a MESSAGE (R243). -/
def messageBytes (m : LaneMsg) : List Byte :=
  leBytes 1 4 ++ leBytes 1 m.seq ++ leBytes 1 m.op ++ leBytes 1 m.payload.length ++ m.payload

/-- Messages may be sent in these states. -/
def LaneState.up : LaneState → Bool
  | .capx => true
  | .measure => true
  | .sync => true
  | .active => true
  | .exit => true
  | _ => false

/-- A message may be started: 8 credits remain after it (R244). -/
def Lane.room (k : Lane) (payload : List Byte) : Bool := k.state.up && decide (packetCost (4 + payload.length) + 8 ≤ k.credit)

/-- The next waiting message is sent when none is unacknowledged, and one that was ended with EDB is sent again, where the
credit permits (R243 to R245). -/
def Chip.sendNext (c : Chip) (h : Fin 64) : Chip :=
  let k := c.lane[headLane h]
  match k.msg, k.msgs with
  | none, (op, bs) :: rest =>
    if k.room bs then
      let m : LaneMsg := ⟨k.seq, op, bs, 0, false⟩
      let c := c.onLane (headLane h) fun k => { k with msg := some m, msgs := rest, seq := (k.seq + 1) % 256 }
      c.sendPacket h (messageBytes m) 2
    else c
  | some m, _ =>
    if m.cut ∧ k.room m.payload then
      (c.onLane (headLane h) fun k => { k with msg := some { m with cut := false } }).sendPacket h (messageBytes m) 2
    else c
  | none, [] => c

/-- A message queued, and sent when it may be. -/
def Chip.queueMsg (c : Chip) (h : Fin 64) (op : Nat) (bs : List Byte) : Chip :=
  (c.onLane (headLane h) fun k => { k with msgs := k.msgs ++ [(op, bs)] }).sendNext h

/-- The payload of CONFIG (R234). -/
def Chip.configBytes (c : Chip) (h : Fin 64) : List Byte :=
  let k := c.lane[headLane h]
  leBytes 2 c.N ++ leBytes 1 k.pdMask ++ leBytes 1 (c.fld (Reg.LNK_CFG h) 11 8) ++ leBytes 1 h.val ++
    leBytes 1 (b2n (!k.retx)) ++ leBytes 2 0

/-- The usability and retransmission bounds of a delay (R236). -/
def usable (n : Nat) (d : Int) : Bool := d ≤ 250 * (n : Int) - 50000
def retransmits (n : Nat) (d : Int) : Bool := d ≤ 125 * (n : Int) - 50000

/-- The payload of PERIOD (R243). -/
def periodBytes (n last : Nat) (copies : Bool) : List Byte := leBytes 2 n ++ leBytes 4 last ++ leBytes 1 (b2n copies) ++ leBytes 1 0

/-! ### Entering and leaving states (R232, R251) -/

/-- Work and counts of a lane dropped. -/
def Lane.clear (k : Lane) : Lane :=
  { k with
    tsRun := 0, ts2Run := 0, sendTs2 := false, tsOwn := false, tsOther := false
    fcSeen := false, crd := 0, used := 0, tickPkt := none, msg := none, msgs := [], probe := none
    idleReq := false, idleRegrid := none, quiet := 0, coast := 0, stall := 0, rx := .reset }

/-- A KLP_PASS that waits for its reply on a lane ends with a status (R341). -/
def Chip.failPass (e : Env) (c : Chip) (h : Fin 64) (status : Nat) : Chip :=
  (List.finRange 256).foldl (fun (c : Chip) (r : Fin 256) =>
    match (c.ring r).cur with
    | some ⟨d, .passReply h' _ _⟩ => if h' = h.val then c.finish e r d status none none else c
    | _ => c) c

/-- LINK_DOWN on an entry to DOWN or OFF from SYNC, ACTIVE or EXIT, and R31 from ACTIVE (R251). -/
def Chip.leaveService (e : Env) (c : Chip) (h : Fin 64) (from_ : LaneState) (cause : Nat) : Chip :=
  let c := if from_ = .sync ∨ from_ = .active ∨ from_ = .exit then c.laneFlag h kfLINK_DOWN cause else c
  if from_ = .active then (c.headDown h).failPass e h 0x52 else c

/-- A lane is quiescent while it is OFF or DOWN (R257). -/
def Lane.quiescent (k : Lane) : Bool := k.state = .off || k.state = .down

/-- The receiver of a lane adapts while the lane carries traffic and PIN is 0: the values in use are the
receiver's own (R256). -/
def Chip.adaptEq (c : Chip) (l : Fin 76) : Chip :=
  let traffic := if l.val < 64 then !(c.lane[l]).quiescent else c.bit (Reg.LNK_CTRL l) 0
  if traffic && !c.bit (Reg.LNK_EQ l) 31 then
    let (x, c) := c.draw 10
    c.setFld (Reg.LNK_EQ l) 9 0 x
  else c

/-- The lane goes DOWN with a cause. -/
def Chip.laneDown (e : Env) (c : Chip) (h : Fin 64) (cause : Nat) : Chip :=
  let from_ := (c.lane[headLane h]).state
  let c := c.adaptEq (headLane h)
  let c := c.onLane (headLane h) fun k => { k.clear with state := .down }
  let a := Reg.LNK_DOWN_CAUSE h
  let c := (c.setFld a 7 0 cause).setFld a 23 8 (min (c.fld a 23 8 + 1) 0xFFFF)
  c.leaveService e h from_ cause

/-- The lane sends TS1 and trains. -/
def Chip.laneTrain (c : Chip) (h : Fin 64) : Chip :=
  (c.onLane (headLane h) fun k => { k.clear with state := .align }).send h .ts1

/-- ENABLE written 0: electrical idle, with cause SW if the lane was not OFF. -/
def Chip.laneOff (e : Env) (c : Chip) (h : Fin 64) : Chip :=
  let from_ := (c.lane[headLane h]).state
  if from_ = .off then c
  else
    let c := c.adaptEq (headLane h)
    let c := c.onLane (headLane h) fun k => { k.clear with state := .off }
    (c.setFld (Reg.LNK_DOWN_CAUSE h) 7 0 kcSW).leaveService e h from_ kcSW

/-- The lane enters ACTIVE: TICK packets start with the work of the next tick (R232), whose snapshot is the first to find
the head in service (R47). -/
def Chip.laneActive (c : Chip) (h : Fin 64) : Chip :=
  c.onLane (headLane h) fun k => { k with
    state := .active, tickFrom := c.ttu.index + 1, quiet := 0, coast := 0, stall := 0, rx := { k.rx with aligned := true } }

/-- A head is named in the HEAD_MASK of an ARMED or RUNNING Ingot (R248). -/
def Chip.headInUse (c : Chip) (h : Fin 64) : Bool :=
  (List.finRange 16).any fun i =>
    let x := c.hst.leases[i]
    (x.state = .armed || x.state = .running) && (x.ingot.any fun g => g.headMask.getLsbD h)

/-- A lane in IDLE begins exit (R249): XIT, STB and IDL and, where a regrid took place in IDLE, PERIOD. -/
def Chip.laneWake (c : Chip) (h : Fin 64) : Chip :=
  let k := c.lane[headLane h]
  if k.state = .idle then
    let c := c.onLane (headLane h) fun k => { k with state := .exit, idleRegrid := none, rx := .reset }
    let c := ((c.send h .exitBurst).send h .shortTraining).send h .fill
    match k.idleRegrid with
    | some (n, last) => c.queueMsg h 2 (periodBytes n last (retransmits n k.d))
    | none => c
  else c

/-- Every idle lane that an arming Ingot names begins exit (R249). -/
def Chip.wakeHeads (c : Chip) (mask : BitVec 64) : Chip :=
  (List.finRange 64).foldl (fun (c : Chip) (h : Fin 64) => if mask.getLsbD h then c.laneWake h else c) c

/-- An IDLE write is accepted (R248). -/
def Chip.idleOk (c : Chip) (h : Fin 64) : Bool :=
  (c.lane[headLane h]).state = .active && c.bit (Reg.LNK_CFG h) 20 && !c.headInUse h

/-- A write of LNK_CTRL of a head lane (R232, R248, R249). An IDLE write that is not accepted is discarded
by its caller. -/
def Chip.laneCtrl (e : Env) (c : Chip) (h : Fin 64) (v : Nat) : Chip :=
  if !bitOf v 0 then (c.wrn (Reg.LNK_CTRL h) 0).laneOff e h
  else
    let c := c.wrn (Reg.LNK_CTRL h) 1
    match (c.lane[headLane h]).state with
    | .off => c.laneTrain h
    | .down => if bitOf v 1 then c.laneTrain h else c
    | .active =>
      if bitOf v 1 then c.laneDown e h kcSW
      else if bitOf v 2 then
        if (c.lane[headLane h]).idleReq then c
        else (c.onLane (headLane h) fun k => { k with idleReq := true }).queueMsg h 4 []
      else c
    | .idle => if bitOf v 3 then c.laneWake h else c
    | _ => c

/-! ### Training and capabilities (R232, R233) -/

/-- The receiver has symbol alignment: a training set has given it (R231). -/
def Chip.alignLane (c : Chip) (h : Fin 64) : Chip :=
  c.onLane (headLane h) fun k => { k with rx := { k.rx with aligned := true } }

/-- A training set received: `ts2` tells TS2 from TS1; `lane` is its LANE; `sent`, the TS2 sets that the device has sent by
then. It gives symbol alignment in ALIGN and EXIT, and counts in ALIGN (R231, R232). -/
def Chip.trainingSet (c : Chip) (h : Fin 64) (ts2 : Bool) (lane sent : Nat) : Chip :=
  if (c.lane[headLane h]).state = .exit then c.alignLane h
  else if (c.lane[headLane h]).state ≠ .align then c
  else
    let c := c.alignLane h
    let was := (c.lane[headLane h]).sendTs2
    let c := c.onLane (headLane h) fun k =>
      if lane = h.val then
        { k with tsOwn := true, tsRun := k.tsRun + 1, ts2Run := if ts2 then k.ts2Run + 1 else 0
                 sendTs2 := k.sendTs2 || decide (16 ≤ k.tsRun + 1) }
      else { k with tsOther := true, tsRun := 0, ts2Run := 0 }
    let k := c.lane[headLane h]
    let c := if k.sendTs2 ∧ !was then c.send h .ts2 else c
    if k.sendTs2 ∧ 16 ≤ sent ∧ 8 ≤ k.ts2Run then
      let (a, c) := c.draw 8
      (c.onLane (headLane h) fun k => { k with state := .capx, grant := 0, ack := a }).sendFc h none 128
    else c

/-- Whether a capability record passes the Accepted column of R233, N_MIN apart. -/
def capOk (r : List Byte) : Bool :=
  let g := leAt r 12 1
  r.length == 32 && decide (1 ≤ leAt r 8 4) && (bitsOf g 3 0 == 1 || bitsOf g 3 0 == 2) &&
    decide (leAt r 13 1 ≤ 4) && decide (1000 ≤ leAt r 14 2 ∧ leAt r 14 2 ≤ 16000) && leAt r 16 1 == 8 &&
    leAt r 17 1 == 1 && decide (48 ≤ leAt r 18 1 ∧ leAt r 18 1 ≤ 128) && leAt r 19 1 == 0 && leAt r 24 8 == 0

def Chip.capMin (c : Chip) (h : Nat) : Nat := c.fld (Reg.LNK_CAP h 3) 31 16
def Chip.capPds (c : Chip) (h : Nat) : Nat := c.fld (Reg.LNK_CAP h 3) 15 8

/-- A capability record in CAPX: kept, and answered with CONFIG, or the lane goes DOWN (R233, R234). -/
def Chip.takeCap (e : Env) (c : Chip) (h : Fin 64) (r : List Byte) : Chip :=
  if (c.lane[headLane h]).state ≠ .capx then c
  else
    let c := (List.range 8).foldl (fun (c : Chip) (j : Nat) => c.wrn (Reg.LNK_CAP h j) (leAt r (4 * j) 4)) c
    if !capOk r then c.laneDown e h kcCAP_REJ
    else if c.N < leAt r 14 2 then c.laneDown e h kcCAP_RANGE
    else
      let n := leAt r 13 1
      let mask := c.fld (Reg.LNK_CFG h) 3 0 &&& (2 ^ n - 1)
      let c := c.onLane (headLane h) fun k => { k with pdMask := mask }
      let c := c.onHeadMpc h fun x => { x with pd := n }
      c.queueMsg h 1 (c.configBytes h)

/-! ### Delay (R235, R236) -/

/-- The next probe. Each carries a new ID, 0 to 127. -/
def Chip.sendProbe (c : Chip) (h : Fin 64) : Chip :=
  let id := (c.lane[headLane h]).probeId
  (c.onLane (headLane h) fun k => { k with
    probeId := (id + 1) % 128, probe := k.probe.map fun p => { p with id := id } }).send h (.probe id)

/-- A delay measurement begins. -/
def Chip.startProbes (c : Chip) (h : Fin 64) : Chip :=
  (c.onLane (headLane h) fun k => { k with probe := some ⟨[], 0, 0⟩ }).sendProbe h

/-- Insertion into a rising list. -/
def insertInt (x : Int) : List Int → List Int
  | [] => [x]
  | y :: ys => if x ≤ y then x :: y :: ys else y :: insertInt x ys

/-- The one-way delay of 64 values (R235). -/
def delayOf (vs : List Int) : Int := rndDiv (((vs.foldr insertInt []).drop 16).take 32).sum 64

/-- The end of a measurement: training ends in SYNC or DOWN; a remeasurement is compared with the trained d. -/
def Chip.measured (e : Env) (c : Chip) (h : Fin 64) (d : Int) : Chip :=
  let k := c.lane[headLane h]
  let c := c.onLane (headLane h) fun k => { k with probe := none }
  if k.state = .measure then
    if !usable c.N d then c.laneDown e h kcDELAY_RANGE
    else if c.N < c.capMin h then c.laneDown e h kcCAP_RANGE
    else
      let c := c.onLane (headLane h) fun k => { k with state := .sync, d := d, retx := !retransmits c.N d }
      (c.wrn (Reg.LNK_DELAY h) (unsOf 24 d)).wrn (Reg.LNK_ADV h) (unsOf 16 (rndDiv d 125))
  else
    let c := c.wrn (Reg.LNK_DELAY_NOW h) (unsOf 24 d)
    let c := if 30 < (d - k.d).natAbs then c.laneFlag h kfDRIFT 0 else c
    if usable c.N d then c else c.laneDown e h kcDELAY_RANGE

/-- A probe answered with a value of M − TH, or unanswered (R232, R235). -/
def Chip.probeDone (e : Env) (c : Chip) (h : Fin 64) (v : Option Int) : Chip :=
  let k := c.lane[headLane h]
  match k.probe with
  | none => c
  | some p =>
    let p := match v with
      | some x => { p with values := p.values ++ [x] }
      | none => { p with missed := p.missed + 1 }
    let c := c.onLane (headLane h) fun k => { k with probe := some p }
    if p.values.length = 64 then c.measured e h (delayOf p.values)
    else if 8 < p.missed then
      if k.state = .measure then c.laneDown e h kcPROBE_FAIL
      else c.onLane (headLane h) fun k => { k with probe := none }
    else c.sendProbe h

/-- A probe response (R230, R235): `ok`, its check byte is good; M and TH in lane units. -/
def Chip.takePrs (e : Env) (c : Chip) (h : Fin 64) (ok : Bool) (id th : Nat) (m : Int) : Chip :=
  match (c.lane[headLane h]).probe with
  | none => c
  | some p =>
    if ok ∧ id = p.id ∧ th ≤ 2000000 then c.probeDone e h (some (m - (th : Int))) else c.probeDone e h none

/-! ### The uplink (R239, R242 to R246, R251) -/

/-- An accepted uplink packet: its buffer space is freed and, but for STATUS, it is acknowledged (R244). -/
def Chip.acceptUp (c : Chip) (h : Fin 64) (ty : Fin 3) (seq len : Nat) : Chip :=
  let c := c.onLane (headLane h) fun k => { k with up := upd k.up ty fun _ => some seq, quiet := 0 }
  (c.laneTally h 0x12).sendFc h (if ty = 1 then none else some seq) (packetCost len)

/-- The duplicate test of R239. -/
def Lane.dup (k : Lane) (ty : Fin 3) (seq : Nat) : Bool := k.up[ty] == some seq

/-- An uplink packet is received in this state. -/
def LaneState.hears : LaneState → Bool
  | .capx => true
  | .measure => true
  | .sync => true
  | .active => true
  | .exit => true
  | _ => false

/-- Code errors counted (R251). -/
def Chip.codeErrors (c : Chip) (h : Fin 64) (n : Nat) : Chip :=
  if n = 0 then c else ((c.bumpN 32 (Reg.LNK_CODE_ERR_CNT h) n).laneTally h 0x13 n).laneSticky h kfCODE_ERR

/-- A discarded uplink packet, whose `freed` credits the next FC grants again (R244, R251). The corruption is reported as an
event (R27, R28; DEDUCED, log entry 55). -/
def Chip.badUplink (c : Chip) (h : Fin 64) (freed : Nat) : Chip :=
  ((c.bump (Reg.LNK_UL_CRC_CNT h)).laneFlag h kfUL_CRC 0).regrant h freed

/-- The tick that a TIDX byte names: the latest at or before the current one with those low bits (R242). -/
def resolveTick (now_ tidx : Nat) : Option Nat :=
  let k := (now_ + 256 - tidx % 256) % 256
  if k ≤ now_ then some (now_ - k) else none

/-- The photodiodes of a mask, in ascending order. -/
def maskBits (m : Nat) : List Nat := (List.range 4).filter fun i => bitOf m i

/-- A SAMPLE packet (R242, R246): the samples of each photodiode in PD_MASK. The first set accepted for a tick
enters the next snapshot. -/
def Chip.takeSample (c : Chip) (h : Fin 64) (seq tidx : Nat) (copy : Bool) (pds : List (List Nat)) : Chip :=
  let k := c.lane[headLane h]
  let ms := maskBits k.pdMask
  if !k.state.hears then c
  else if pds.length ≠ ms.length ∨ pds.any (fun s => s.length ≠ 8) then c.badUplink h (packetCost (3 + 16 * pds.length))
  else if k.dup 0 seq then c.regrant h (packetCost (3 + 16 * pds.length))
  else
    let c := c.acceptUp h 0 seq (3 + 16 * pds.length)
    match resolveTick c.ttu.index tidx with
    | none => c
    | some a =>
    let x := c.mpc.heads[h]
    if (x.sets ++ x.newSets).any (·.tick == a) then c
    else
      let full := (List.range 4).map fun i => match ms.findIdx? (· == i) with
        | some j => (pds.getD j []).map (· % 65536)
        | none => []
      let c := if copy then c.bump (Reg.LNK_UL_RECOV_CNT h) else c
      c.onHeadMpc h fun x => { x with newSets := x.newSets ++ [⟨a, full⟩] }

/-- The following-error check of an encoder value tagged tick a (R124). -/
def Chip.checkFollow (c : Chip) (h : Fin 64) (a : Nat) (ex ey : Int) : Chip :=
  let f := Reg.SCN_FOLLOW_CFG h
  let lim := c.actFld f 15 0
  if lim = 0 then c
  else
    match (c.hd[h]).history.find? (·.1 == a - c.actFld f 23 16) with
    | none => c
    | some (_, gx, gy) =>
      if lim < (ex - gx).natAbs ∨ lim < (ey - gy).natAbs then
        let n := (c.hd[h]).follow + 1
        let c := c.onHead h fun x => { x with follow := n }
        if max 1 (c.actFld f 31 24) ≤ n then c.flag (Reg.SCN_MOTION_FLAGS h) (.head h) mfFOLLOW 0 else c
      else c.onHead h fun x => { x with follow := 0 }

/-- HSTAT bits (R242). -/
def hsENC_VALID : Nat := 0
def hsSYNC : Nat := 1
def hsTICK_MISSED : Nat := 2
def hsEDGE_ERR : Nat := 3
def hsCOAST : Nat := 4
def hsFAULT : Nat := 7

/-- A STATUS packet (R242, R232, R251). -/
def Chip.takeStatus (e : Env) (c : Chip) (h : Fin 64) (seq tidx : Nat) (ex ey : Int) (hstat : Nat) : Chip :=
  let k := c.lane[headLane h]
  if !k.state.hears then c
  else if k.dup 1 seq then c.sendFc h none (packetCost 12)
  else
    let c := (c.acceptUp h 1 seq 12).onLane (headLane h) fun k => { k with hstat := hstat % 256 }
    let a := (resolveTick c.ttu.index tidx).getD c.ttu.index
    let c := if bitOf hstat hsENC_VALID then c.checkFollow h a ex ey else c
    let bits := b2n (bitOf hstat hsTICK_MISSED) * kfTICK_MISSED + b2n (bitOf hstat hsEDGE_ERR) * kfEDGE_ERR
    let c := if bitOf hstat hsTICK_MISSED then c.bump (Reg.LNK_DL_MISS_CNT h) else c
    let c := if bits = 0 then c else c.laneFlag h bits 0
    let run := if !bitOf hstat hsCOAST then 0
      else if 0 < k.coast ∧ a = k.coastTick + 1 then k.coast + 1 else 1
    let c := c.onLane (headLane h) fun k => { k with coast := run, coastTick := a }
    if (k.state = .sync ∨ k.state = .exit) ∧ bitOf hstat hsSYNC then c.laneActive h
    else if k.state = .active ∧ (bitOf hstat hsFAULT ∨ c.fld (Reg.LNK_CFG h) 11 8 ≤ run) then
      c.laneDown e h kcHEAD_FAULT
    else c

/-- An uplink MESSAGE (R243): a repeat of the last SEQ is acknowledged and dropped. -/
def Chip.upMessage (c : Chip) (h : Fin 64) (seq len : Nat) (f : Chip → Chip) : Chip :=
  let k := c.lane[headLane h]
  if !k.state.hears then c
  else if k.dup 2 seq then c.sendFc h (some seq) (packetCost (4 + len))
  else f (c.acceptUp h 2 seq (4 + len))

/-- What follows the acknowledgement of a message: probing after CONFIG (R232). -/
def Chip.messageAcked (c : Chip) (h : Fin 64) (m : LaneMsg) : Chip :=
  let c := c.onLane (headLane h) fun k => { k with msg := none }
  if m.op = 1 ∧ (c.lane[headLane h]).state = .capx then
    (c.onLane (headLane h) fun k => { k with state := .measure }).startProbes h
  else c

/-- An FC set (R244): it grants credit and acknowledges the packet with its SEQ. -/
def Chip.takeFc (c : Chip) (h : Fin 64) (ack crd : Nat) : Chip :=
  let k := c.lane[headLane h]
  if k.state.up ∨ k.state = .align then
    let c := c.onLane (headLane h) fun k => { k with
      fcSeen := true, crd := crd % 256
      tickPkt := k.tickPkt.map fun p => { p with acked := p.acked || p.seq == ack } }
    let c := match k.msg with
      | some m => if m.seq = ack then c.messageAcked h m else c
      | none => c
    c.sendNext h
  else c

/-- A message unacknowledged after 50 µs: resent up to three times, then MSG_FAIL (R243, R251). -/
def Chip.resend (e : Env) (c : Chip) (h : Fin 64) : Chip :=
  let k := c.lane[headLane h]
  match k.msg with
  | none => c
  | some m =>
    if m.resends < 3 then
      if packetCost (4 + m.payload.length) + 8 ≤ k.credit then
        (c.onLane (headLane h) fun k => { k with msg := some { m with resends := m.resends + 1 } }).sendPacket h (messageBytes m) 2
      else c
    else
      let c := (c.onLane (headLane h) fun k => { k with msg := none }).laneFlag h kfMSG_FAIL 0
      if k.state = .capx then
        let (x, c) := c.draw 8
        c.laneDown e h x
      else if m.op = 2 then c.laneDown e h kcPERIOD_FAIL
      else
        let c := if m.op = 3 then c.failPass e h 0x53 else if m.op = 4 then c.onLane (headLane h) fun k => { k with idleReq := false } else c
        c.sendNext h

/-! ### The downlink of a tick (R237, R240, R245) -/

/-- An edge field of a TICK packet. -/
def edgeField : Option (Nat × Bool) → Nat
  | none => 0
  | some (u, b) => u % 2 ^ 14 + 2 ^ 14 * b2n b + 2 ^ 15

/-- Bytes 0 to 51 of a TICK packet (R240). -/
def tickBytes (x : HeadOut) (held : Bool) (seq apply : Nat) : List Byte :=
  let (k1, k2, k3) := microK x.qx
  let (j1, j2, j3) := microK x.qy
  let s (n : Nat) (v : Int) : List Byte := leBytes n (unsOf (8 * n) v)
  leBytes 1 (1 + 2 ^ 5 * b2n held + 2 ^ 6 * b2n x.laser0) ++ leBytes 1 seq ++ leBytes 2 (apply % 2 ^ 16) ++
    s 4 x.qx.1 ++ s 4 k1 ++ s 4 k2 ++ s 4 k3 ++ s 4 x.qy.1 ++ s 4 j1 ++ s 4 j2 ++ s 4 j3 ++ s 3 x.z0 ++ s 3 x.dz ++
    leBytes 2 x.power.1 ++ leBytes 2 x.power.2 ++ leBytes 2 (edgeField x.edges[0]?) ++
    leBytes 2 (edgeField x.edges[1]?) ++ leBytes 2 0

/-- The copy of a TICK packet: COPY set (R239). -/
def copyBytes : List Byte → List Byte
  | [] => []
  | b :: bs => (b ||| 0x10) :: bs

/-- A TICK packet or copy withheld for credit (R245, R251). -/
def Chip.creditStall (c : Chip) (h : Fin 64) : Chip := (c.bump (Reg.LNK_CRD_STALL_CNT h)).laneSticky h kfCRD_STALL

/-- The tick marker of the boundary of tick t (R237). -/
def Chip.tickMarker (c : Chip) (h : Fin 64) (t : Nat) : LaneSent :=
  let adv := rndDiv (c.lane[headLane h]).d 125
  let r : Int := (((t - c.camShared.gridFirst) * c.N : Nat) : Int) - adv
  let tph := (125 * r % 320).toNat
  .tmk (tph % 256) (tph / 256 + 2 * (t % 64))

/-- The copy of the TICK packet of the last boundary, where it has not been acknowledged. At the boundary B of a regrid its
applied tick would lie after the last tick of the grid (R245). -/
def Chip.laneCopy (c : Chip) (h : Fin 64) : Chip :=
  let k := c.lane[headLane h]
  let c := c.onLane (headLane h) fun k => { k with tickPkt := none }
  match k.tickPkt with
  | some p =>
    if p.acked ∨ k.retx ∨ c.ttu.regrid.isSome then c
    else if 4 ≤ k.credit then ((c.bump (Reg.LNK_DL_COPY_CNT h)).laneTally h 0x11).sendPacket h (copyBytes p.bytes) 1
    else c.creditStall h
  | none => c

/-- The TICK packet for the work of t − 1, which the head applies in t + 2 (R245). -/
def Chip.laneTick (c : Chip) (h : Fin 64) (t : Nat) : Chip :=
  let k := c.lane[headLane h]
  let bs := tickBytes (c.hd[h]).out (decide ((c.hd[h]).hold ≠ .run)) k.seq (t + 2)
  let c := c.onLane (headLane h) fun k => { k with seq := (k.seq + 1) % 256, tickPkt := some ⟨k.seq, bs, false⟩ }
  if 4 ≤ k.credit then
    ((c.onLane (headLane h) fun k => { k with stall := 0 }).laneTally h 0x10).sendPacket h bs 0
  else (c.onLane (headLane h) fun k => { k with stall := k.stall + 1 }).creditStall h

/-- The bytes of a message that is the last thing sent. -/
def Lane.inHand (k : Lane) : Option (List Byte) :=
  match k.sent.getLast? with
  | some (.packet (b :: bs)) => if b.toNat % 16 = 4 ∧ k.msg.isSome then some (b :: bs) else none
  | _ => none

/-- A message in progress, of which `n` symbols are sent, is ended with EDB, to be sent again: it has consumed the credits of
the symbols sent (R244, R245). -/
def Chip.cutMessage (c : Chip) (h : Fin 64) (bs : List Byte) (n : Nat) : Chip :=
  let spent := (min n (bs.length + 1) + 1 + 15) / 16
  (c.onLane (headLane h) fun k => { k with
    used := (k.used + 256 - packetCost (bs.length - 2) + spent) % 256
    msg := k.msg.map fun m => { m with cut := true } }).send h .edb

/-- The boundary of tick t on a lane: the tick marker, the copy of the last TICK packet, and the TICK packet
for the work of t − 1 (R237, R245). `cut`: the symbols sent of a message in progress. -/
def Chip.laneBoundary (e : Env) (c : Chip) (h : Fin 64) (t : Nat) (cut : Option Nat) : Chip :=
  let k := c.lane[headLane h]
  let packs := k.state = .active ∧ k.tickFrom ≤ t - 1 ∧ c.ttu.regrid.isNone
  let c := c.onLane (headLane h) fun k => { k with sent := [] }
  let c := match k.inHand, cut with
    | some bs, some n => if packs then c.cutMessage h bs n else c
    | _, _ => c
  let c := if k.state = .sync ∨ k.state = .active ∨ k.state = .exit then c.send h (c.tickMarker h t) else c
  if k.state ≠ .active then c
  else
    let c := c.laneCopy h
    let c := if packs then c.laneTick h t else c
    let c := c.sendNext h
    if c.fld (Reg.LNK_CFG h) 11 8 ≤ (c.lane[headLane h]).stall then c.laneDown e h kcCRD_STALL else c

/-- UL_TIMEOUT is due (R251). -/
def Chip.quietDue (c : Chip) (h : Fin 64) : Bool :=
  (c.lane[headLane h]).state = .active && decide (c.fld (Reg.LNK_CFG h) 19 16 ≤ (c.lane[headLane h]).quiet)

/-- UL_TIMEOUT, where it is due. -/
def Chip.ulTimeout (e : Env) (c : Chip) (h : Fin 64) : Chip := if c.quietDue h then c.laneDown e h kcUL_TIMEOUT else c

/-- UL_LOST: the set of t − 3 is absent from the snapshot of tick t (R251). -/
def Chip.snapshotLane (c : Chip) (h : Fin 64) (t : Nat) : Chip :=
  let k := c.lane[headLane h]
  let c := if k.state = .active ∧ (c.hd[h]).down then c.headUp h else c
  if k.state = .active ∧ k.tickFrom + 3 ≤ t ∧ !((c.mpc.heads[h]).sets.any (·.tick == t - 3)) then
    (c.bump (Reg.LNK_UL_LOST_CNT h)).laneSticky h kfUL_LOST
  else c

/-- A tick that ends: ticks without an accepted uplink packet are counted (R251). -/
def Chip.countQuiet (c : Chip) (h : Fin 64) : Chip :=
  c.onLane (headLane h) fun k => if k.state = .active then { k with quiet := k.quiet + 1 } else k

/-! ### Regrid (R236, R250) -/

/-- An accepted regrid: PERIOD to every lane in SYNC or ACTIVE; one in IDLE is told as it exits (R249, R250). -/
def Chip.lanesPeriod (c : Chip) (n last : Nat) : Chip :=
  c.headList.foldl (fun (c : Chip) (h : Fin 64) =>
    let k := c.lane[headLane h]
    if k.state = .sync ∨ k.state = .active then c.queueMsg h 2 (periodBytes n last (retransmits n k.d))
    else if k.state = .idle then c.onLane (headLane h) fun k => { k with idleRegrid := some (n, last) }
    else c) c

/-- The first boundary of the new grid, whose tick marker a lane in service launches: a lane whose PERIOD is unacknowledged goes DOWN, and the bounds are
checked again with the trained d (R236, R250). -/
def Chip.lanesRegrid (e : Env) (c : Chip) (first : Nat) : Chip :=
  c.headList.foldl (fun (c : Chip) (h : Fin 64) =>
    let k := c.lane[headLane h]
    if k.state = .sync ∨ k.state = .active ∨ k.state = .idle ∨ k.state = .exit then
      let waits : Bool := (k.msg.any fun m => m.op == 2) || (k.msgs.any fun m => m.1 == 2)
      if waits ∧ k.state ≠ .exit then c.laneDown e h kcPERIOD_FAIL
      else if !usable c.N k.d then c.laneDown e h kcDELAY_RANGE
      else if c.N < c.capMin h then c.laneDown e h kcCAP_RANGE
      else c.onLane (headLane h) fun k => { k with
        retx := !retransmits c.N k.d, tickPkt := none, tickFrom := first, quiet := 0, coast := 0
        sent := if k.state = .idle then [] else [c.tickMarker h first] }
    else c) c

/-! ### Live bits -/

def LaneState.code : LaneState → Nat
  | .off => 0 | .align => 1 | .capx => 2 | .measure => 3 | .sync => 4 | .active => 5 | .idle => 6 | .exit => 7 | .down => 8

/-- LNK_STATUS as read (R257). -/
def Lane.status (k : Lane) : Nat := k.state.code + 2 ^ 4 * b2n k.retx + 2 ^ 8 * k.credit + 2 ^ 16 * k.hstat

/-- One word of a lane bitmap (R258). -/
def Chip.laneMap (c : Chip) (p : Lane → Bool) (hi : Bool) : Nat :=
  ((List.finRange 64).map fun (h : Fin 64) =>
    if c.headOn h ∧ (32 ≤ h.val) = hi ∧ p (c.lane[headLane h]) then 2 ^ (h.val % 32) else 0).sum


/-! ### Tests (R253 to R255) -/

/-- The PRBS checker, or the generator, runs (R253). -/
def Chip.prbsOn (c : Chip) (l : Fin 76) : Bool :=
  c.fld (Reg.LNK_PRBS_CFG l) 2 0 != 0 && c.bit (Reg.LNK_PRBS_CFG l) 4 && (c.lane[l]).quiescent
def Chip.prbsGen (c : Chip) (l : Fin 76) : Bool :=
  c.fld (Reg.LNK_PRBS_CFG l) 2 0 != 0 && c.bit (Reg.LNK_PRBS_CFG l) 3 && (c.lane[l]).quiescent

/-- The generator sends `n` bits of its pattern (R253, R254). -/
def Chip.prbsSend (c : Chip) (l : Fin 76) (n : Nat) : Chip :=
  if c.prbsGen l then
    let mode := c.fld (Reg.LNK_PRBS_CFG l) 2 0
    let rate := c.fld (Reg.LNK_INJECT l) 12 8
    c.onLane l fun k =>
      let x := (List.range n).foldl (fun (x : Prbs) _ => x.send mode rate) { k.prbs with out := [] }
      { k with prbs := { x with out := [] }, sent := [.raw x.out] }
  else c

/-- The checker takes bits: LOCK, and the bit errors while it holds (R253). -/
def Chip.prbsCheck (c : Chip) (l : Fin 76) (bs : List Bool) : Chip :=
  if c.prbsOn l then
    let a := Reg.LNK_PRBS_CFG l
    let (lock, x) := bs.foldl (Prbs.check (c.fld a 2 0)) (c.bit a 8, { (c.lane[l]).prbs with errs := 0 })
    ((c.bumpN 32 (Reg.LNK_PRBS_ERR l) x.errs).setFld a 8 8 (b2n lock)).onLane l fun k => { k with prbs := { x with errs := 0 } }
  else c

/-- Bits arrive on a lane under test, while its generator sends as many (log entry 98). -/
def Chip.prbs (c : Chip) (l : Fin 76) (bs : List Bool) : Chip := (c.prbsSend l bs.length).prbsCheck l bs

/-- A write of LNK_PRBS_CFG has been stored: with its checker off, or another MODE, the lock is gone; a generator that
starts stands anywhere in its pattern (DESIGN CHOICE, log entry 98). -/
def Chip.prbsCfg (c : Chip) (l : Fin 76) (old : Nat) : Chip :=
  let v := c.rdn (Reg.LNK_PRBS_CFG l)
  let fresh := decide (v % 8 ≠ old % 8)
  let c := if !bitOf v 4 || v % 8 == 0 || fresh then
      (c.setFld (Reg.LNK_PRBS_CFG l) 8 8 0).onLane l fun k => { k with prbs := { k.prbs with fill := 0, good := 0, bad := [] } }
    else c
  if bitOf v 3 && v % 8 != 0 && (fresh || !bitOf old 3) then
    let n := (prbsPoly (v % 8)).1
    let (x, c) := c.draw n
    c.onLane l fun k => { k with prbs := { k.prbs with gen := if x = 0 then 1 else x, since := 0, flips := 0 } }
  else c

/-! ### Commands -/

/-- A command about one head lane: nothing reaches the lane of a disabled head (R2). -/
def laneCommand (h : Fin 64) (s : State) (f : Env → Chip → Chip) : Host.Outcome State Fault Refusal :=
  .next (s.act fun e c => if c.headOn h then f e c else c)

/-- TRAINING_SET (R232): LANE and the byte behind it, without whose good complement the set has no effect (R231). -/
def execTrainingSet (h : Fin 64) (ts2 : Bool) (lane : Byte × Byte) (sent : Nat) (s : State) : Host.Outcome State Fault Refusal :=
  laneCommand h s fun _ c => if lane.2 = ~~~lane.1 then c.trainingSet h ts2 lane.1.toNat sent else c

/-- CAP (R233): a CAP message of SEQ `seq` with its record. -/
def execCap (h : Fin 64) (seq : BitVec 8) (r : List Byte) (s : State) : Host.Outcome State Fault Refusal :=
  laneCommand h s fun e c => c.upMessage h seq.toNat r.length fun c => c.takeCap e h r

/-- FC (R244): ACK_SEQ, CRD and the check byte, which is bad in a set that is ignored (R251). -/
def execFc (h : Fin 64) (ack : Byte) (crd : Byte × Byte) (s : State) : Host.Outcome State Fault Refusal :=
  laneCommand h s fun _ c => if crd.2 = fcCheck ack crd.1 then c.takeFc h ack.toNat crd.1.toNat else c

/-- PRS (R235), with its check byte. -/
def execPrs (h : Fin 64) (chk : Byte) (id : BitVec 7) (th : BitVec 24) (m : Nat) (s : State) : Host.Outcome State Fault Refusal :=
  laneCommand h s fun e c => c.takePrs e h (chk == prsCheck id th) id.toNat th.toNat m

/-- PROBE_TIMEOUT (R235). -/
def execProbeTimeout (h : Fin 64) (s : State) : Host.Outcome State Fault Refusal :=
  laneCommand h s fun e c => c.probeDone e h none

/-- REMEAS (R235). -/
def execRemeas (h : Fin 64) (s : State) : Host.Outcome State Fault Refusal :=
  laneCommand h s fun _ c =>
    let k := c.lane[headLane h]
    if k.state = .active ∧ c.fld (Reg.LNK_CFG h) 31 24 ≠ 0 ∧ k.probe.isNone then c.startProbes h else c

/-- STATUS (R242). -/
def execStatus (h : Fin 64) (seq tidx : BitVec 8) (ex ey : BitVec 24) (hstat : BitVec 8) (s : State) :
    Host.Outcome State Fault Refusal :=
  laneCommand h s fun e c => c.takeStatus e h seq.toNat tidx.toNat ex.toInt ey.toInt hstat.toNat

/-- SAMPLE (R242). -/
def execSample (h : Fin 64) (seq tidx : BitVec 8) (copy : Bool) (pds : List (List Nat)) (s : State) :
    Host.Outcome State Fault Refusal :=
  laneCommand h s fun _ c => c.takeSample h seq.toNat tidx.toNat copy pds

/-- An IDLE_ACK received: EIE is sent, the transmitter goes off, and the lane is in IDLE (R248). -/
def Chip.takeIdleAck (e : Env) (c : Chip) (h : Fin 64) : Chip :=
  let k := c.lane[headLane h]
  if k.state = .active ∧ k.idleReq then
    let c := (c.send h .idleEntry).onLane (headLane h) fun k => { k with
      state := .idle, idleReq := false, msg := none, msgs := [], tickPkt := none, probe := none, quiet := 0, coast := 0, stall := 0 }
    (c.headDown h).failPass e h 0x52
  else c

/-- IDLE_ACK (R248). -/
def execIdleAck (h : Fin 64) (seq : BitVec 8) (s : State) : Host.Outcome State Fault Refusal :=
  laneCommand h s fun e c => c.upMessage h seq.toNat 0 fun c => c.takeIdleAck e h

/-- A FAULT message received: the head's fault code is logged (R243). -/
def Chip.takeHeadFault (c : Chip) (h : Fin 64) (payload : List Byte) : Chip :=
  c.raise blkLNK 0x006 (.head h) sevERROR (leAt payload 0 4) (leAt payload 4 4) payload.length

/-- HEAD_FAULT (R243). -/
def execHeadFault (h : Fin 64) (seq : BitVec 8) (payload : List Byte) (s : State) : Host.Outcome State Fault Refusal :=
  laneCommand h s fun _ c => c.upMessage h seq.toNat payload.length fun c => c.takeHeadFault h payload

/-- MESSAGE_RESEND (R243). -/
def execMessageResend (h : Fin 64) (s : State) : Host.Outcome State Fault Refusal :=
  laneCommand h s fun e c => c.resend e h

/-- TRAIN_TMO (R232). -/
def execTrainTmo (h : Fin 64) (s : State) : Host.Outcome State Fault Refusal :=
  laneCommand h s fun e c =>
    let k := c.lane[headLane h]
    match k.state with
    | .align => c.laneDown e h (if k.tsOther ∧ !k.tsOwn then kcLANE_MISMATCH else kcTRAIN_TMO)
    | .capx => c.laneDown e h kcTRAIN_TMO
    | .measure => c.laneDown e h kcTRAIN_TMO
    | .sync => c.laneDown e h kcTRAIN_TMO
    | _ => c

/-- AUTO_RETRY (R232, R253). -/
def execAutoRetry (h : Fin 64) (s : State) : Host.Outcome State Fault Refusal :=
  laneCommand h s fun _ c =>
    if (c.lane[headLane h]).state = .down ∧ c.bit Reg.LNK_GLB_CFG 16 ∧ c.fld (Reg.LNK_PRBS_CFG h) 2 0 = 0 then c.laneTrain h
    else c

/-- EXIT_FAIL (R232). -/
def execExitFail (h : Fin 64) (s : State) : Host.Outcome State Fault Refusal :=
  laneCommand h s fun e c => if (c.lane[headLane h]).state = .exit then c.laneDown e h kcEXIT_FAIL else c

/-- The lane has lost its signal: DOWN from SYNC and ACTIVE (R251). -/
def Chip.loseSignal (e : Env) (c : Chip) (h : Fin 64) : Chip :=
  let k := c.lane[headLane h]
  if k.state = .sync ∨ k.state = .active then c.laneDown e h kcLOS else c

/-- A receiver is on in these states (R232, R248). -/
def LaneState.receives : LaneState → Bool
  | .off => false
  | .idle => false
  | .down => false
  | _ => true

/-- Bits received on a lane: symbol alignment, and code errors counted; 16 in 1,024 symbols take the lane DOWN (R229, R231,
R251). -/
def Chip.rxBits (e : Env) (c : Chip) (h : Fin 64) (bs : List Bool) : Chip :=
  let k := c.lane[headLane h]
  if !k.state.receives then c
  else
    let x := k.rx.take (k.state = .align || k.state = .exit) bs
    let c := (c.onLane (headLane h) fun k => { k with rx := { x with count := 0, excess := false } }).codeErrors h x.count
    if x.excess then c.loseSignal e h else c

/-- LOS (R251). -/
def execLos (h : Fin 64) (x : LinkLoss) (s : State) : Host.Outcome State Fault Refusal :=
  laneCommand h s fun e c =>
    match x with
    | .signal => c.loseSignal e h
    | .unlock => c.loseSignal e h
    | .bits bs => c.rxBits e h bs

/-- UL_TIMEOUT (R251). -/
def execUlTimeout (h : Fin 64) (s : State) : Host.Outcome State Fault Refusal :=
  laneCommand h s fun e c => c.ulTimeout e h

/-- EYE_SCAN_DONE (R255). -/
def execEyeScanDone (l : Fin 76) (count : Word) (s : State) : Host.Outcome State Fault Refusal :=
  .next (s.act fun _ c =>
    if (c.lane[l]).eye then
      ((c.wr (Reg.LNK_EYE_ERR l) count).setFld (Reg.LNK_EYE_CFG l) 31 31 1).onLane l fun k => { k with eye := false }
    else c)

/-- PRBS_LOCK (R253): the bits that arrive, which may give the checker its lock and count. -/
def execPrbsLock (l : Fin 76) (bs : List Bool) (s : State) : Host.Outcome State Fault Refusal :=
  .next (s.act fun _ c => c.prbs l bs)

/-- PRBS_LOCK_LOSS (R253): the bits that arrive, which may lose it its lock. -/
def execPrbsLockLoss (l : Fin 76) (bs : List Bool) (s : State) : Host.Outcome State Fault Refusal :=
  .next (s.act fun _ c => c.prbs l bs)

end Sys2Proof.Machine
end

