-- ==== Sys2Proof/Machine/Layer.lean ====
section
/-! DEFINITION. Leases and the layer lifecycle (R84 to R89, R338): START, ABORT and RELEASE, the start and the
end of a layer, staging (R90 to R92), and the abort that the safety functions make (R194, R196). -/

namespace Sys2Proof.Machine

/-! ### Completions owed late (R328, R338) -/

/-- The completion of a START, or a RELEASED completion, posted and no longer owed. A ring's disable has
detached it where there is no reference (R344). -/
def Chip.postLate (e : Env) (c : Chip) (ref : Option DescRef) (status : Nat) (info0 info1 : Option Nat) : Chip :=
  match ref with
  | none => c
  | some d =>
    match inst? 256 d.ring with
    | none => c
    | some r =>
      let c := c.onRing r fun g => { g with owedLate := g.owedLate - 1 }
      let c := if statusFails status then c.noteFailure r d.idx status else c
      c.postRef e ref status true info0 info1

/-- A descriptor that stays owed leaves the engine, which goes on to the next one (R331). -/
def Chip.owe (e : Env) (c : Chip) (r : Fin 256) : Chip :=
  (c.onRing r fun g => { g with cur := none, owedLate := g.owedLate + 1 }).look e r

/-- The lease of a layer that has ended, or has been disarmed: LOADED, or FREE with RELEASED where a release
was deferred (R85, R88). -/
def Chip.settleLease (e : Env) (c : Chip) (i : Fin 16) : Chip :=
  let l := c.hst.leases[i]
  if l.relPend then
    (c.onLease i fun _ => Lease.reset).postLate e l.relRef 0x4E (some i.val) none
  else c.onLease i fun l => { l with state := .loaded, start := none }

/-! ### START, ABORT, RELEASE (R84, R85, R338) -/

/-- The active epoch in ns (R40). -/
def Chip.epochNs (c : Chip) : Nat := c.rdPair Reg.TTU_EPOCH_SEC_ACT_LO * 1000000000 + c.rdn Reg.TTU_EPOCH_NS_ACT

/-- The start tick of R43: ceil((S − E) / (N × 1.25 ns)). -/
def Chip.startTick (c : Chip) (s : Nat) : Int := divup (((s : Int) - c.epochNs) * 4) (5 * (c.N : Int))

/-- An Ingot becomes ARMED: staging begins (R91) and its idle heads are woken (R249). -/
def Chip.arm (c : Chip) (i : Fin 16) (x : StartRef) (mask : BitVec 64) : Chip :=
  let c := c.onLease i fun l => { l with state := .armed, start := some x }
  let c := { c with scn := { c.scn with armed := some (i, Staging.reset) } }
  c.fillArmed.wakeHeads mask

/-- Whether a ring's report address lies outside its rights, or in a guarded range (R322, R336). -/
def Chip.reportCode (c : Chip) (r : Fin 256) (a : Nat) : Nat :=
  if !c.ringLoc r then 0
  else if (firstRefused (mayWrite reqHST) a 64).isSome then 0x45
  else if (firstRefused (fun y => (c.guardOf y).isNone) a 64).isSome then 0x46
  else 0

/-- A START descriptor. Where two conditions of R85 or R336 hold at once, which completion it gets is the model's: REGION
and LEASE_CONFLICT of the report address come before NO_LEASE and BUSY (DESIGN CHOICE, log entry 94), and ARMED_BUSY before
a missed start (DESIGN CHOICE, log entry 93). -/
def Chip.start (e : Env) (c : Chip) (r : Fin 256) (d : Desc) : Chip :=
  let ns := leAt d.bytes 16 4
  let rep := leAt d.bytes 24 8
  let now_ := c.ttu.index
  match inst? 16 (leAt d.bytes 4 1) with
  | none => c.finish e r d 0x41 none none
  | some i =>
    let l := c.hst.leases[i]
    if !d.clean [(4, 4), (8, 13), (16, 19), (24, 31)] ∨ 999999999 < ns ∨ rep % 64 ≠ 0 ∨ rep = 0 then
      c.finish e r d 0x41 none none
    else if c.reportCode r rep ≠ 0 then c.finish e r d (c.reportCode r rep) none none
    else
      match l.state, l.ingot with
      | .armed, _ => c.finish e r d 0x4C i.val now_
      | .running, _ => c.finish e r d 0x4C i.val now_
      | .loaded, some g =>
        let k := c.startTick (leAt d.bytes 8 6 * 1000000000 + ns)
        if c.scn.armed.isSome then c.finish e r d 0x49 i.val now_
        else if k ≤ now_ then c.finish e r d 0x4A i.val now_
        else (c.arm i ⟨some ⟨r.val, d.idx, d.irq⟩, rep, k.toNat⟩ g.headMask).owe e r
      | _, _ => c.finish e r d 0x47 none none

/-- An ARMED Ingot is disarmed: its START completes and its staged Billets are discarded. -/
def Chip.disarm (e : Env) (c : Chip) (status : Nat) (info0 info1 : Option Nat) : Chip :=
  match c.scn.armed with
  | none => c
  | some (i, _) =>
    let ref := (c.hst.leases[i]).start.bind (·.ref)
    let c := { c with scn := { c.scn with armed := none } }
    let c := if (c.hst.leases[i]).own then { c with reg := c.reg.map fun x => { x with ended := some 0x4D } } else c
    (c.postLate e ref status info0 info1).settleLease e i

/-- An ABORT accepted of the ARMED Ingot: its START carries LAYER_NO, and no first tick. -/
def Chip.abortArmed (e : Env) (c : Chip) : Chip :=
  match c.scn.armed with
  | none => c
  | some (i, _) => c.disarm e 0x4D (some (c.hst.leases[i]).layerNo) none

/-- Every shared Billet that has not ended becomes withheld, and its slot is freed (R86, R153). -/
def Layer.withholdShared (l : Layer) : Layer :=
  let left := l.shared.filter fun x => !x.state.ended
  { l.count .withheld left.length with
    shared := l.shared.map fun x => if x.state.ended then x else { x with state := .withheld }
    stage := { l.stage with pool := [] } }

/-- A head whose claims cease; an implicit jump toward a claimed Billet ends with them (R86, R154). -/
def Head.unclaim (h : Head) : Head :=
  if h.cur.any fun k => k.shared && !k.started then h.drop else { h with claims := [] }

/-- An ABORT accepted of the RUNNING layer in this tick (R85, R86). -/
def Chip.abortLayer (c : Chip) : Chip :=
  if !(c.scn.layer.any fun l => l.abortAt.isNone) then c
  else
    let c := c.onLayer fun l => { l.withholdShared with abortAt := some c.ttu.index }
    { c with hd := updAll c.hd fun _ (x : Head) => x.unclaim }.fillArmed

/-- An ABORT of any ARMED or RUNNING layer (R194, R196). -/
def Chip.abortAll (e : Env) (c : Chip) : Chip := (c.abortArmed e).abortLayer

/-! ### The end of a layer (R87, R88, R338) -/

/-- STATUS of a layer that ends. -/
def Layer.status (l : Layer) : Nat :=
  if l.abortAt.isSome then 0x4D else if l.exposed = l.ingot.dirCount then 0x00 else 0x4F

/-- Every Billet left by an abort is withheld (R86, R87), an own Billet that the abort has cut off too, which R87 does not
name (DESIGN CHOICE, log entry 92). -/
def Layer.withholdRest (l : Layer) : Layer :=
  if l.abortAt.isSome then { l with withheld := l.ingot.dirCount - l.exposed - l.skipped } else l

/-- The layer report (R338). -/
def layerReport (i : Nat) (l : Layer) : List Byte :=
  let b := leBytes 1 i ++ leBytes 1 l.status ++ leBytes 2 (b2n l.fallback) ++ leBytes 4 l.ingot.layerNo ++
    leBytes 8 l.first ++ leBytes 8 (l.tLast.getD l.first) ++ leBytes 4 l.exposed ++ leBytes 4 l.skipped ++
    leBytes 4 l.withheld ++ List.replicate 24 0
  b ++ leBytes 4 (crc32 b)

/-- The layer report written into the START's ring's address space. -/
def Chip.writeReport (e : Env) (c : Chip) (i : Nat) (l : Layer) (x : StartRef) : Chip :=
  match x.ref.bind fun d => inst? 256 d.ring with
  | some r => c.ringWrite e r x.report (layerReport i l)
  | none => c

/-- EMREL_A and EMREL_B de-assert, and PWR_EN with them (R193). -/
def Mpc.dropRelease (m : Mpc) : Mpc := { m with emrel := false, delayDone := false, emrelOff := none }

/-- The end of an orderly laser stop (R196). -/
def Chip.stopDone (c : Chip) : Chip :=
  if c.mpc.stopWait then
    (c.onMpc fun m => { m.dropRelease with stopping := false, stopWait := false }).sticky Reg.MPC_SAFETY_STATUS 0x1000
  else c

/-- The layer ends at its end boundary. -/
def Chip.endLayer (e : Env) (c : Chip) (l0 : Layer) : Chip :=
  let l := l0.withholdRest
  let i := l.lease
  let c := { c with scn := { c.scn with layer := none, points := [] }, hd := updAll c.hd fun _ (h : Head) => { h.drop with laser := false } }
  let c := (c.temperEnd c.ttu.index).stopDone
  let x := (c.hst.leases[i]).start
  let c := if (c.hst.leases[i]).own then { c with reg := c.reg.map fun y => 
        { y with ended := some l.status, begun := (l.stage.begun.toList).sum } } else c
  let c := match x with
    | some x => c.writeReport e i l x
    | none => c
  let c := c.raise blkSCN 0x004 .none (if l.status = 0 then sevINFO else sevWARN) i l.status l.ingot.layerNo
  let c := c.postLate e (x.bind (·.ref)) l.status (some l.ingot.layerNo) (some l.first)
  (c.settleLease e i).fillArmed

/-- The end boundary of the running layer has come (LAYER_END). -/
def Chip.takeLayerEnd (e : Env) (c : Chip) : Chip :=
  match c.scn.layer with
  | some l => if l.endAt.any (· ≤ c.ttu.index) then c.endLayer e l else c
  | none => c

/-! ### The start of a layer (R85, R81, R140, R163, R232) -/

/-- The shared Billets of a layer at its first tick; those skipped while the Ingot was ARMED have ended. -/
def startShared (g : Ingot) (skipped : List Nat) : List Shared :=
  g.shared.map fun b =>
    ⟨b, if skipped.contains b then .skipped else .pending, 0, 0, none, none⟩

/-- The layer of an Ingot at its first tick. -/
def startLayer (i : Fin 16) (g : Ingot) (s : Staging) (first : Nat) (fallback : Bool) (p : Plume) : Layer where
  lease := i
  ingot := g
  first := first
  tLast := none
  abortAt := none
  endAt := none
  exposed := 0
  skipped := s.skipped.length
  withheld := 0
  ownLeft := Vector.ofFn fun h : Fin 64 => ((g.lists.getD h []).filter fun b => !s.skipped.contains b).length
  lostHeads := 0
  fallback := fallback
  plume := p
  shared := startShared g s.skipped
  stage := s

/-- A head of HEAD_MASK at the first tick: link-down unless its snapshot found its lane ACTIVE (R47, R232); NO_LATTICE where it
has no READY active bank (R140). -/
def Chip.startHead (c : Chip) (h : Fin 64) : Chip :=
  let c := if c.hd[h].bank.isReady then c else c.flag (Reg.SCN_FIELD_FLAGS h) (.head h) 0x10 0
  if (c.lane[headLane h]).state = .active ∧ !(c.hd[h]).down then c else c.headDown h

/-- A registration run takes what R147 holds its measurements against: each head's nominal matrix and drift, and the command
of every visit (DESIGN CHOICE, log entry 4: as the run's layer starts). -/
def Chip.regStart (c : Chip) : Chip :=
  let cal (h : Fin 64) : HeadCal :=
    let k := c.hd[h].bank
    let d := c.drift h
    ⟨[k.m00, k.m01, k.m10, k.m11], [d.ox, d.oy, d.a, d.b, d.c, d.d]⟩
  { c with reg := c.reg.map fun x => { x with
      cals := (List.finRange 64).map cal
      visits := x.visits.map fun v =>
        match inst? 64 v.head with
        | some h =>
          let g := (c.hd[h].bank).correct ⟨0, 0, 0, 0, 0, 0⟩ ⟨16 * v.at_.x, 16 * v.at_.y, 0⟩
          { v with gx := g.x, gy := g.y }
        | none => v } }

/-- A layer begins in the current tick. -/
def Chip.beginLayer (e : Env) (c : Chip) (i : Fin 16) (s : Staging) (g : Ingot) : Chip :=
  let t := c.ttu.index
  let c := c.onLease i fun l => { l with state := .running }
  let c := if (c.hst.leases[i]).own then c.regStart else c
  let (c, fallback) := c.temperStart e g t
  let c := { c with scn := { c.scn with
    armed := none, layerNo := g.layerNo, tick0 := t, layer := some (startLayer i g s t fallback c.plumeNow) } }
  let c := c.raise blkSCN 0x003 .none (if fallback then sevWARN else sevINFO) i (b2n fallback) g.layerNo
  let c := c.headList.foldl (fun (c : Chip) (h : Fin 64) => if g.headMask.getLsbD h then c.startHead h else c) c
  c.fillLayer.offer

/-- The start boundary of the ARMED Ingot has come (LAYER_START): the layer begins, or its START has missed. -/
def Chip.takeLayerStart (e : Env) (c : Chip) : Chip :=
  match c.scn.armed with
  | none => c
  | some (i, s) =>
    match (c.hst.leases[i]).start, (c.hst.leases[i]).ingot with
    | some x, some g =>
      if x.tick ≤ c.ttu.index ∧ c.ttu.inTick then
        if x.tick = c.ttu.index ∧ c.ttu.lock ∧ c.scn.layer.isNone then c.beginLayer e i s g
        else c.disarm e 0x4A (some i.val) (some c.ttu.index)
      else c
    | _, _ => c

/-- A layer's end and then a layer's start at the present boundary, where either is due and not yet taken. -/
def Chip.takeLayers (e : Env) (c : Chip) : Chip := (c.takeLayerEnd e).takeLayerStart e

/-- An ABORT descriptor (R84, R85). -/
def Chip.abort (e : Env) (c : Chip) (r : Fin 256) (d : Desc) : Chip :=
  let t := c.ttu.index
  match inst? 16 (leAt d.bytes 4 1) with
  | none => c.finish e r d 0x41 none none
  | some i =>
    if !d.clean [(4, 4)] then c.finish e r d 0x41 none none
    else
      match (c.hst.leases[i]).state with
      | .armed => (c.abortArmed e).finish e r d 0x4D i.val t
      | .running => c.abortLayer.finish e r d 0x4D i.val t
      | .loaded => c.finish e r d 0x48 i.val none
      | _ => c.finish e r d 0x47 i.val none

/-- A RELEASE descriptor (R84, R85, R88). -/
def Chip.release (e : Env) (c : Chip) (r : Fin 256) (d : Desc) : Chip :=
  match inst? 16 (leAt d.bytes 4 1) with
  | none => c.finish e r d 0x41 none none
  | some i =>
    if !d.clean [(4, 4)] then c.finish e r d 0x41 none none
    else
      let l := c.hst.leases[i]
      match l.state with
      | .loaded => (c.onLease i fun _ => Lease.reset).finish e r d 0x00 i.val none
      | .free => c.finish e r d 0x47 i.val none
      | .loading => c.finish e r d 0x47 i.val none
      | _ =>
        if l.relPend then c.finish e r d 0x4B i.val none
        else
          let c := c.onLease i fun l => { l with relPend := true, relRef := some ⟨r.val, d.idx, d.irq⟩ }
          (c.post e r ⟨d.idx, 0x4B, d.irq, false, some i.val, none⟩).owe e r

/-! ### Staging (R90 to R92) -/

/-- A slot receives its records; the next snapshot finds it ready (R47). -/
def Slot.fill (b : Nat) (recs : List Byte) (x : Slot) : Slot :=
  if x.billet = b then { x with arrived := true, recs := recs } else x

def Staging.fill (g : Staging) (b : Nat) (recs : List Byte) : Staging :=
  { g with queues := updAll g.queues fun _ q => q.map (Slot.fill b recs), pool := g.pool.map (Slot.fill b recs) }

/-- A Billet that waits in a slot for its records. -/
def Staging.awaits (g : Staging) (b : Nat) : Bool :=
  g.pool.any (fun x => x.billet == b && !x.arrived) || g.queues.toList.any fun q => q.any fun x => x.billet == b && !x.arrived

/-- A Billet skipped while its Ingot is ARMED. -/
def Staging.skip (g : Staging) (b : Nat) : Staging :=
  { g with
    queues := updAll g.queues fun _ q => q.filter (·.billet != b)
    pool := g.pool.filter (·.billet != b)
    skipped := g.skipped ++ [b] }

/-- The pipeline whose camera sees a visit's fiducial. -/
def RegRun.camOf (x : RegRun) (v : Visit) : Nat := (x.fids[v.fid]?.map (·.cam)).getD 16

/-- Whether a visit's spot may be made, as far as an earlier visit `k` of the same camera goes: that one has ended, or its
head is lost, and the camera has begun a frame since, so that no frame shows two spots (R146). -/
def Chip.visitPast (c : Chip) (x : RegRun) (lost : BitVec 64) (v : Visit) (k : Nat) : Bool :=
  match x.done.find? (·.1 == k) with
  | some d =>
    match inst? 16 (x.camOf v) with
    | some p => (c.cam[p]).state = .off || (c.cam[p]).state = .ident || decide (d.2 < (c.cam[p]).seq)
    | none => true
  | none => lost.getLsbD v.head

/-- Billet b may be staged: in a registration run, no earlier visit of its camera stands in its way. -/
def Chip.visitFree (c : Chip) (i : Fin 16) (lost : BitVec 64) (b : Nat) : Bool :=
  !(c.hst.leases[i]).own ||
    match c.reg with
    | none => true
    | some x =>
      let mine := (x.visits[b]?.map x.camOf).getD 16
      (x.visits.take b).zipIdx.all fun (v, k) => x.camOf v != mine || c.visitPast x lost v k

/-- A staged Billet's records arrive (R91, R92): what they are, or the SCN_BILLET_ERR bit of the skip. -/
def Chip.stageRead (e : Env) (c : Chip) (g : Ingot) (b : Billet) : Chip × Except Nat (List Byte) :=
  let (c, d) := c.dramRead e reqStaging (g.base + b.off) (32 * b.count)
  if !d.ok then (c, .error beUE)
  else if crc32 d.bytes ≠ b.crc then (c, .error beCRC)
  else (c, .ok d.bytes)

/-- SLOT_READY for a Billet of the ARMED Ingot. -/
def Chip.slotArmed (e : Env) (c : Chip) (i : Fin 16) (b : Nat) (inst : Billet → Nat) : Chip :=
  match c.scn.armed, (c.hst.leases[i]).ingot with
  | some (k, g), some ing =>
    match ing.dir[b]? with
    | some x =>
      if k = i ∧ g.awaits b ∧ c.visitFree i 0 b then
        let (c, res) := c.stageRead e ing x
        match res with
        | .ok bs => { c with scn := { c.scn with armed := some (k, g.fill b bs) } }.tally blkSCN 0x14 (inst x) 1
        | .error bit_ => ({ c with scn := { c.scn with armed := some (k, g.skip b) } }.noteSkip b bit_).fillArmed
      else c
    | none => c
  | _, _ => c

/-- SLOT_READY for a Billet of the running layer, or of the ARMED Ingot. -/
def Chip.slotReady (e : Env) (c : Chip) (i : Fin 16) (b : Nat) : Chip :=
  let inst (x : Billet) : Nat := if x.kind = 0 then x.headA else 0
  match c.scn.layer with
  | some l =>
    if l.lease = i then
      match l.ingot.dir[b]? with
      | none => c
      | some x =>
        if !l.stage.awaits b || !c.visitFree i l.lostHeads b then c
        else
          let (c, res) := c.stageRead e l.ingot x
          match res with
          | .ok bs => (c.onLayer fun l => { l with stage := l.stage.fill b bs }).tally blkSCN 0x14 (inst x) 1
          | .error bit_ =>
            let c := c.noteSkip b bit_
            match inst? 64 x.headA with
            | some h => if x.kind = 0 then c.endOwn h b .skipped else c.endShared b .skipped
            | none => c
    else c.slotArmed e i b inst
  | none => c.slotArmed e i b inst

end Sys2Proof.Machine
end

