-- ==== Sys2Proof/Machine/Estop.lean ====
section
/-! DEFINITION. Emission release, ESTOP, the emission watchdog and the orderly laser stop (R193 to R196), the
power-fail sequence (R369, R414, R440) and the thermal manager (R442). -/

namespace Sys2Proof.Machine

/-! ### MPC_SAFETY_STATUS (R193, R197) -/

def sfESTOP_LATCH : Nat := 0x100
def sfESTOP_DISC : Nat := 0x200
def sfWDOG_EXP : Nat := 0x400
def sfTICKMON_EXP : Nat := 0x800
def sfSTOP_DONE : Nat := 0x1000

/-- REQ of MPC_EMREL_CTRL. -/
def Chip.emReq (c : Chip) : Bool := c.bit Reg.MPC_EMREL_CTRL 0

/-- None of ESTOP_LATCH, ESTOP_DISC, WDOG_EXP and TICKMON_EXP is set. -/
def Chip.noLatch (c : Chip) : Bool := c.fld Reg.MPC_SAFETY_STATUS 11 8 == 0

/-- WDOG_EXP is set. -/
def Chip.wdogExpired (c : Chip) : Bool := c.bit Reg.MPC_SAFETY_STATUS 10

/-- Every condition of R193 but the last. While the de-assertion that a clear of REQ has begun is still to
come, the release is not asserted anew (DEDUCED, log entry 19). -/
def Chip.mayRelease (c : Chip) : Bool :=
  c.emReq && c.mpc.estopA && c.mpc.estopB && c.mpc.armed && !c.wdogExpired && c.noLatch && !c.mpc.stopping &&
    c.mpc.emrelOff.isNone

/-- PWR_EN (R193). -/
def Chip.pwrEn (c : Chip) : Bool := c.mayRelease && c.mpc.emrel && c.mpc.delayDone

/-- MPC_SAFETY_STATUS as read. -/
def Chip.safetyStatus (c : Chip) : Nat :=
  let m := c.mpc
  b2n m.estopA + 2 * b2n m.estopB + 4 * b2n m.emrel + 8 * b2n m.emrel + 16 * b2n c.pwrEn +
    32 * b2n (m.armed && !c.wdogExpired) + 2 ^ 8 * c.fld Reg.MPC_SAFETY_STATUS 12 8

/-- REQ cleared by the device. -/
def Chip.clearReq (c : Chip) : Chip := c.clearBits Reg.MPC_EMREL_CTRL 0x1

/-- A write of MPC_EMREL_CTRL (R193). Clearing REQ with the release asserted de-asserts it at the boundary three
ticks after the next one. -/
def Chip.emrelCtrl (c : Chip) (v : Nat) : Chip :=
  let was := c.emReq
  let c := c.wrn Reg.MPC_EMREL_CTRL v
  if was && !c.emReq && c.mpc.emrel && c.mpc.emrelOff.isNone then c.onMpc fun m => { m with emrelOff := some 4 } else c

/-- The release at the boundary that opens a tick: a pending de-assertion, the end of a laser stop with no layer
running, a new assertion, no earlier than the boundary after a de-assertion; and whether the tick begins with PWR_EN = 1 (R193, R196). -/
def Chip.openRelease (c : Chip) : Chip :=
  let falls := c.mpc.emrelOff == some 1
  let c := c.onMpc fun m =>
    match m.emrelOff with
    | some 1 => m.dropRelease
    | some (n + 1) => { m with emrelOff := some n }
    | _ => m
  let c := if c.scn.layer.isNone then c.stopDone else c
  let c := if c.mayRelease && !c.mpc.emrel && !falls then
      c.onMpc fun m => { m with emrel := true, delayDone := c.fld Reg.MPC_EMREL_CTRL 15 8 == 0 }
    else c
  c.onMpc fun m => { m with pwrTick := c.pwrEn }

/-- EMREL_DELAY_ELAPSED (R193). -/
def Chip.emrelDelayed (c : Chip) : Chip :=
  if c.mpc.emrel && c.mpc.emrelOff.isNone then c.onMpc fun m => { m with delayDone := true } else c

/-! ### ESTOP and the watchdog (R194, R195, R276) -/

/-- What an ESTOP and an expiry do (R194): EMREL de-asserts, the latch is set, REQ clears, power is 0 in this
tick, any ARMED or RUNNING layer is aborted, and moving axes stop (R276). -/
def Chip.safetyStop (e : Env) (c : Chip) (latch : Nat) : Chip :=
  let c := c.onMpc fun m => { m.dropRelease with pwrTick := false }
  ((c.clearReq.flag Reg.MPC_SAFETY_STATUS .none latch 0).abortAll e).estopAxes

/-- The levels of the two ESTOP inputs after a change of either (R194). -/
def Chip.estopPins (e : Env) (c : Chip) (a b : Bool) : Chip :=
  let left := (c.mpc.estopA && !a) || (c.mpc.estopB && !b)
  let c := c.onMpc fun m => { m with estopA := a, estopB := b }
  if left then c.safetyStop e sfESTOP_LATCH else c

/-- ESTOP_DISC: the inputs have disagreed for longer than DISC_TIME (R194). -/
def Chip.estopDisc (c : Chip) : Chip :=
  if c.mpc.estopA != c.mpc.estopB then c.flag Reg.MPC_SAFETY_STATUS .none sfESTOP_DISC 0 else c

/-- A write of MPC_WDOG_CFG while ARM is 0 (R195). -/
def Chip.wdogCfg (c : Chip) (v : Nat) : Chip :=
  let c := c.wrn Reg.MPC_WDOG_CFG v
  if bitOf v 31 then c.onMpc fun m => { m with armed := true, kickA := true } else c

/-- WDOG_EXP (R195). -/
def Chip.wdogExpire (e : Env) (c : Chip) : Chip :=
  if c.mpc.armed && !c.wdogExpired then c.safetyStop e sfWDOG_EXP else c

/-- TICKMON_EXP (R195). -/
def Chip.tickmonExpire (e : Env) (c : Chip) : Chip := if c.mpc.armed then c.safetyStop e sfTICKMON_EXP else c

/-- A write of MPC_WDOG_KICK (R195). -/
def Chip.wdogKick (e : Env) (c : Chip) (v : Word) : Chip :=
  if !c.mpc.armed || c.wdogExpired then c
  else if v = (if c.mpc.kickA then 0x0000A55A#32 else 0x00005AA5#32) then c.onMpc fun m => { m with kickA := !m.kickA }
  else c.wdogExpire e

/-- A write of MPC_SAFETY_STATUS: its W1C bits, where ESTOP_LATCH and ESTOP_DISC clear only while both inputs are
healthy (R194), and clearing WDOG_EXP restarts the watchdog (R195). -/
def Chip.safetyClear (c : Chip) (v : Nat) : Chip :=
  let stuck := if c.mpc.estopA && c.mpc.estopB then 0 else sfESTOP_LATCH + sfESTOP_DISC
  let was := c.wdogExpired
  let c := c.clearBits Reg.MPC_SAFETY_STATUS (v % 2 ^ 13 / 2 ^ 8 * 2 ^ 8 - (v % 2 ^ 13 &&& stuck))
  if was && !c.wdogExpired then c.onMpc fun m => { m with kickA := true } else c

/-! ### The orderly laser stop (R196) -/

/-- A request for an orderly laser stop. -/
def Chip.laserStop (e : Env) (c : Chip) : Chip :=
  (c.clearReq.abortAll e).onMpc fun m => { m with stopping := true, stopWait := true }

/-! ### Power fail (R369, R414, R440) -/

/-- The power-fail flush begins (R414); one that begins before CLR_NOR has erased sector 0 writes nothing (R420). -/
def Chip.pfFlushBegin (e : Env) (c : Chip) : Chip :=
  let c := c.queueEvents.onEvr fun v => { v with pfFlush := true, pfWritten := 0, pfAt := c.ttu.up }
  let c := (Chip.drain e 512 c).commitOpens e
  if c.evr.clrNor && !c.evr.isErased 0 then c.pfEnd
  else (c.onEvr fun v => { v with flushing := true }).flushStep e

/-- The power-fail sequence begins (R369): the laser stop, the axis stops, the PFAIL record and the flush. Its
end is the module reset. -/
def Chip.powerFail (e : Env) (c : Chip) : Chip :=
  if c.svc.pfail then c
  else
    let c := { c with svc := { c.svc with pfail := true } }
    let c := (c.laserStop e).stopAxes
    (c.raise blkMON 0x008 .none sevCRITICAL (clockNs c.ttu.lcl % 1000000000) 0 0).pfFlushBegin e

/-! ### The thermal manager (R442) -/

/-- Threshold of a level in 1/16 °C. -/
def Chip.thermThreshold (c : Chip) (k : Nat) : Int :=
  16 * (match k with
    | 1 => c.fld Reg.MON_THERM_CFG 7 0
    | 2 => c.fld Reg.MON_THERM_CFG 15 8
    | 3 => 100
    | _ => 105 : Nat)

/-- The highest level whose threshold TMAX has reached. -/
def Chip.thermReached (c : Chip) (t : Int) : Nat :=
  ([4, 3, 2, 1].find? fun k => decide (c.thermThreshold k ≤ t)).getD 0

/-- The level after an evaluation: a rise at once, a fall one level at a time, with HYST. -/
def Chip.thermNext (c : Chip) (t : Int) (level : Nat) : Nat :=
  let r := c.thermReached t
  if level < r then r
  else if 0 < level ∧ t < c.thermThreshold level - 16 * (c.fld Reg.MON_THERM_CFG 19 16 : Nat) then level - 1
  else level

/-- THERMAL_EVALUATION (R442). The stop of level 4 is requested when the level is entered, and again where REQ
has been set or a layer armed since (DEDUCED, log entry 20). -/
def Chip.thermEvaluate (e : Env) (c : Chip) : Chip :=
  let was := c.fld Reg.MON_STATUS 2 0
  let k := c.thermNext (signOf 16 (c.fld Reg.MON_STATUS 31 16)) was
  let c := (c.setFld Reg.MON_STATUS 2 0 k).setFld Reg.CAM_GLB_STATUS 0 0 (b2n (1 ≤ k))
  let bits := (if 1 ≤ k then nfTHERM_FF else 0) + (if 2 ≤ k then nfTHERM_DSP else 0) + (if 3 ≤ k then nfTHERM_REQ else 0) +
    (if 4 ≤ k then nfTHERM_STOP else 0)
  let c := c.sticky Reg.MON_FLAGS bits
  let c := if was < 3 ∧ 3 ≤ k then c.raise blkMON 0x000 .none sevERROR Reg.MON_FLAGS nfTHERM_REQ 0 else c
  if 4 ≤ k ∧ (was < 4 ∨ c.emReq ∨ c.scn.layer.isSome ∨ c.scn.armed.isSome) then c.laserStop e else c

end Sys2Proof.Machine
end

