-- ==== Sys2Proof/Machine/Crucible.lean ====
section
/-! DEFINITION. Crucible as its units read it (R311 to R313): its layout, single-bit errors corrected, and the response to
an uncorrectable word. -/

namespace Sys2Proof.Machine

/-! ### Layout (R312) -/

/-- Words of Crucible. -/
def crbWords : Nat := 48 * 2 ^ 17

/-- The region of a Crucible offset and where the region begins (R312). -/
def crbRegion (o : Nat) : Nat × Nat :=
  if o < 0xC00000 then (0, 0)
  else if o < 0x1480000 then (1, 0xC00000)
  else if o < 0x1C80000 then (2, 0x1480000)
  else if o < 0x2080000 then (3, 0x1C80000)
  else if o < 0x2280000 then (4, 0x2080000)
  else if o < 0x2480000 then (5, 0x2280000)
  else if o < 0x2580000 then (6, 0x2480000)
  else (7, 0x2580000)

/-- A slot of a staging by its number. -/
def Staging.slotNo (g : Staging) (n : Nat) : Option Nat :=
  ((g.pool ++ g.queues.toList.flatten).find? fun s => s.slot == n && s.arrived).map (·.billet)

/-- A head ends its Billet at the point reached, with the laser off from u = 0 of the tick in progress; where it was on, what
follows begins at a boundary after that edge (R92, R104, R118). -/
def Head.stop (x : Head) : Head :=
  { x.endRun with
    cur := none, expo := none, relight := false, edges := if x.laser then [(0, false)] else []
    wait := if x.laser then 1 else 0, waitKind := if x.laser then .settle else .none }

/-- A head that works on a Billet ends it at the point reached (R92). -/
def Chip.stopBillet (c : Chip) (b : Nat) : Chip :=
  { c with hd := updAll c.hd fun _ (x : Head) => if x.cur.any (·.billet == b) then x.stop else x }

/-- A staged Billet whose slot has lost a word is skipped (R92, R313). -/
def Chip.skipStaged (c : Chip) (l : Layer) (b : Nat) : Chip :=
  match l.ingot.dir[b]? with
  | none => c
  | some x =>
    let c := (c.noteSkip b beUE).stopBillet b
    let c := { c with hd := updAll c.hd fun _ h => { h with claims := h.claims.filter fun y => y.1 != b } }
    match inst? 64 x.headA with
    | some h => if x.kind = 0 then c.endOwn h b .skipped else c.endShared b .skipped
    | none => c

/-- An uncorrectable staging word (R313). -/
def Chip.stagingUE (c : Chip) (slot : Nat) : Chip :=
  match c.scn.layer.bind fun l => (l.stage.slotNo slot).map fun b => (l, b) with
  | some (l, b) => c.skipStaged l b
  | none =>
    match c.scn.armed with
    | some (i, g) =>
      match g.slotNo slot with
      | some b => ({ c with scn := { c.scn with armed := some (i, g.skip b) } }.noteSkip b beUE).fillArmed
      | none => c
    | none => c

/-- An uncorrectable word of a lattice bank that scrub finds (R143). -/
def Chip.bankUE (c : Chip) (o : Nat) : Chip :=
  let k := o / 68704
  match inst? 64 (k / 2), inst? 2 (k % 2) with
  | some h, some b =>
    if !(c.hd[h].banks[b]).isReady then c
    else
      let node := (o % 68704 - 2112) / 4
      let c := c.bankFailed h b node
      if b = c.hd[h].active then c.onHead h fun x => { x with latDue := some (c.ttu.index + 1, node) } else c
  | _, _ => c

/-- The history entry at an offset into its region is lost: that of one head and one tick. How the entries lie in the region
is the device's own (DESIGN CHOICE, log entry 27): head by head, 8,192 ticks each. -/
def CamShared.loseEntry (k : CamShared) (o : Nat) : CamShared :=
  { k with hist := k.hist.map fun x =>
      if x.1 % 8192 = o / 16 % 8192 then (x.1, x.2.zipIdx.map fun y => if y.2 = o / 131072 then none else y.1) else x }

/-- The response to an uncorrectable word (R313), at an offset into its region. A word of the scratchpad faults the load
that reads it, and a word of a ring cache is fetched again. -/
def Chip.crbUE (e : Env) (c : Chip) (region o : Nat) (both : Bool) : Chip :=
  match region with
  | 0 => c.stagingUE (o / 8192)
  | 1 => c.bankUE o
  | 2 => { c with camShared := c.camShared.loseEntry o }
  | 3 =>
    match inst? 16 (o / 262144) with
    | some p => c.onCam p fun k => { k with
        frame := k.frame.map fun f => { f with damaged := true }
        closed := k.closed.map fun f => { f with damaged := true } }
    | none => c
  | 5 => if both then (c.flag Reg.CRB_FLAGS .none 0x4 0).laserStop e else c
  | 6 => if both then (c.flag Reg.CRB_FLAGS .none 0x4 0).laserStop e else c
  | _ => c

/-- A word of Crucible that its unit or scrub reads, by its byte offset (R28, R311, R313): a single-bit error is corrected,
written back, counted and reported; an uncorrectable word is recorded and answered as its region asks. -/
def Chip.crbMeet (e : Env) (c : Chip) (o : Nat) (w : CrbWord) : Chip :=
  let (region, base) := crbRegion o
  let info := o % 2 ^ 26 + 2 ^ 26 * region
  match w with
  | .ok => c
  | .ce => ((c.bump Reg.CRB_CE_CNT).wrn Reg.CRB_ERR_ADDR info).flag Reg.CRB_FLAGS .none 0x1 0
  | .ue => (c.crbNote info).crbUE e region (o - base) false
  | .bothUe => (c.crbNote info).crbUE e region (o - base) true

/-- Words that units have read with an error, in the order of their reads. -/
def Chip.crbReads (e : Env) (c : Chip) (l : List CrbRead) : Chip :=
  l.foldl (fun c x => if x.word < crbWords then c.crbMeet e (8 * x.word) x.found else c) c

end Sys2Proof.Machine
end

