-- ==== Sys2Proof/Machine/Pmc.lean ====
section
/-! DEFINITION. Performance counters (R421 to R426): selections, counting at tick boundaries, snapshots,
freezes and wraps. -/

namespace Sys2Proof.Machine

/-- An enabled counter: its block, number, EVSEL and INST. -/
structure Counter where
  blk : Nat
  num : Nat
  sel : Nat
  inst : Nat
  deriving DecidableEq, Repr

/-- The counter whose PMC_CNT_CFG lies at an offset, if it is enabled. -/
def counterAt (x : Nat × Word) : Option Counter :=
  let d := x.1 - 0x141000
  let v := x.2.toNat
  if 0x141000 ≤ x.1 ∧ x.1 < 0x143600 ∧ d % 0x200 < 0x40 ∧ bitOf v 16 then
    some ⟨d / 0x200, d % 0x200 / 4, bitsOf v 7 0, bitsOf v 15 8⟩
  else none

/-- The enabled counters. -/
def Chip.counters (c : Chip) : List Counter := c.regs.filterMap counterAt

/-- How many instances a block has (R1, R405). -/
def Chip.instances (c : Chip) (blk : Nat) : Nat :=
  [1, 1, c.heads, c.heads, 128, 16, 76, 2, 1, 256, 4, 4, 2, 8, 24, 1, 1, 1, 1].getD blk 0

/-- Whether a counter names every unit, or one that its block has. -/
def Chip.namesInst (c : Chip) (k : Counter) : Bool := k.inst == 0xFF || decide (k.inst < c.instances k.blk)

/-- Occurrences whose number the implementation decides: clock cycles, fabric traffic, Crucible stalls, DRAM
activations, row hits and throttle delay, and the core counts of SVC (R422). They are free values (log entry 21). -/
def freeSel (blk sel : Nat) : Bool :=
  sel == 1 || (4 ≤ sel && sel ≤ 9) ||
  (blk == blkDRC && (sel == 0x10 || sel == 0x11 || sel == 0x13)) || (blk == blkSVC && 0x10 ≤ sel && sel ≤ 0x13)

/-- A counter raised, wrapping modulo 2^48 (R421). -/
def Chip.count (c : Chip) (k : Counter) (n : Nat) : Chip :=
  let a := Reg.PMC_CNT_LO k.blk k.num
  let x := c.rdPair a + n
  let c := c.wrPair a (x % 2 ^ 48)
  if 2 ^ 48 ≤ x then c.flag (Reg.PMC_OVF k.blk) .none (2 ^ k.num) 0 else c

/-- The occurrences that wait for a counter. -/
def Chip.waitingFor (c : Chip) (k : Counter) : Nat :=
  ((c.pmcPend.filter fun x => x.1 == k.blk && x.2.1 == k.sel && (k.inst == 0xFF || k.inst == x.2.2.1)).map fun x => x.2.2.2).sum

/-- Every occurrence that waits is counted. -/
def Chip.countPending (c : Chip) : Chip :=
  let todo := c.counters.map fun k => (k, c.waitingFor k)
  let c := { c with pmcPend := [] }
  todo.foldl (fun c x => if x.2 = 0 then c else c.count x.1 x.2) c

/-- The boundary itself, and what the implementation has counted since the last one. -/
def Chip.countTick (c : Chip) : Chip :=
  c.counters.foldl (fun c k =>
    if !c.namesInst k then c
    else if k.sel = 2 then c.count k 1
    else if freeSel k.blk k.sel then
      let (n, c) := c.draw 32
      c.count k n
    else c) c

/-- The snapshot of every counter (R424). -/
def Chip.snapCounters (c : Chip) (t : Nat) : Chip :=
  let c := (List.range 19).foldl (fun c b => (List.range 16).foldl (fun (c : Chip) i =>
    c.wrPair (Reg.PMC_SNAP_LO b i) (c.rdPair (Reg.PMC_CNT_LO b i))) c) c
  (c.wrPair Reg.PMC_SNAP_TICK_LO t).clearBits Reg.PMC_CTRL 0x2

/-- The counters at the boundary of tick t (R424, R425). -/
def Chip.pmcBoundary (c : Chip) (t : Nat) : Chip :=
  let c := if c.frozen then { c with pmcPend := [] } else c.countPending.countTick
  let c := if c.bit Reg.PMC_CTRL 1 then c.snapCounters t else c
  { c with frozen := c.bit Reg.PMC_CTRL 0 }

/-- COUNTER_WRAP: the occurrences that wait make a counter wrap, and are counted. -/
def Chip.counterWrap (c : Chip) (b i : Nat) : Chip :=
  match c.counters.find? fun k => k.blk == b && k.num == i with
  | some k =>
    if !c.frozen && decide (2 ^ 48 ≤ c.rdPair (Reg.PMC_CNT_LO b i) + c.waitingFor k) then c.countPending else c
  | none => c

/-- PMC_STATUS and PMC_OVF_SUM as read. -/
def Chip.pmcStatus (c : Chip) : Nat := b2n (c.bit Reg.PMC_CTRL 1) + 2 * b2n c.frozen

def Chip.ovfSum (c : Chip) : Nat :=
  ((List.range 19).map fun b => if c.rdn (Reg.PMC_OVF b) = 0 then 0 else 2 ^ b).sum

end Sys2Proof.Machine
end

