-- ==== Sys2Proof/Machine/Register.lean ====
section
/-! DEFINITION. Lattice loads (R129, R130, R141) and registration runs (R144 to R149, R340). -/

namespace Sys2Proof.Machine

/-! ### LATTICE_LOAD (R141) -/

/-- Whether a bank may not be loaded: active, LOADING, or named by a shadow selection that differs from the
active one. -/
def Chip.bankBusy (c : Chip) (h : Fin 64) (b : Fin 2) : Bool :=
  let x := c.hd[h]
  x.active == b || x.banks[b].state == .loading ||
    (c.fld (Reg.SCN_LAT_SEL h) 0 0 == b.val && b != x.active)

/-- A LATTICE_LOAD descriptor: refused at once, or the bank is LOADING. -/
def Chip.latticeLoad (e : Env) (c : Chip) (r : Fin 256) (d : Desc) : Chip :=
  let a := leAt d.bytes 8 8
  match inst? 64 (leAt d.bytes 4 1), inst? 2 (leAt d.bytes 5 1) with
  | some h, some b =>
    if !d.clean [(4, 5), (8, 15)] then c.finish e r d 0x41 none none
    else if !c.headOn h then c.finish e r d 0x01 none none
    else if c.bankBusy h b then c.finish e r d 0x02 none none
    else if a % 32 ≠ 0 ∨ 2 ^ 35 < a + imageLen then c.finish e r d 0x03 none none
    else
      let c := { c with scn := { c.scn with loads := c.scn.loads ++ [(⟨r.val, h, b, a, true, true⟩ : LatLoad)] } }
      (c.onHead h fun x => x.onBank b fun _ => ⟨.loading, []⟩).await r d (.lattice h b)
  | _, _ => c.finish e r d 0x41 none none

/-- A LATTICE_LOAD taken from those that copy; its descriptor, where it still waits, completes. -/
def Chip.latticeEnd (e : Env) (c : Chip) (r : Fin 256) (x : LatLoad) (code : Nat) : Chip :=
  let c := { c with scn := { c.scn with loads := c.scn.loads.erase x } }
  match (c.ring r).cur with
  | some ⟨d, .lattice _ _⟩ => if x.owned then c.finish e r d code none none else c
  | _ => c

/-- The copy of a ring's oldest LATTICE_LOAD ends (LATTICE_LOAD_COMPLETE): the bank is checked (R130, R141). A bank that
SCN reset has emptied meanwhile stays EMPTY and its load ends ABORTED (DEDUCED, log entry 17). -/
def Chip.latticeDone (e : Env) (c : Chip) (r : Fin 256) : Chip :=
  match c.scn.loads.find? (·.ring == r.val) with
  | none => c
  | some x =>
    if !x.live then c.latticeEnd e r x 0x4D
    else
      let refused := (firstRefused (mayRead reqLattice) x.addr imageLen).isSome
      let (c, d) := c.dramRead e reqLattice x.addr imageLen
      let code := if refused then 0x45 else if !d.ok then 0x04 else imageCode d.bytes
      let k : Bank := if code = 0 then ⟨.ready, d.bytes⟩ else ⟨.empty, []⟩
      (c.onHead x.head fun y => y.onBank x.bank fun _ => k).latticeEnd e r x code

/-! ### The parameters and the table (R145, R340) -/

/-- The parameters of a registration run (R144, R340). -/
structure RegParams where
  table : Nat
  result : Nat
  heads : BitVec 64
  poseX : Int
  poseY : Int
  rot : Int
  power : Nat
  dwell : Nat
  target : Nat
  deriving DecidableEq, Repr

/-- A parameter block that passes its CRC, its reserved bytes and its alignments. -/
def regParams (b : List Byte) : Option RegParams :=
  let p : RegParams := ⟨leAt b 0 8, leAt b 8 8, BitVec.ofNat 64 (leAt b 16 8), leSAt b 24 4, leSAt b 28 4, leSAt b 32 4,
    leAt b 36 2, leAt b 40 4, leAt b 44 4⟩
  if leAt b 60 4 = crc32 (b.take 60) ∧ zeroAt b 38 39 ∧ zeroAt b 48 59 ∧ p.table % 32 = 0 ∧ p.result % 32 = 0 ∧
      p.table < 2 ^ 35 ∧ p.result < 2 ^ 35 then some p
  else none

/-- A table entry. -/
def fiducialOf (b : List Byte) : Fiducial := ⟨leAt b 0 4, leSAt b 4 4, leSAt b 8 4, leAt b 12 2, leAt b 14 1⟩

/-- COUNT of a table's header, where the header can stand. -/
def tableCount (h : List Byte) : Option Nat :=
  let n := leAt h 4 4
  if leAt h 0 4 = 0x4446584D ∧ 2 ≤ n ∧ n ≤ 4096 ∧ zeroAt h 12 27 then some n else none

/-- The entries of a table that passes R145. -/
def tableEntries (h es : List Byte) : Option (List Fiducial) :=
  let raws := chunks 32 es
  if leAt h 28 4 = crc32 (h.take 28 ++ es) ∧ raws.all fun r => zeroAt r 15 31 && decide (leAt r 14 1 < 16) then
    some (raws.map fiducialOf)
  else none

/-! ### Placing (R146) -/

/-- Sine and cosine sums of an angle t, in 2^-256: the Taylor series from term k on. -/
def taylor : Nat → Nat → Int → Int → Int × Int
  | 0, _, _, _ => (0, 0)
  | n + 1, k, t, x =>
    let (s, c) := taylor n (k + 1) t (asr (x * t) 256 / (k + 1 : Nat))
    match k % 4 with
    | 0 => (s, c + x)
    | 1 => (s + x, c)
    | 2 => (s, c - x)
    | _ => (s - x, c)

/-- Angle doublings. -/
def doubleAngle : Nat → Int × Int → Int × Int
  | 0, p => p
  | n + 1, (s, c) => doubleAngle n (asr (2 * s * c) 256, 2 ^ 256 - asr (2 * s * s) 256)

/-- Sine and cosine of an angle in µrad, in 2^-256, far finer than the LSB that R146 rounds to. -/
def sineCosine (rot : Int) : Int × Int :=
  doubleAngle 20 (taylor 40 0 (rndDiv (rot * 2 ^ 236) 1000000) (2 ^ 256))

/-- c_f of a fiducial, rounded to the LSB. -/
def RegParams.place (p : RegParams) (f : Fiducial) : Pt :=
  let (s, k) := sineCosine p.rot
  ⟨p.poseX + rndShift (f.fx * k - f.fy * s) 256, p.poseY + rndShift (f.fx * s + f.fy * k) 256, 0⟩

/-- The visits, fiducial by fiducial in table order, heads ascending; their commands are taken as the layer starts. -/
def Chip.visits (c : Chip) (p : RegParams) (fs : List Fiducial) : List Visit :=
  fs.zipIdx.flatMap fun (f, k) =>
    let q : Pt := p.place f
    (c.headList.filter fun (h : Fin 64) => p.heads.getLsbD h && c.hd[h].inArea c.ttu.index q.x q.y).map
      fun (h : Fin 64) => ⟨k, h, q, 0, 0⟩

/-! ### The run's Ingot (R144, R146) -/

/-- Where the run's Ingot stands: the registration scratch area. -/
def regBase : Nat := 0x4E000000

/-- The two records of a visit: a JUMP to its point and a DWELL at REG_POWER. -/
def visitRecords (v : Visit) (k dwellNs : Nat) : List Byte :=
  leBytes 4 0x01 ++ leBytes 4 (unsOf 32 v.at_.x) ++ leBytes 4 (unsOf 32 v.at_.y) ++ List.replicate 8 0 ++
    leBytes 4 k ++ List.replicate 8 0 ++
    leBytes 4 0x03 ++ List.replicate 12 0 ++ leBytes 4 dwellNs ++ leBytes 4 k ++ List.replicate 8 0

/-- Bytes padded with zeros to a multiple of 32. -/
def pad32 (bs : List Byte) : List Byte := bs ++ List.replicate (roundUp 32 bs.length - bs.length) 0

/-- The directory entry of a visit. -/
def visitEntry (b : Billet) : List Byte :=
  leBytes 4 b.off ++ leBytes 2 b.count ++ leBytes 1 b.headA ++ leBytes 1 b.headB ++ leBytes 2 b.tile ++ leBytes 2 b.kind ++
    leBytes 4 (unsOf 32 b.start.x) ++ leBytes 4 (unsOf 32 b.start.y) ++ leBytes 4 0 ++ leBytes 4 b.dur ++ leBytes 4 b.crc

/-- The run's Ingot and its image: one own Billet for each visit. What the rules leave to the device in it (the
order of its sections, START, VECTOR_ID) is the model's (DESIGN CHOICE, log entry 18). -/
def regIngot (power : Nat) (dev : Nat) (vs : List (Visit × Nat)) : Ingot × List Byte :=
  let n := vs.length
  let lists := (List.range 64).map fun h => (vs.zipIdx.filter fun x => x.1.1.head == h).map (·.2)
  let arrays := lists.map fun l => pad32 (l.flatMap (leBytes 4))
  let offs := (List.range 64).map fun h => 256 + 32 * n + 1024 + ((arrays.take h).map List.length).sum
  let profOff := 256 + 32 * n + 1024 + (arrays.map List.length).sum
  let recOff := profOff + 32
  let recs := vs.zipIdx.map fun x => visitRecords x.1.1 x.2 x.1.2
  let dir : List Billet := (vs.zip recs).zipIdx.map fun (x, k) =>
    ⟨recOff + 64 * k, 2, x.1.1.head, 0xFF, 0xFFFF, 0, x.1.1.at_, 0, crc32 x.2⟩
  let mask := headsNamed dir
  let len := recOff + 64 * n
  let table := (lists.zip offs).flatMap fun x => leBytes 4 (if x.1.isEmpty then 0 else x.2) ++ leBytes 4 x.1.length ++ List.replicate 8 0
  let hdr := leBytes 4 0x4749584D ++ leBytes 2 0x0100 ++ leBytes 2 256 ++ leBytes 4 len ++ leBytes 4 0xFFFFFFFF ++
    leBytes 4 dev ++ List.replicate 4 0 ++ leBytes 8 mask.toNat ++ leBytes 4 256 ++ leBytes 4 n ++
    leBytes 4 (256 + 32 * n) ++ List.replicate 8 0 ++ leBytes 4 profOff ++ leBytes 4 1 ++ List.replicate 192 0
  let image := hdr ++ leBytes 4 (crc32 hdr) ++ dir.flatMap visitEntry ++ table ++ arrays.flatten ++
    (leBytes 2 power ++ List.replicate 30 0) ++ recs.flatten
  ({ headerIngot regBase hdr with
      dir := dir, lists := lists, shared := [], profiles := [⟨power, 0, 0, 0, 0, 0, 0, 0⟩] }, image)

/-- DURATION of a visit's dwell: REG_DWELL, or three frame periods of the fiducial's camera as its last two frame starts
show them, in ns rounded up. The period of a camera that has not shown one is open (free value, log entry 3). -/
def Chip.visitDwell (c : Chip) (us cam : Nat) : Nat × Chip :=
  if us ≠ 0 then (min (us * 1000) 0xFFFFFFFF, c)
  else
    match (inst? 16 cam).bind fun p => (c.cam[p]).period with
    | some n => (max 1 (min ((15 * n + 3) / 4) 0xFFFFFFFF), c)
    | none =>
      let (x, c) := c.draw 32
      (max 1 x, c)

def Chip.visitDwells (us : Nat) (fs : List Fiducial) : List Visit → Chip → List (Visit × Nat) × Chip
  | [], c => ([], c)
  | v :: vs, c =>
    let (x, c) := c.visitDwell us ((fs[v.fid]?.map (·.cam)).getD 16)
    let (r, c) := Chip.visitDwells us fs vs c
    ((v, x) :: r, c)

/-! ### The result record (R147, R148) -/

/-- A record with its CRC put in: the CRC covers every byte but its own four, bytes 28 to 31. -/
def sealRecord (head rest : List Byte) : List Byte := head ++ leBytes 4 (crc32 (head ++ rest)) ++ rest

/-- The header alone, after a run that ends with any code but OK and LOW_COVERAGE (R149): no pair contributes, the visits
are those attempted, PASS follows from REG_RMS, and the three figures in nm are open. -/
def Chip.regHeader (c : Chip) (status visits target : Nat) : List Byte × Chip :=
  let (rms, c) := c.draw 32
  let (a, c) := c.draw 32
  let (m, c) := c.draw 32
  (sealRecord (leBytes 4 status ++ leBytes 4 rms ++ leBytes 4 a ++ leBytes 4 m ++ leBytes 4 0 ++ leBytes 4 visits ++
    leBytes 4 (b2n (rms ≤ target))) [], c)

/-- REG_TARGET of the parameters. -/
def RegParams.goal (p : RegParams) : Nat := if p.target = 0 then 4000 else p.target

/-- A run refused with such a code, before any visit. -/
def Chip.regRefuse (e : Env) (c : Chip) (r : Fin 256) (d : Desc) (p : RegParams) (status : Nat) : Chip :=
  let (bs, c) := c.regHeader status 0 p.goal
  let (c, _) := c.dramWrite e reqHST p.result bs
  c.finish e r d status none p.result

/-! ### Measuring (R146) -/

/-- A point or a vector of the plane, as a complex number. -/
abbrev Plane := Int × Int

/-- conj(p) q, and |p|². -/
def conjMul (p q : Plane) : Plane := (p.1 * q.1 + p.2 * q.2, p.1 * q.2 - p.2 * q.1)
def normSq (p : Plane) : Int := p.1 * p.1 + p.2 * p.2

def sumPlane (l : List Plane) : Plane := ((l.map (·.1)).sum, (l.map (·.2)).sum)

/-- Points about their centroid, times their number. -/
def centred (l : List Plane) : List Plane :=
  let n : Int := l.length
  let s := sumPlane l
  l.map fun p => (n * p.1 - s.1, n * p.2 - s.2)

/-- Sum of conj(p) q over a list of pairs. -/
def crossSum (l : List (Plane × Plane)) : Plane := sumPlane (l.map fun x => conjMul x.1 x.2)

/-- The linear part of the similarity fitted from imaged to certified points, as a numerator and a denominator. -/
def similarity (l : List (Plane × Plane)) : Plane × Int :=
  let z := centred (l.map (·.1))
  (crossSum (z.zip (centred (l.map (·.2)))), (z.map normSq).sum)

/-- What a visit has measured (R146): fiducial found, spot found, its camera not excluded, m in nm. -/
structure Measure where
  fid : Bool
  spot : Bool
  used : Bool
  m : Plane

def Measure.good (m : Measure) : Bool := m.fid && m.spot && m.used

/-- The fiducials that a camera has found, imaged and certified. -/
def RegRun.found (x : RegRun) (marks : List (Option Plane)) (cam : Nat) : List (Plane × Plane) :=
  (x.fids.zip marks).filterMap fun (f, m) => if f.cam = cam then m.map fun z => (z, (f.fx, f.fy)) else none

/-- What one visit has measured. Where every fiducial of a camera is imaged at one point, no transform is fitted and m is
open. -/
def Chip.measure (c : Chip) (x : RegRun) (ms : RegFindings) (v : Visit) (k : Nat) : Measure × Chip :=
  let mark := (ms.marks[v.fid]?).join
  let spot := (ms.spots[k]?).join
  let cam := x.found ms.marks (x.camOf v)
  let used := decide (2 ≤ cam.length)
  match mark, spot with
  | some z, some s =>
    let (a, den) := similarity cam
    let w := (s.1 - z.1, s.2 - z.2)
    if den = 0 then
      let (p, c) := c.draw 32
      let (q, c) := c.draw 32
      (⟨true, true, used, (signOf 32 p, signOf 32 q)⟩, c)
    else
      let q := conjMul (a.1, -a.2) w
      (⟨true, true, used, (rndDiv (125 * q.1) den.toNat, rndDiv (125 * q.2) den.toNat)⟩, c)
  | _, _ => (⟨mark.isSome, spot.isSome, used, (0, 0)⟩, c)

def Chip.measures (x : RegRun) (ms : RegFindings) : List (Visit × Nat) → Chip → List (Visit × Measure) × Chip
  | [], c => ([], c)
  | (v, k) :: vs, c =>
    let (m, c) := c.measure x ms v k
    let (r, c) := Chip.measures x ms vs c
    ((v, m) :: r, c)

/-! ### The figures (R147) -/

/-- sqrt(s / p) rounded to the nearest integer, ties away from zero. -/
def rootRound (s p : Nat) : Nat := (isqrt (4 * s / p) + 1) / 2

/-- The squared differences of every pair of heads measured at one fiducial. -/
def pairSquares : List (Visit × Measure) → List Nat
  | [] => []
  | a :: l =>
    ((l.filter fun b => b.1.fid == a.1.fid).map fun b =>
      (normSq (a.2.m.1 - b.2.m.1, a.2.m.2 - b.2.m.2)).toNat) ++ pairSquares l

/-- The points of the common fit, each about its centroid and times their number: certified, and as measured, in nm. -/
def RegRun.fitPoints (x : RegRun) (ms : List (Visit × Measure)) : List (Visit × (Plane × Plane)) :=
  let p : List Plane := ms.map fun y =>
    let f : Fiducial := x.fids.getD y.1.fid ⟨0, 0, 0, 0, 0⟩
    (125 * f.fx, 125 * f.fy)
  let q : List Plane := (p.zip ms).map fun y => (y.1.1 + y.2.2.m.1, y.1.2 + y.2.2.m.2)
  (ms.map (·.1)).zip ((centred p).zip (centred q))

/-- The root mean square of some residuals after the offset and rotation fitted to all `n` points, whose cross sum is `c`:
sqrt(Σ|p|² + Σ|q|² − 2 Re(conj(c) Σ conj(p) q) / |c|), its root of |c|² carried to 64 binary places. None where there is
no point, or no single rotation fits. -/
def rmsAfter (n : Nat) (c : Plane) (l : List (Plane × Plane)) : Option Nat :=
  let a := (l.map fun x => normSq x.1 + normSq x.2).sum
  let k := crossSum l
  let root : Nat := isqrt ((normSq c).toNat * 2 ^ 128)
  let cap (x : Nat) : Nat := min x 0xFFFFFFFF
  if l.isEmpty then none
  else if root = 0 then (if k = (0, 0) then some (cap (rootRound a.toNat (n ^ 2 * l.length))) else none)
  else some (cap (rootRound (a * (root : Int) - (c.1 * k.1 + c.2 * k.2) * 2 ^ 65).toNat (root * n ^ 2 * l.length)))

/-- A figure, or an open value where R147 gives none. -/
def Chip.orOpen (c : Chip) (x : Option Nat) : Nat × Chip :=
  match x with
  | some n => (n, c)
  | none => c.draw 32

/-- Three points that do not lie on one line exist. -/
def nonCollinear (ps : List Pt) : Bool :=
  match ps with
  | [] => false
  | a :: l => l.any fun b => l.any fun p => (b.x - a.x) * (p.y - a.y) != (b.y - a.y) * (p.x - a.x)

/-- The determinant of a 3 × 3 matrix by its columns. -/
def det3 (a b c : Int × Int × Int) : Int :=
  a.1 * (b.2.1 * c.2.2 - b.2.2 * c.2.1) - b.1 * (a.2.1 * c.2.2 - a.2.2 * c.2.1) + c.1 * (a.2.1 * b.2.2 - a.2.2 * b.2.1)

/-- The least-squares fit e ≈ d + a gx + b gy: the determinant, and the numerators of d, a and b. -/
def fitAxis (l : List (Plane × Int)) : Int × (Int × Int × Int) :=
  let s (f : Plane × Int → Int) : Int := (l.map f).sum
  let u := ((l.length : Int), s (·.1.1), s (·.1.2))
  let v := (s (·.1.1), s (fun x => x.1.1 * x.1.1), s (fun x => x.1.1 * x.1.2))
  let w := (s (·.1.2), s (fun x => x.1.1 * x.1.2), s (fun x => x.1.2 * x.1.2))
  let y := (s (·.2), s (fun x => x.1.1 * x.2), s (fun x => x.1.2 * x.2))
  (det3 u v w, det3 y v w, det3 u y w, det3 u v y)

/-- The drift proposal of a head: the command errors −16 M m / 125 nm of its measured fiducials, fitted over their commands,
each term rounded once to its register's unit and added to the drift in force (R147; DESIGN CHOICE, log entry 4). -/
def HeadCal.proposal (k : HeadCal) (ms : List (Visit × Measure)) : List Int :=
  let g (i : Nat) : Int := k.mat.getD i 0
  let err (x : Visit × Measure) : Plane :=
    (-16 * (g 0 * x.2.m.1 + g 1 * x.2.m.2), -16 * (g 2 * x.2.m.1 + g 3 * x.2.m.2))
  let (det, x) := fitAxis (ms.map fun y => ((y.1.gx, y.1.gy), (err y).1))
  let (_, y) := fitAxis (ms.map fun y => ((y.1.gx, y.1.gy), (err y).2))
  let unit : Nat := det.toNat * 2 ^ 24 * 125
  let terms :=
    if det = 0 then Config.registrationFit (ms.map fun y => ((y.1.gx, y.1.gy), err y))
    else [rndDiv x.1 unit, rndDiv y.1 unit, rndDiv (x.2.1 * 2 ^ 32) unit, rndDiv (x.2.2 * 2 ^ 32) unit,
      rndDiv (y.2.1 * 2 ^ 32) unit, rndDiv (y.2.2 * 2 ^ 32) unit]
  (k.drift.zip terms).map fun z => z.1 + z.2

/-! ### The entries (R148) -/

/-- A head's entry, given the common fit's cross sum and points. HEAD_RMS of a head that has measured nothing, and the terms of
a proposal that is not valid, are open. -/
def Chip.headEntry (c : Chip) (x : RegRun) (ms : List (Visit × Measure)) (h : Fin 64) : List Byte × Chip :=
  let mine := ms.filter fun y => y.1.head == h.val
  let ok := 3 ≤ mine.length && nonCollinear (mine.map (·.1.at_))
  let pts := x.fitPoints ms
  let fit := rmsAfter ms.length (crossSum (pts.map (·.2))) ((pts.filter fun y => y.1.head == h.val).map (·.2))
  let (rms, c) := c.orOpen fit
  let (free, c) := c.draw 192
  let cal : HeadCal := x.cals.getD h ⟨[], []⟩
  let terms := if ok then (((cal.proposal mine).map fun z => leBytes 4 (unsOf 32 (satS 32 z))).flatten ++ leBytes 24 0).take 24
    else leBytes 24 free
  (leBytes 1 h ++ leBytes 1 (b2n ok) ++ leBytes 2 mine.length ++ leBytes 4 rms ++ terms, c)

def Chip.headEntries (x : RegRun) (ms : List (Visit × Measure)) : List (Fin 64) → Chip → List Byte × Chip
  | [], c => ([], c)
  | h :: hs, c =>
    let (a, c) := c.headEntry x ms h
    let (b, c) := Chip.headEntries x ms hs c
    (a ++ b, c)

/-- A visit's entry. MX and MY of a visit that measured nothing are open. -/
def Chip.visitLine (c : Chip) (fs : List Fiducial) (x : Visit × Measure) : List Byte × Chip :=
  let f : Fiducial := fs.getD x.1.fid ⟨0, 0, 0, 0, 0⟩
  let (free, c) := c.draw 64
  let m := if x.2.good then leBytes 4 (unsOf 32 (satS 32 x.2.m.1)) ++ leBytes 4 (unsOf 32 (satS 32 x.2.m.2)) else leBytes 8 free
  (leBytes 4 f.id ++ leBytes 1 x.1.head ++ leBytes 1 f.cam ++ leBytes 2 (b2n x.2.fid + 2 * b2n x.2.spot) ++ m ++
    List.replicate 16 0, c)

def Chip.visitLines (fs : List Fiducial) : List (Visit × Measure) → Chip → List Byte × Chip
  | [], c => ([], c)
  | x :: xs, c =>
    let (a, c) := c.visitLine fs x
    let (b, c) := Chip.visitLines fs xs c
    (a ++ b, c)

/-- The record of a run whose layer is complete: its status and REG_RMS, and its bytes. -/
def Chip.regRecord (c : Chip) (x : RegRun) (f : RegFindings) : (Nat × Nat × List Byte) × Chip :=
  let (all, c) := Chip.measures x f x.visits.zipIdx c
  let good := all.filter fun y => y.2.good
  let sq := pairSquares good
  let rms := if sq.isEmpty then 0 else min (rootRound sq.sum sq.length) 0xFFFFFFFF
  let top := if sq.isEmpty then 0 else min (rootRound (sq.foldl max 0) 1) 0xFFFFFFFF
  let status := if sq.isEmpty then 0x05 else 0x00
  let pts := (x.fitPoints good).map (·.2)
  let (abs_, c) := c.orOpen (rmsAfter good.length (crossSum pts) pts)
  let head := leBytes 4 status ++ leBytes 4 rms ++ leBytes 4 abs_ ++ leBytes 4 top ++ leBytes 4 sq.length ++
    leBytes 4 x.visits.length ++ leBytes 4 (b2n (rms ≤ x.target))
  let (hs, c) := Chip.headEntries x good ((List.finRange 64).filter fun h => x.heads.getLsbD h) c
  let (vs, c) := Chip.visitLines x.fids all c
  ((status, rms, sealRecord head (hs ++ vs)), c)

/-! ### REGISTER (R144, R149, R340) -/

/-- The run is accepted: its Ingot is written and ARMED. The tick at which its layer starts is the device's
(free value, log entry 18). -/
def Chip.regBegin (e : Env) (c : Chip) (r : Fin 256) (d : Desc) (p : RegParams) (i : Fin 16) (fs : List Fiducial) : Chip :=
  let vs := c.visits p fs
  let (ds, c) := Chip.visitDwells p.dwell fs vs c
  let (g, image) := regIngot p.power (if c.gangEn then c.devIndex else 0) ds
  let (c, _) := c.dramWrite e reqLattice regBase image
  let (k, c) := c.draw 24
  let c := c.onLease i fun _ => { Lease.reset with
    state := .loaded, base := regBase, len := roundUp 4096 g.len, layerNo := 0xFFFFFFFF, ingot := some g, own := true }
  let c := { c with reg := some ⟨r.val, i, p.result, p.heads, p.goal, fs, vs, [], [], 0, none⟩ }
  (c.arm i ⟨none, 0, c.ttu.index + 1 + k⟩ g.headMask).await r d .registration

/-- A REGISTER descriptor. -/
def Chip.register (e : Env) (c : Chip) (r : Fin 256) (d : Desc) : Chip :=
  let a := leAt d.bytes 8 8
  if !d.clean [(8, 15)] ∨ 2 ^ 35 ≤ a then c.finish e r d 0x41 none none
  else
    let refused (q a n : Nat) : Bool := (firstRefused (mayRead q) a n).isSome
    let (c, b) := c.dramRead e reqHST a 64
    if refused reqHST a 64 then c.finish e r d 0x45 none none
    else if !b.ok then c.finish e r d 0x44 none none
    else match regParams b.bytes with
      | none => c.finish e r d 0x41 none none
      | some p =>
        if (firstRefused (mayWrite reqHST) p.result 32).isSome then c.finish e r d 0x45 none p.result
        else if (firstRefused (fun y => (c.guardOf y).isNone) p.result 32).isSome then c.finish e r d 0x46 none p.result
        else if c.scn.armed.isSome ∨ c.scn.layer.isSome ∨ !c.ttu.lock ∨ c.reg.isSome then c.regRefuse e r d p 0x01
        else match c.freeLease with
          | none => c.regRefuse e r d p 0x02
          | some i =>
            let (c, h) := c.dramRead e reqHST p.table 32
            if refused reqHST p.table 32 then c.finish e r d 0x45 none p.result
            else if !h.ok then c.finish e r d 0x44 none p.result
            else match tableCount h.bytes with
              | none => c.regRefuse e r d p 0x03
              | some n =>
                let (c, es) := c.dramRead e reqHST (p.table + 32) (32 * n)
                if refused reqHST (p.table + 32) (32 * n) then c.finish e r d 0x45 none p.result
                else if !es.ok then c.finish e r d 0x44 none p.result
                else match tableEntries h.bytes es.bytes with
                  | none => c.regRefuse e r d p 0x03
                  | some fs =>
                    if (List.finRange 64).any fun k => p.heads.getLsbD k && !c.hd[k].bank.isReady then
                      c.regRefuse e r d p 0x04
                    else c.regBegin e r d p i fs

/-- The lease of a run is released (R144). -/
def Chip.dropOwn (c : Chip) (i : Fin 16) : Chip :=
  if (c.hst.leases[i]).own ∧ (c.hst.leases[i]).state = .loaded then c.onLease i fun _ => Lease.reset else c

/-- The REGISTER descriptor in progress. -/
def Chip.regDesc (c : Chip) (r : Nat) : Option (Fin 256 × Desc) :=
  match inst? 256 r with
  | none => none
  | some r =>
    match (c.ring r).cur with
    | some ⟨d, .registration⟩ => some (r, d)
    | _ => none

/-- A registration run whose layer has ended is reported (REGISTRATION_DONE), with what the cameras have found. -/
def Chip.regDone (e : Env) (c : Chip) (f : RegFindings) : Chip :=
  match c.reg with
  | none => c
  | some x =>
    match x.ended with
    | none => c
    | some st =>
      let c := ({ c with reg := none }).dropOwn x.lease
      let (out, c) :=
        if st = 0x4D then
          let (bs, c) := c.regHeader 0x06 x.begun x.target
          ((0x06, none, bs), c)
        else
          let (y, c) := c.regRecord x f
          ((y.1, some y.2.1, y.2.2), c)
      let (c, _) := c.dramWrite e reqHST x.result out.2.2
      match c.regDesc x.ring with
      | some (r, d) => c.finish e r d out.1 out.2.1 x.result
      | none => c

end Sys2Proof.Machine
end

