-- ==== Sys2Proof/Machine/Time.lean ====
section
/-! DEFINITION. The clocks and the grid: grid index, phase error and lock (R40 to R42), regrids (R44, R45),
commit requests (R54 to R56), TICK_OUT (R62), domains and the active domain (R353 to R357), and the PPS pins
(R361, R362). -/

namespace Sys2Proof.Machine

def Chip.onTtu (c : Chip) (f : Ttu → Ttu) : Chip := { c with ttu := f c.ttu }

/-- TTU_TICK_STATUS bits (R63). -/
def tfLOCK_LOST : Nat := 0x100
def tfINDEX_SLIP : Nat := 0x200
def tfREGRID_REJ : Nat := 0x400
def tfCOMMIT_LATE : Nat := 0x800
def tfSTEER_SAT_SEEN : Nat := 0x1000

/-! ### The grid (R40 to R42). Grid times are kept in quarters of 2^-32 ns, in which a sub-tick unit is 5 × 2^32. -/

/-- Active-domain time since the epoch. -/
def Chip.sinceEpoch (c : Chip) : Int := 4 * ((c.ttu.dom[c.ttu.act] : Int) - c.epochNs * nsUnit)

/-- One sub-tick unit and one tick period. -/
def unitQ : Int := 5 * nsUnit
def Chip.periodQ (c : Chip) : Int := c.N * unitQ

/-- What the active domain's clock adds in one reference-clock edge (R354). -/
def Chip.rateQ (c : Chip) : Int := 4 * ((c.inc : Int) + c.rdInt (Reg.TTU_DOM_ADJ c.ttu.act))

/-- Active-domain time of the last boundary since the epoch: `since` edges ago, and `frac` past its edge. -/
def Chip.boundaryTime (c : Chip) : Int :=
  c.sinceEpoch - (((c.ttu.since * 1000000000 : Nat) : Int) - c.ttu.frac) * c.rateQ / 1000000000

/-- The grid index of an instant: the index whose grid time lies nearest (R41). -/
def Chip.gridIndex (c : Chip) (t : Int) : Int := (2 * t + c.periodQ).fdiv (2 * c.periodQ)

/-- A phase error in picoseconds, saturating (TTU_PHASE_ERR). -/
def picoOf (q : Int) : Int := satS 32 (rndDiv (q * 1000) (4 * nsUnit))

def Chip.lockWin (c : Chip) : Nat := c.fld Reg.TTU_STEER_CFG 15 8

/-- TICK_LOCK as the last boundary, its index and LOCK_WIN have it (R41, R479). Its fall sets LOCK_LOST. -/
def Chip.relock (c : Chip) : Chip :=
  let lock := c.ttu.anchored && !c.ttu.slipped && decide ((c.ttu.phase.natAbs : Int) ≤ c.lockWin * unitQ)
  let fell := c.ttu.lock && !lock
  let c := c.onTtu fun t => { t with lock := lock }
  if fell then c.flag Reg.TTU_TICK_STATUS .none tfLOCK_LOST 0 else c

/-- At a boundary that counts as that of tick t: the phase error, the lock and the index check (R41, R42). Before the
first regrid nothing is anchored. -/
def Chip.judgeGrid (c : Chip) (t : Nat) : Chip :=
  if !c.ttu.anchored then c
  else
    let i := c.gridIndex c.boundaryTime
    let q := c.boundaryTime - i * c.periodQ
    let same := decide (i = t)
    let slip := !same && !c.ttu.slipped
    let c := c.wr Reg.TTU_PHASE_ERR (BitVec.ofInt 32 (picoOf q))
    let c := (c.onTtu fun x => { x with phase := q, slipped := !same }).relock
    if slip then c.sticky Reg.TTU_TICK_STATUS tfINDEX_SLIP else c

/-! ### Steering (R37, R42) -/

def heldBetween (a b x : Int) : Int := max (min a b) (min (max a b) x)

/-- The length of the tick in progress, in billionths of an edge, and whether steering is held at STEER_LIMIT. TTU steers
toward the nearest grid phase: the length lies between the one that keeps the phase error and the one that closes it, and
within the limit (R37, R42). Where in that range, `len`, is the outside's (DESIGN CHOICE, log entry 34). -/
def Chip.tickSpan (c : Chip) (len : Int) : Int × Bool :=
  let (lo, hi) := c.spanLimits
  if !c.ttu.anchored then (lo, false)
  else
    let t := c.boundaryTime
    let e := t - c.gridIndex t * c.periodQ
    let x := heldBetween lo hi (heldBetween (c.periodQ * edgeParts / c.rateQ) ((c.periodQ - e) * edgeParts / c.rateQ) len)
    (x, x == lo || x == hi)

/-- Time runs on to `parts` billionths of an edge past the edge at which the last boundary is counted, where the next
boundary lies. -/
def Chip.toBoundary (c : Chip) (parts : Int) : Chip :=
  let n := parts.toNat
  (c.advance (n / 1000000000 - c.ttu.since)).onTtu fun t => { t with since := 0, frac := n % 1000000000 }

/-- The boundary that ends the tick in progress. -/
def Chip.endOfTick (c : Chip) (len : Int) : Chip :=
  let (x, sat) := c.tickSpan len
  let c := (c.toBoundary (c.ttu.frac + x)).onTtu fun t => { t with steerSat := sat }
  if sat then c.sticky Reg.TTU_TICK_STATUS tfSTEER_SAT_SEEN else c

/-- TTU_TICK_STATUS [2:0] and TTU_TIME_STATUS [1:0] as read. -/
def Ttu.tickStatus (t : Ttu) : Nat := b2n t.lock + 2 * b2n t.steerSat + 4 * b2n t.regrid.isSome
def Ttu.timeStatus (t : Ttu) : Nat := t.act.val + 2 * b2n t.noLock

/-- The stage deadlines D_snap, D_prop, D_arb, D_fin and C of R46, as TTU_DEADLINE_A to C report them. -/
def Chip.deadline (c : Chip) (k : Nat) : Nat :=
  let n := c.N
  match k with
  | 0 => n / 16 + 2 ^ 16 * (6 * n / 16)
  | 1 => 9 * n / 16 + 2 ^ 16 * (12 * n / 16)
  | _ => 14 * n / 16

/-! ### Regrids (R44, R45) -/

/-- GLB is quiescent: no Ingot is leased and no START is pending (R36). -/
def Chip.glbQuiet (c : Chip) : Bool := c.hst.leases.toList.all fun l => decide (l.state = .free)

/-- An axis is executing or holding a queued move (R44). -/
def Axis.busy (x : Axis) : Bool := decide (x.doing ≠ .rest) || !x.queue.isEmpty

/-- The first condition of R44 that a request fails: 1, 2 or 3; 0 where it is accepted. -/
def Chip.regridFails (c : Chip) : Nat :=
  let sec := c.rdn Reg.TTU_EPOCH_SEC_LO + 2 ^ 32 * c.fld Reg.TTU_EPOCH_SEC_HI 15 0
  if !c.glbQuiet then 1
  else if c.axis.toList.any (·.busy) then 2
  else if c.now < sec * 1000000000 + c.fld Reg.TTU_EPOCH_NS 29 0 then 3
  else 0

/-- A write of REGRID: merged, rejected, or accepted with its shadow period and epoch captured; every lane is
told the new period (R44, R250). -/
def Chip.regridReq (c : Chip) : Chip :=
  if c.ttu.regrid.isSome then c
  else if c.regridFails ≠ 0 then c.flag Reg.TTU_TICK_STATUS .none tfREGRID_REJ c.regridFails
  else
    let n := c.fld Reg.TTU_TICK_PERIOD 13 0
    let r : Regrid := ⟨n, c.rdn Reg.TTU_EPOCH_SEC_LO + 2 ^ 32 * c.fld Reg.TTU_EPOCH_SEC_HI 15 0, c.fld Reg.TTU_EPOCH_NS 29 0⟩
    (c.onTtu fun t => { t with regrid := some r }).lanesPeriod n (c.ttu.index % 2 ^ 32)

/-- Active-domain time of the last boundary, in 2^-32 ns. -/
def Chip.boundaryNs (c : Chip) : Nat := c.ttu.dom[c.ttu.act] + c.ttu.frac * (c.rateQ / 4).toNat / 1000000000

/-- The boundary B of an accepted regrid: the captured period and epoch become active, and the gap begins (R45). -/
def Chip.beginGap (c : Chip) (r : Regrid) : Chip :=
  let from_ := c.boundaryNs
  let c := c.wrn Reg.TTU_TICK_PERIOD_ACT r.n
  let c := (c.wrPair Reg.TTU_EPOCH_SEC_ACT_LO r.sec).wrn Reg.TTU_EPOCH_NS_ACT r.ns
  c.onTtu fun t => { t with gap := true, inTick := false, gapFrom := from_ }

/-- The index of the first tick of the new grid: its boundary lies at or after B + 40 µs (R45). -/
def Chip.firstOfGrid (c : Chip) : Nat :=
  (divup (4 * ((c.ttu.gapFrom : Int) + 40000 * nsUnit - c.epochNs * nsUnit)) c.periodQ).toNat

/-- The boundary of the first tick of the new grid: the gap ends at its grid time (R45). -/
def Chip.endOfGap (c : Chip) : Chip :=
  let left := (c.firstOfGrid : Int) * c.periodQ - c.sinceEpoch
  c.toBoundary (c.ttu.since * edgeParts + max 0 (left * edgeParts / c.rateQ))

/-! ### Commits (R54 to R56) -/

def Chip.commitPend (c : Chip) : Nat := c.fld Reg.TTU_COMMIT_REQ 3 0

/-- A write of TTU_COMMIT_REQ, or the commit of a descriptor, sets pending bits. -/
def Chip.commitReq (c : Chip) (bits : Nat) : Chip := c.sticky Reg.TTU_COMMIT_REQ (bits % 16)

/-- Whether the pending requests are taken at the boundary of tick t, and whether their target has passed (R56). -/
def Chip.commitDue (c : Chip) (t : Nat) : Bool × Bool :=
  if c.commitPend = 0 then (false, false)
  else if c.bit Reg.TTU_COMMIT_CFG 0 then
    let k := c.rdPair Reg.TTU_COMMIT_TICK_LO
    (k == t, decide (k < t))
  else (true, false)

/-- The SH registers of a block become active. -/
def Chip.commitBlock (c : Chip) (b : Nat) : Chip := c.commitAll fun a => blockOf a == b

/-- The transfer of every block whose bit is set, all at once, at the boundary of tick t (R54). The axes take
theirs as they open the tick. -/
def Chip.commitTake (c : Chip) (t bits : Nat) : Chip :=
  let c := if bitOf bits 0 then c.commitBlock blkSCN else c
  let c := if bitOf bits 1 then c.commitBlock blkSLD else c
  let c := if bitOf bits 2 then c.commitBlock blkMPC else c
  let c := if bitOf bits 0 then c.headList.foldl (fun (c : Chip) (h : Fin 64) => (c.relimit h).selectBank h) c else c
  ((c.wrn Reg.TTU_COMMIT_REQ 0).setFld Reg.TTU_COMMIT_CFG 11 8 bits).wrPair Reg.TTU_COMMIT_DONE_LO t

/-- A scheduled request whose target has passed: its bits are cleared. -/
def Chip.commitLate (c : Chip) : Chip :=
  (c.wrn Reg.TTU_COMMIT_REQ 0).flag Reg.TTU_TICK_STATUS .none tfCOMMIT_LATE 0

/-! ### Domains (R353 to R357) -/

def Chip.onDom (c : Chip) (d : Fin 2) (f : DomState × Nat → DomState × Nat) : Chip :=
  c.onTtu fun t =>
    let x := f (t.domState[d], t.good[d])
    { t with domState := t.domState.set d x.1, good := t.good.set d x.2 }

def domUNLOCK : Nat := 0x10000
def domHOLD : Nat := 0x20000
def domLOST : Nat := 0x40000

/-- NO_LOCK follows the active domain; NO_LOCK_SEEN records that it rose (R356, R479). -/
def Chip.noteLock (c : Chip) : Chip :=
  let nl := decide (c.ttu.domState[c.ttu.act] ≠ .locked)
  let c := if nl && !c.ttu.noLock then c.sticky Reg.TTU_TIME_STATUS 0x800 else c
  c.onTtu fun t => { t with noLock := nl }

def Chip.lockNs (c : Chip) (d : Nat) : Nat := c.fld (Reg.TTU_DOM_LIM d) 15 0
def Chip.unlockNs (c : Chip) (d : Nat) : Nat := c.fld (Reg.TTU_DOM_LIM d) 31 16
def Chip.lockCnt (c : Chip) (d : Nat) : Nat := c.fld (Reg.TTU_DOM_TIME d) 31 24

/-- An update judged as in ACQUIRE, from a good count (R355). -/
def Chip.judgeDom (c : Chip) (d : Fin 2) (err : Int) (good : Nat) : Chip :=
  if err.natAbs ≤ c.lockNs d then
    let g := min (good + 1) 255
    c.onDom d fun _ => (if c.lockCnt d ≤ g then .locked else .acquire, g)
  else c.onDom d fun _ => (.acquire, 0)

/-- A write of TTU_DOM_UPDATE (R355). -/
def Chip.domUpdate (c : Chip) (d : Fin 2) (v : Word) : Chip :=
  let err := v.toInt
  let c := c.wr (Reg.TTU_DOM_ERR d) v
  (match c.ttu.domState[d] with
    | .off => c
    | .acquire => c.judgeDom d err c.ttu.good[d]
    | .locked =>
      if err.natAbs ≤ c.unlockNs d then c
      else (c.onDom d fun _ => (.acquire, 0)).sticky (Reg.TTU_DOM_STATUS d) domUNLOCK
    | .holdover => c.judgeDom d err 0
    | .lost => c.judgeDom d err 0).noteLock

/-- LOCKED to HOLDOVER (R355). -/
def Chip.domHold (c : Chip) (d : Fin 2) : Chip :=
  if c.ttu.domState[d] = .locked then
    ((c.onDom d fun x => (.holdover, x.2)).sticky (Reg.TTU_DOM_STATUS d) domHOLD).noteLock
  else c

/-- HOLDOVER to LOST (R355). -/
def Chip.domLose (c : Chip) (d : Fin 2) : Chip :=
  if c.ttu.domState[d] = .holdover then
    ((c.onDom d fun x => (.lost, x.2)).sticky (Reg.TTU_DOM_STATUS d) domLOST).noteLock
  else c

/-- A write of TTU_DOM_CTRL: ENABLE, and LOSS where its bit is 1 (R355). -/
def Chip.domCtrl (c : Chip) (d : Fin 2) (v : Nat) : Chip :=
  let c := c.wrn (Reg.TTU_DOM_CTRL d) (v % 2)
  if bitOf v 0 then
    let c := if c.ttu.domState[d] = .off then c.onDom d fun _ => (.acquire, 0) else c
    (if bitOf v 1 then c.domHold d else c).noteLock
  else (c.onDom d fun x => (.off, x.2)).noteLock

/-- DOM_STATUS [15:0] as read. -/
def Ttu.domStatus (t : Ttu) (d : Fin 2) : Nat :=
  (match t.domState[d] with | .off => 0 | .acquire => 1 | .locked => 2 | .holdover => 3 | .lost => 4) + 2 ^ 8 * t.good[d]

/-- A write of TTU_DOM_SEL that names a domain in service (R356). -/
def Chip.domSel (c : Chip) (v : Nat) : Chip :=
  let d : Fin 2 := if bitOf v 0 then 1 else 0
  (c.wrn Reg.TTU_DOM_SEL (v % 4)).onTtu fun t => { t with selPend := if d = t.act then none else some d }

/-- Whether a value of TTU_DOM_SEL names a domain in OFF. -/
def Chip.domSelOff (c : Chip) (v : Nat) : Bool :=
  c.ttu.domState[(if bitOf v 0 then 1 else 0 : Fin 2)] == .off

/-- The domain to switch to at this boundary, if any: a manual request, or else the automatic rule (R356). -/
def Chip.switchTo (c : Chip) : Option (Fin 2) :=
  match c.ttu.selPend with
  | some d => some d
  | none =>
    let d : Fin 2 := 1 - c.ttu.act
    if c.bit Reg.TTU_DOM_SEL 1 ∧ c.ttu.domState[c.ttu.act] ≠ .locked ∧ c.ttu.domState[d] = .locked then some d else none

/-- Clock time modulo 2^48 seconds. -/
def clockMod (x : Int) : Nat := (x % ((2 ^ 48 * 1000000000 * nsUnit : Nat) : Int)).toNat

/-- The time in ns that PPS_OUT follows, if it follows one (R361). -/
def Chip.ppsTime (c : Chip) : Option Nat :=
  match c.fld Reg.TTU_PPSOUT_CFG 2 0 with
  | 1 => some c.now
  | 2 => some (clockNs c.ttu.dom[(0 : Fin 2)])
  | 3 => some (clockNs c.ttu.dom[(1 : Fin 2)])
  | 4 => some (clockNs c.ttu.lcl)
  | _ => none

/-- The last whole second that the selected time has reached, less ADVANCE. -/
def Chip.ppsReached (c : Chip) : Nat :=
  match c.ppsTime with
  | none => 0
  | some t => (t + c.fld Reg.TTU_PPSOUT_CFG 31 20) / 1000000000

/-- Seconds that a step, a set or a switch has carried the selected time across bring no pulse (R361). -/
def Chip.ppsSkip (c : Chip) : Chip := let s := c.ppsReached; c.onTtu fun t => { t with ppsSec := s }

/-- The switch at the boundary of tick t, with its record (R356, R357). The loss of the active master that an automatic
switch covers is reported as an event (R27, R28; DEDUCED, log entry 55). -/
def Chip.switchDomain (c : Chip) (t : Nat) : Chip :=
  match c.switchTo with
  | none => c
  | some d =>
    let auto := c.ttu.selPend.isNone
    let delta : Int := clockNs c.ttu.dom[d] - clockNs c.ttu.dom[c.ttu.act]
    let c := c.onTtu fun x => { x with act := d, selPend := none }
    let c := c.setFld Reg.TTU_DOM_SEL 0 0 d
    let c := (c.wr Reg.TTU_SW_DELTA (BitVec.ofInt 32 (satS 32 delta))).wrPair Reg.TTU_SW_TICK_LO t
    let large := decide (c.lockWin * 5 < 4 * (satS 32 delta).natAbs)
    let c := c.sticky Reg.TTU_TIME_STATUS (if large then 0x300 else 0x100)
    ((if auto then c.flagEvent Reg.TTU_TIME_STATUS .none 0x100 0 else c).noteLock).ppsSkip

/-- STEP_ACTIVE where the active domain was stepped or set. -/
def Chip.noteStep (c : Chip) (d : Fin 2) : Chip := if d = c.ttu.act then c.sticky Reg.TTU_TIME_STATUS 0x400 else c

/-- A write of TTU_DOM_STEP (R354). -/
def Chip.domStep (c : Chip) (d : Fin 2) (v : Word) : Chip :=
  ((c.onTtu fun t => { t with dom := t.dom.set d (clockMod ((t.dom[d] : Int) + v.toInt * nsUnit)) }).noteStep d).ppsSkip

/-- A time triple set; the fraction is cleared (R353, R354). -/
def Chip.setDomTime (c : Chip) (d : Fin 2) (sec ns : Nat) : Chip :=
  ((c.onTtu fun t => { t with dom := t.dom.set d ((sec * 1000000000 + ns) * nsUnit) }).noteStep d).ppsSkip

def Chip.setLclTime (c : Chip) (sec ns : Nat) : Chip :=
  (c.onTtu fun t => { t with lcl := (sec * 1000000000 + ns) * nsUnit }).ppsSkip

/-! ### TICK_OUT and PPS (R62, R361, R362) -/

/-- The index of the tick that begins at the next boundary; none where a regrid is accepted and its boundary
has not come. -/
def Chip.nextTick (c : Chip) : Option Nat :=
  if c.ttu.gap then some c.firstOfGrid
  else if c.ttu.regrid.isSome then none
  else some (if c.ttu.inTick then c.ttu.index + 1 else 0)

/-- Whether a pulse belongs to the boundary of tick t under the settings in force (R62). In MODE 0b10 every ARMED start tick
has its pulse, whether its layer then starts or not (DESIGN CHOICE, log entry 91). -/
def Chip.pulseDue (c : Chip) (t : Nat) : Bool :=
  match (c.ttu.outCfg).toNat % 4 with
  | 1 => t % (bitsOf c.ttu.outDiv.toNat 15 0 + 1) == 0
  | 2 =>
    match c.scn.armed with
    | some (i, _) => (c.hst.leases[i]).start.any fun x => x.tick == t
    | none => false
  | _ => false

/-- WIDTH in sub-tick units as it acts (R62). -/
def pulseWidth (n w : Nat) : Nat := if w = 0 then n / 2 else min w (n - 1)

/-- TICK_OUT rises for the next boundary, and shows the pulse until it has ended. -/
def Chip.tickOutPulse (c : Chip) : Chip :=
  match c.nextTick with
  | none => c
  | some t =>
    if c.pulseDue t then
      let p : TickPulse := ⟨t, bitsOf c.ttu.outDiv.toNat 23 16, pulseWidth c.N (bitsOf c.ttu.outCfg.toNat 21 8)⟩
      c.onTtu fun x => { x with tickOut := some p }
    else c

/-- The settings of TICK_OUT are taken at a boundary, and a pulse whose tick has ended is over (R62). -/
def Chip.takeTickOut (c : Chip) : Chip :=
  let cfg := c.rd Reg.TTU_TICKOUT_CFG
  let div := c.rd Reg.TTU_TICKOUT_DIV
  c.onTtu fun t => { t with outCfg := cfg, outDiv := div, tickOut := t.tickOut.filter fun p => t.index ≤ p.tick }

/-- PPS_OUT rises where the selected time has reached a whole second (R361). -/
def Chip.ppsPulse (c : Chip) : Chip :=
  let s := c.ppsReached
  if c.ppsTime.isSome ∧ c.ttu.ppsSec < s then
    c.onTtu fun t => { t with
      ppsSec := s
      ppsTill := if t.up < t.ppsTill then t.ppsTill else t.up + c.fld Reg.TTU_PPSOUT_CFG 17 8 * edgesPerMs }
  else c

/-- A write of TTU_PPSOUT_CFG has been stored: SRC 0 drives the pin low (R361). -/
def Chip.ppsCfg (c : Chip) : Chip :=
  (if c.fld Reg.TTU_PPSOUT_CFG 2 0 = 0 then c.onTtu fun t => { t with ppsTill := 0 } else c).ppsSkip

/-- A PPS_IN edge stamped with the local clock (R362). -/
def Chip.ppsIn (c : Chip) : Chip :=
  if c.bit Reg.TTU_PPSIN_CFG 0 then
    let t := clockNs c.ttu.lcl
    let c := if c.ttu.ppsInUnread then c.sticky Reg.TTU_PPSIN_STATUS 0x10000 else c
    let c := (c.wrPair Reg.TTU_PPSIN_SEC_LO (secOf t)).wrn Reg.TTU_PPSIN_NS (t % 1000000000)
    let c := c.setFld Reg.TTU_PPSIN_STATUS 15 0 ((c.fld Reg.TTU_PPSIN_STATUS 15 0 + 1) % 2 ^ 16)
    c.onTtu fun t => { t with ppsInUnread := true }
  else c

/-! ### Meanings -/

/-- TICK_OUT_PULSE. -/
def execTickOutPulse (s : State) : Host.Outcome State Fault Refusal := .next (s.act fun _ c => c.tickOutPulse)

/-- HOLDOVER: UPD_MS have elapsed since the last update (R355). -/
def execHoldover (d : Fin 2) (s : State) : Host.Outcome State Fault Refusal := .next (s.act fun _ c => c.domHold d)

/-- DOMAIN_LOST: HOLD_S have elapsed in HOLDOVER (R355). -/
def execDomainLost (d : Fin 2) (s : State) : Host.Outcome State Fault Refusal := .next (s.act fun _ c => c.domLose d)

/-- PPS_OUT_PULSE. -/
def execPpsOutPulse (edges : Nat) (s : State) : Host.Outcome State Fault Refusal :=
  .next (s.act fun _ c => (c.wait edges).ppsPulse)

/-- PPS_IN. -/
def execPpsIn (edges : Nat) (s : State) : Host.Outcome State Fault Refusal := .next (s.act fun _ c => (c.wait edges).ppsIn)

end Sys2Proof.Machine
end

