-- ==== Sys2Proof/Machine/Tick.lean ====
section
/-! DEFINITION. The scan tick (R46 to R58): a boundary closes the tick in progress, with its propose, arbitrate,
finalise, power and pack stages, and opens the next one with its snapshot; regrid gaps (R45), deadline misses
(R48, R58) and slots (R423). -/

namespace Sys2Proof.Machine

/-! ### What is still due (R39) -/

/-- Every step that was due in the tick in progress and that no command has taken: a layer's end or start, loop
transitions, level 1 iterations, PRI changes, the learned map's finalisation, and lanes out of time. -/
def Chip.takeDues (e : Env) (c : Chip) : Chip :=
  let c := (c.takeLayers e).takeLoopDues.takeL1.takePri.temperFinalise
  c.headList.foldl (fun (c : Chip) (h : Fin 64) => c.ulTimeout e h) c

/-! ### Proposals, spots and holds (R46, R48, R115, R164) -/

/-- Why a head is held in tick t before any plume decision: link-down, gated, an abort, or a propose miss. -/
def Chip.heldBefore (c : Chip) (h : Fin 64) (t : Nat) : Option Hold :=
  if c.hd[h].down then some .link
  else if c.gated h then some .gated
  else if c.scn.layer.any fun l => l.abortAt.any (· < t) then some .abort
  else if c.ttu.miss.prop.getLsbD h then some .miss
  else none

/-- One head's part in a tick: why it is held, or its proposal. -/
structure Part where
  head : Fin 64
  why : Option Hold
  prop : Option HeadTick

/-- The propose stage of every enabled head, on the committed state and the snapshot. -/
def Chip.propose (c : Chip) (t : Nat) : List Part :=
  c.headList.map fun h =>
    match c.heldBefore h t with
    | some w => ⟨h, some w, none⟩
    | none => ⟨h, none, some (c.headStep h t)⟩

/-- The spot that a head is in a tick, if it is one (R48, R164). -/
def Chip.spotOf (c : Chip) (p : Part) : Option Spot :=
  let x := c.hd[p.head]
  match p.prop, p.why with
  | some k, _ =>
    if k.on || (k.head.expo.isSome && k.head.edges.any (·.2)) then
      some ⟨p.head, k.p0.lsb, k.p3.lsb, x.pri, x.stamp⟩
    else none
  | none, some .miss => if x.lit then some ⟨p.head, x.pos.lsb, x.pos.lsb, x.pri, x.stamp⟩ else none
  | none, _ => none

/-- The response to an uncorrectable word that scrub found acts from this tick (R143). -/
def Head.ueDue (h : Head) (t : Nat) : Bool := h.latDue.any fun x => x.1 ≤ t

/-- What the finalise stage decides on a head: why it is held, if it is, whether the plume defers it (R167), and whether the
response to an uncorrectable lattice word falls into this tick (R143). -/
structure Ruling where
  why : Option Hold
  defer : Bool
  ue : Bool

/-- The ruling on a head: held for a plume deferral, a finalise miss or an uncorrectable lattice word, beside what held it
before. A head that is held reads no lattice word; the response to a word that scrub found waits for nothing. -/
def Chip.ruling (c : Chip) (ds : List (Spot × Verdict)) (ue : List (Fin 64 × Nat)) (p : Part) : Ruling :=
  let x := c.hd[p.head]
  let off : Bool := (verdictOf ds p.head).any (· != .active)
  let why := p.why.orElse fun _ => if off then some .defer else if c.ttu.miss.fin.getLsbD p.head then some .miss else none
  let bad := x.ueDue c.ttu.index || (why.isNone && x.bank.isReady && ue.any fun y => y.1 == p.head)
  ⟨if bad then why.orElse fun _ => some .ue else why, off, bad⟩

/-! ### Finalise -/

/-- An own slot begun by its head (R91). -/
def beginSlot : List Slot → List Slot
  | [] => []
  | s :: ss => if s.begun then s :: beginSlot ss else { s with begun := true } :: ss

/-- What a committed tick of a head brings to the layer: a Billet taken, started or ended, an exposure run
begun, a segment outside the area, and exposure (R87, R92, R138, R153, R161). -/
def Chip.settleHead (c : Chip) (h : Fin 64) (t : Nat) (k : HeadTick) : Chip :=
  let c := if k.took then c.onLayer fun l => { l with stage := { l.stage with
      queues := upd l.stage.queues h beginSlot, begun := upd l.stage.begun h (· + 1) } } else c
  let c := match k.started with
    | some b => c.onLayer fun l => l.onShared b fun x => if x.state = .claimed h then { x with state := .started h } else x
    | none => c
  let c := match k.expoOf with
    | some (b, trail, pred) => c.noteExpo b trail pred
    | none => c
  let c := match k.oob with
    | some w => ((c.wrn (Reg.SCN_FIELD_OOB_POS h) w).bump (Reg.SCN_FIELD_OOB_CNT h)).sticky (Reg.SCN_FIELD_FLAGS h) 0x1
    | none => c
  let c := if k.exposing then c.onLayer fun l => { l with tLast := some t } else c
  match k.ended with
  | some (b, shared, cause) => c.billetEnd h b shared cause
  | none => c

/-- The node at which a head read an uncorrectable lattice word. -/
def nodeOf (ue : List (Fin 64 × Nat)) (h : Fin 64) : Nat := ((ue.find? fun x => x.1 == h).map (·.2)).getD 0

/-- An uncorrectable lattice word in the active bank (R143): the head is held, its Billet ends as skipped, and the
bank becomes FAILED. -/
def Chip.latticeUE (c : Chip) (h : Fin 64) (node : Nat) : Chip :=
  let c := match c.hd[h].cur with
    | some k => (c.billetEnd h k.billet k.shared (some .ue)).onHead h fun x =>
        { x.endRun with cur := none, expo := none, relight := false, wait := 0, waitKind := .none }
    | none => c
  let was := (c.hd[h]).latDue.isSome
  let c := c.onHead h fun x => { x with latDue := none }
  if was then c
  else
    let b := (c.hd[h]).active
    (c.crbNote (nodeWord h b node)).bankFailed h b node

/-- One head's finalise stage: its proposal committed, or a held tick, with HOLD_DEFER set for every deferred head. -/
def Chip.finaliseHead (c : Chip) (t : Nat) (ue : List (Fin 64 × Nat)) (p : Part) (u : Ruling) : Chip :=
  match u.why, p.prop with
  | none, some k => (c.commitHead p.head t k).settleHead p.head t k
  | some w, _ =>
    let c := c.heldHead p.head t w
    let c := if u.defer then c.sticky (Reg.SCN_MOTION_FLAGS p.head) mfDEFER else c
    if u.ue then (c.sticky (Reg.SCN_MOTION_FLAGS p.head) mfMISS).latticeUE p.head (nodeOf ue p.head) else c
  | none, none => c

/-! ### Slots (R423) -/

/-- What R423 judges of a head in a tick: whether it has a slot at the snapshot, whether it then had a current
Billet, whether it had a settle or rest to execute, and the OFFERED Billets it requested. -/
structure SlotView where
  head : Fin 64
  slot : Bool
  cur : Bool
  rests : Bool
  asked : List Nat

/-- Billets OFFERED that a head is eligible for. -/
def Chip.openTo (c : Chip) (l : Layer) (h : Fin 64) : List Shared :=
  l.shared.filter fun x => (match x.state with | .offered _ => true | _ => false) &&
    (l.candidates x.billet).contains h && c.eligible l x h

/-- The slots of a tick of the running layer. -/
def Chip.slotViews (c : Chip) : List SlotView :=
  match c.scn.layer with
  | none => []
  | some l =>
    c.headList.filterMap fun (h : Fin 64) =>
      if l.ingot.headMask.getLsbD h && !c.hd[h].down && !c.gated h then
        let x := c.hd[h]
        let offers := c.openTo l h
        some ⟨h, !(l.ownLeft[h] == 0 && l.claimsOf h == 0 && offers.isEmpty), x.cur.isSome, decide (0 < x.wait),
          (offers.filter fun b => c.requests l b h).map (·.billet)⟩
      else none

/-- Whether the next own Billet of a head is ready, and whether there is one. -/
def Layer.ownReady (l : Layer) (h : Fin 64) : Bool × Bool :=
  match (l.stage.queues[h]).find? (!·.begun) with
  | some s => (s.ready, true)
  | none => (false, decide (l.stage.fetched[h] < (l.ingot.lists.getD h []).length))

/-- The class of a slot, as its SCN selection of R422: 0x10 retired, 0x11 wasted, 0x12 front-starved, 0x13
back-starved. `l0` is the layer as the tick's work began. -/
def Chip.slotClass (c : Chip) (l0 : Layer) (v : SlotView) (why : Option Hold) (lost stalled : Bool) : Nat :=
  let l := c.scn.layer.getD l0
  let idle := !v.cur && (c.hd[v.head]).cur.isNone
  let (ready, more) := l0.ownReady v.head
  if (why == some .miss && v.cur) || why == some .abort || why == some .ue || (lost && idle && !v.rests) then 0x11
  else if why == some .defer || stalled ||
      (idle && !ready && (l.claimsOf v.head != 0 || !(c.openTo l v.head).isEmpty)) then 0x13
  else if idle && more && !ready then 0x12
  else 0x10

/-- A shared Billet that the head requested has gone to another head. -/
def Chip.lostRequest (c : Chip) (v : SlotView) : Bool :=
  match c.scn.layer with
  | none => false
  | some l => l.shared.any fun x => v.asked.contains x.billet &&
      (match x.state with | .claimed g => g != v.head | _ => false)

/-! ### The end of a tick -/

/-- Paused Billets become withheld once every Billet is exposed, skipped, withheld or paused (R187). -/
def Chip.withholdPaused (c : Chip) : Chip :=
  match c.scn.layer with
  | none => c
  | some l =>
    let gs := c.headList.filter fun (h : Fin 64) => c.gated h && !c.hd[h].down && !l.lostHeads.getLsbD h
    let paused := (gs.map fun (h : Fin 64) => l.ownLeft[h] +
      (l.shared.filter fun x => decide (x.state = .started h)).length).sum
    if paused ≠ 0 ∧ l.exposed + l.skipped + l.withheld + paused = l.ingot.dirCount then
      gs.foldl (fun (c : Chip) (h : Fin 64) => c.withholdHead h) c
    else c

/-- The layer's end boundary, once it is known (R87, R338). -/
def Chip.noteEnd (c : Chip) (t : Nat) : Chip :=
  c.onLayer fun l =>
    match l.abortAt with
    | some a => { l with endAt := some (a + 4) }
    | none =>
      if l.endAt.isNone && l.allEnded then { l with endAt := some (max ((l.tLast.getD l.first) + 3) (t + 1)) } else l

/-- Whether the tick in progress has had a miss. -/
def Misses.any (m : Misses) : Bool := m.prop != 0 || m.arb.isSome || m.fin != 0 || m.pwr != 0 || m.axl != 0

/-- Bits set in a mask. -/
def ones {n : Nat} (x : BitVec n) : Nat := ((List.range n).filter fun i => x.getLsbD i).length

/-- The stage bitmap of TTU_MISS_STATUS. -/
def Misses.stages (m : Misses) : Nat :=
  b2n (m.prop != 0) + 2 * b2n m.arb.isSome + 4 * b2n (m.fin != 0) + 8 * b2n (m.pwr != 0) + 16 * b2n (m.axl != 0)

/-- The one deadline-miss event of a tick with misses (R58). How many heads an arbitrate miss affects is not stated: a
free value (DESIGN CHOICE, log entry 37). -/
def Chip.reportMisses (c : Chip) (t : Nat) : Chip :=
  let m := c.ttu.miss
  if !m.any then c
  else
    let (n, c) := if m.arb.isSome then c.draw 32 else (ones (m.prop ||| m.fin) + ones m.pwr + ones m.axl, c)
    c.raise blkTTU 0x002 .none sevWARN (t % 2 ^ 32) m.stages n

/-- TTU_OCC_LAST and TTU_OCC_MAX (R63). -/
def Chip.noteOcc (c : Chip) (occ : Nat) : Chip :=
  let miss := c.ttu.miss.any
  let x := if miss then c.deadline 2 else min occ (c.deadline 2)
  (c.wrn Reg.TTU_OCC_LAST (x + 2 ^ 31 * b2n miss)).wrn Reg.TTU_OCC_MAX (max (c.rdn Reg.TTU_OCC_MAX) x)

/-- The propose, arbitrate and finalise stages of tick t; the parts and holds of the heads are answered for the
slots. -/
def Chip.scanStages (c : Chip) (t : Nat) (ue : List (Fin 64 × Nat)) : Chip × List (Part × Ruling) :=
  let parts := c.propose t
  let spots := parts.filterMap c.spotOf
  let c := c.estimates.arbitrateClaims
  let ds := c.plumeVerdicts spots
  let c := c.recordPlume ds
  let hs := parts.map fun p => (p, c.ruling ds ue p)
  (hs.foldl (fun c x => c.finaliseHead t ue x.1 x.2) c, hs)

/-- The power stage of tick t: laser loops, axes with their phase loops, and the power chain (R46, R174). -/
def Chip.powerStage (e : Env) (c : Chip) (t : Nat) (late : BitVec 64) : Chip :=
  let c := c.headList.foldl (fun (c : Chip) (h : Fin 64) => c.powerLaser h t) c
  let c := (List.finRange 8).foldl (fun (c : Chip) (a : Fin 8) => ((c.closeAxis a).powerPhase a 0).powerPhase a 1) c
  c.headList.foldl (fun (c : Chip) (h : Fin 64) => c.powerChain e h t (late.getLsbD h)) c

/-- The pack stage: each lane launches the work of tick t at the boundary of t + 1 (R245). -/
def Chip.packStage (e : Env) (c : Chip) (t : Nat) (cuts : List (Fin 64 × Nat)) : Chip :=
  c.headList.foldl (fun (c : Chip) (h : Fin 64) =>
    (c.countQuiet h).laneBoundary e h (t + 1) ((cuts.find? (·.1 == h)).map (·.2))) c

/-- The slots of tick t counted (R423). -/
def Chip.countSlots (c : Chip) (l0 : Layer) (vs : List SlotView) (hs : List (Part × Ruling)) : Chip :=
  vs.foldl (fun (c : Chip) v =>
    if v.slot then
      let why := (hs.find? fun x => x.1.head == v.head).bind (·.2.why)
      let stalled := (c.lane[headLane v.head]).stall != 0
      c.tally blkSCN (c.slotClass l0 v why (c.lostRequest v) stalled) v.head 1
    else c) c

/-- The tick in progress runs to its end. -/
def Chip.closeTick (e : Env) (c : Chip) (i : TickIn) : Chip :=
  let t := c.ttu.index
  let c := ((c.takeDues e).crbReads e i.crb).temperWork e
  let vs := c.slotViews
  let l0 := c.scn.layer
  let (c, hs) := c.scanStages t i.ue
  let c := c.judgeSeams.withholdPaused.noteEnd t
  let c := c.powerStage e t i.late
  let c := ((c.pushCamHistory t).noteOcc i.occ).reportMisses t
  let c := c.packStage e t i.cuts
  let c := match l0 with
    | some l => c.countSlots l vs hs
    | none => c
  { c with scn := { c.scn with lastTick := t } }

/-! ### The start of a tick -/

/-- A REG_WRITE whose commit has been taken, or can no longer be, completes (R339). -/
def Chip.regCommitDone (e : Env) (c : Chip) (info1 : Option Nat) : Chip :=
  (List.finRange 256).foldl (fun (c : Chip) (r : Fin 256) =>
    match (c.ring r).cur with
    | some k =>
      match k.work with
      | .regCommit mask => c.finish e r k.desc (if mask = 0 then 0x00 else 0x50) (some mask) info1
      | _ => c
    | none => c) c

/-- The island's sample sets and supply of a tick; a set that is missing sets LINK_ERR (R260, R263, R272, R273). -/
def Chip.takeIsland (c : Chip) (i : TickIn) : Chip :=
  let ok := (List.range 8).all fun a => (List.range 2).all fun p => (((i.samples.getD a []).getD p []).length == 8)
  let c := { c with island := { c.island with samples := i.samples, linkOk := ok } }
  let c := (if ok then c else c.sticky Reg.HVI_ISL_FLAGS 0x4).takeVbus i.vbus
  (List.finRange 8).foldl (fun (c : Chip) (a : Fin 8) => c.axisSamples a (i.samples.getD a [])) c

/-- Tick t begins: its snapshot, and what a boundary takes (R47, R54, R183, R193, R356). -/
def Chip.openTick (e : Env) (c : Chip) (t : Nat) (i : TickIn) (regrid : Bool) : Chip :=
  let c := c.onTtu fun x => { x with index := t, inTick := true, gap := false, miss := ⟨0, none, 0, 0, 0⟩ }
  let c := ((c.pfCut.switchDomain t).judgeGrid t).takeTickOut
  let (due, late) := c.commitDue t
  let bits := if due then c.commitPend else 0
  let c := if late then c.commitLate.regCommitDone e none
    else if due then (c.commitTake t bits).regCommitDone e (some t) else c
  let c := (c.openRelease.takeIsland i).openLoops t
  let c := (List.finRange 8).foldl (fun (c : Chip) (a : Fin 8) => c.openAxis e a t (bitOf bits 3) regrid) c
  let c := c.headList.foldl (fun (c : Chip) (h : Fin 64) => c.snapshotLane h t) c
  let c := (c.landSlots.offer.fillArmed.noteGap).pmcBoundary t
  c.onMpc fun m => { m with pwrTick := c.pwrEn }

/-- TICK_BOUNDARY: the tick in progress ends and the next one begins, or the regrid gap does (R39, R45). -/
def Chip.tickBoundary (e : Env) (c : Chip) (i : TickIn) : Chip :=
  if c.ttu.gap then c
  else
    let c := { c with derr := i.errs }
    let was := c.ttu.inTick
    let c := if was then (c.closeTick e i).endOfTick i.len else c
    let t := if was then c.ttu.index + 1 else 0
    match c.ttu.regrid with
    | some r => (((c.switchDomain t).judgeGrid t).takeTickOut).beginGap r
    | none => c.openTick e t i false

/-- REGRID_GAP_END: the first tick of the new grid begins (R45). -/
def Chip.gapEnd (e : Env) (c : Chip) (i : TickIn) : Chip :=
  if !c.ttu.gap then c
  else
    let c := c.endOfGap
    let t := c.firstOfGrid
    let c := c.onTtu fun x => { x with regrid := none, anchored := true }
    let c := (c.clearCamHistory t).lanesRegrid e t
    let c := c.headList.foldl (fun (c : Chip) (h : Fin 64) => c.relimit h) c
    c.openTick e t i true

/-! ### Deadline misses (R48, R58) -/

/-- Misses of the tick in progress: flagged, and counted once for each block. The tick reports them as it ends. -/
def Chip.deadlineMiss (c : Chip) (m : MissSet) : Chip :=
  if !c.ttu.inTick then c
  else
    let on := BitVec.ofNat 64 (2 ^ c.heads - 1)
    let was := c.ttu.miss
    let now_ : Misses := ⟨was.prop ||| (m.prop &&& on), was.arb.orElse fun _ => m.arb, was.fin ||| (m.fin &&& on),
      was.pwr ||| (m.pwr &&& on), was.axl ||| m.axl⟩
    let c := (c.onTtu fun t => { t with miss := now_ }).sticky Reg.TTU_MISS_STATUS now_.stages
    let c := if (now_.prop ||| now_.fin) != 0 && (was.prop ||| was.fin) == 0 then c.bump Reg.TTU_MISS_CNT_SCN else c
    let c := if now_.arb.isSome && was.arb.isNone then c.bump Reg.TTU_MISS_CNT_SLD else c
    if (now_.pwr != 0 || now_.axl != 0) && was.pwr == 0 && was.axl == 0 then c.bump Reg.TTU_MISS_CNT_MPC else c

/-! ### Meanings -/

/-- TICK_BOUNDARY. -/
def execTickBoundary (i : TickIn) (s : State) : Host.Outcome State Fault Refusal := .next (s.act fun e c => c.tickBoundary e i)

/-- DEADLINE_MISS. -/
def execDeadlineMiss (m : MissSet) (s : State) : Host.Outcome State Fault Refusal := .next (s.act fun _ c => c.deadlineMiss m)

/-- REGRID_GAP_END. -/
def execRegridGapEnd (i : TickIn) (s : State) : Host.Outcome State Fault Refusal := .next (s.act fun e c => c.gapEnd e i)

/-- LAYER_START (R85). -/
def execLayerStart (s : State) : Host.Outcome State Fault Refusal := .next (s.act fun e c => c.takeLayers e)

/-- LAYER_END (R87). -/
def execLayerEnd (s : State) : Host.Outcome State Fault Refusal := .next (s.act fun e c => c.takeLayerEnd e)

/-- SLOT_READY (R91). -/
def execSlotReady (i : Fin 16) (billet : Nat) (errs : List DramErr) (s : State) : Host.Outcome State Fault Refusal :=
  .next (s.act fun e c => { c with derr := errs }.slotReady e i billet)

/-- COUNTER_WRAP (R421). -/
def execCounterWrap (b : Fin 19) (i : Fin 16) (s : State) : Host.Outcome State Fault Refusal :=
  .next (s.act fun _ c => c.counterWrap b i)

end Sys2Proof.Machine
end

