-- ==== Sys2Proof/Machine/Rings.lean ====
section
/-! DEFINITION. Rings as the host and the firmware run them: enable and disable (R323, R344), doorbells
(R324, R325), fetches (R328, R333), write-back (R326), interrupts (R329) and function resets (R344, R366). -/

namespace Sys2Proof.Machine

/-! ### Enable (R321 to R323) -/

/-- A ring that is enabled (R321). -/
def Ring.on (g : Ring) : Bool := g.state = .enabled || g.state = .error

/-- Another enabled ring has the same pipeline or port binding (R321). -/
def Chip.bindTaken (c : Chip) (r : Fin 256) : Bool :=
  let t := c.ringType r
  [3, 4, 6, 7].contains t &&
    (List.finRange 256).any fun k => k != r && (c.ring k).on && c.ringType k == t && c.ringBind k == c.ringBind r

/-- The areas of a ring: base and bytes, with the size that their alignment follows (R323). -/
def Chip.ringAreas (c : Chip) (r : Fin 256) : List (Nat × Nat) :=
  let n := c.ringSize r
  let t := c.ringType r
  (c.ringBase r, n * entrySize t) :: (if isStream t then [] else [(c.ringCq r, n * 16)])

/-- A byte range lies wholly in the Service region of R297. -/
def inService (a n : Nat) : Bool := 0x50000000 ≤ a && a + n ≤ 0x80000000

/-- The first condition of R323 that an enable fails, in the order listed; 0 where it is accepted. -/
def Chip.enableFails (c : Chip) (r : Fin 256) : Nat :=
  let t := c.ringType r
  let areas := c.ringAreas r
  if 7 < t ∨ ((t = 6 ∨ t = 7) ∧ 3 < c.ringBind r) ∨ c.bindTaken r then 1
  else if c.ringLog2 r < 4 ∨ 12 < c.ringLog2 r then 2
  else if areas.any fun a => a.1 % max 4096 a.2 != 0 then 3
  else if c.ringLoc r ≠ decide (c.ringOwner r ≠ 0) then 4
  else if c.ringLoc r && !(areas.all (fun a => inService a.1 a.2) && (c.ringWb r == 0 || inService (c.ringWb r) 16)) then 5
  else 0

/-- ENABLE written 1. Only a DISABLED ring is enabled: a ring in ERROR leaves it by a disable (R336), and one
that is DISABLING has work in progress (DEDUCED, log entry 23). -/
def Chip.ringEnable (c : Chip) (r : Fin 256) : Chip :=
  if (c.ring r).state ≠ .disabled then c
  else
    let k := c.enableFails r
    if k = 0 then c.onRing r fun g => { Ring.reset with state := .enabled, cursor := c.evr.next, rejCause := g.rejCause }
    else ((c.onRing r fun g => { g with rejCause := k }).sticky (Reg.HST_RING_FLAGS r) 0x1).hstFlag r 0x2 k

/-! ### Disable (R344) -/

/-- One descriptor not begun completes ABANDONED if a slot is free, and vanishes otherwise. -/
def Chip.abandon (e : Env) (c : Chip) (r : Fin 256) (idx : Nat) (irq : Bool) : Chip :=
  let g := c.ring r
  if g.held.isEmpty ∧ g.cqUsed < c.ringSize r then c.writeCompl e r ⟨idx, 0x56, irq, true, none, none⟩ else c

/-- Completions owed on a ring for layers and releases are detached. -/
def Chip.detach (c : Chip) (r : Fin 256) : Chip :=
  let keep (d : Option DescRef) : Option DescRef := d.filter fun x => x.ring != r.val
  { c with hst := { c.hst with leases := updAll c.hst.leases fun _ l =>
      { l with relRef := keep l.relRef, start := l.start.map fun x => { x with ref := keep x.ref } } } }

/-- ENABLE written 0. Posted buffers that hold nothing yet have not begun (DEDUCED, log entry 23). -/
def Chip.ringDisable (e : Env) (c : Chip) (r : Fin 256) : Chip :=
  let g := c.ring r
  if !g.on then c
  else
    let c := g.wait.foldl (fun c x =>
      match x.2, g.bufs.find? fun b => b.idx == x.1 with
      | some k, _ => if (c.ring r).held.isEmpty ∧ (c.ring r).cqUsed < c.ringSize r then c.writeCompl e r k else c
      | none, some b => c.abandon e r b.idx b.irq
      | none, none => c) c
    let c := g.fetched.foldl (fun c d => c.abandon e r d.idx d.irq) c
    let c := c.onRing r fun g => { g with
      state := .disabling, fetched := [], bufs := [], wait := [], held := [], owedLate := 0 }
    (c.detach r).ringIdle r

/-- A write of HST_RING_CTRL. -/
def Chip.ringCtrl (e : Env) (c : Chip) (r : Fin 256) (on : Bool) : Chip :=
  if on then c.ringEnable r else c.ringDisable e r

/-! ### Doorbells (R324, R325) -/

/-- DB_ERR: a doorbell write discarded. -/
def Chip.dbErr (c : Chip) (r : Fin 256) : Chip :=
  ((c.wrn Reg.HST_ERR_RING r).sticky (Reg.HST_RING_FLAGS r) 0x2).hstFlag r 0x1 0

/-- A new index lies no more than `room` past `from_`. -/
def within (from_ v : BitVec 16) (room : Nat) : Bool := decide ((v - from_).toNat ≤ room)

/-- Whether a doorbell write is taken: `second` at offset 0x004 of the ring's page. -/
def Chip.doorbellOk (c : Chip) (r : Fin 256) (second : Bool) (v : Word) : Bool :=
  let g := c.ring r
  let x := v.extractLsb' 0 16
  decide (g.state = .enabled) && v.toNat / 2 ^ 16 == 0 &&
    (if second then within g.cqHead x g.cqUsed
     else if isStream (c.ringType r) then within g.recCons x g.recUsed
     else within g.sqHead x (c.ringSize r))

/-- SQ_TAIL: new request entries. -/
def Chip.sqTail (c : Chip) (r : Fin 256) (v : Word) : Chip := c.onRing r fun g => { g with sqTail := v.extractLsb' 0 16 }

/-- CQ_HEAD: completion slots freed, and completions held back posted (R335). -/
def Chip.cqHead (e : Env) (c : Chip) (r : Fin 256) (v : Word) : Chip :=
  let c := c.onRing r fun g => { g with cqHead := v.extractLsb' 0 16 }
  Chip.releaseHeld e r (c.ring r).held.length c

/-- REC_CONS: record slots freed, and records that wait delivered (R409). -/
def Chip.recCons (e : Env) (c : Chip) (r : Fin 256) (v : Word) : Chip :=
  (c.onRing r fun g => { g with recCons := v.extractLsb' 0 16 }).pump e r

/-- A doorbell write that is taken. -/
def Chip.doorbell (e : Env) (c : Chip) (r : Fin 256) (second : Bool) (v : Word) : Chip :=
  if second then c.cqHead e r v
  else if isStream (c.ringType r) then c.recCons e r v
  else c.sqTail r v

/-! ### Fetches (R328, R333, R336) -/

/-- How many entries the next batch takes: at most 8, those that the doorbell covers, up to the area's end, and
while the completion ring has more free slots than completions owed. -/
def Chip.batch (c : Chip) (r : Fin 256) : Nat :=
  let g := c.ring r
  let n := c.ringSize r
  min (min 8 (g.sqTail - g.sqHead).toNat) (min (n - g.sqHead.toNat % n) (n - g.cqUsed - c.owed r))

/-- Entries taken into the engine. -/
def Chip.takeEntries (e : Env) (c : Chip) (r : Fin 256) (bs : List (List Byte)) : Chip :=
  (c.onRing r fun g => { g with
    fetched := g.fetched ++ bs.zipIdx.map fun x => ⟨(g.sqHead.toNat + x.2) % 2 ^ 16, x.1⟩
    sqHead := g.sqHead + BitVec.ofNat 16 bs.length
    wbPend := true }).look e r

/-- A request entry could not be read: it completes FETCH_ERR in its turn, and the ring enters ERROR (R336). -/
def Chip.fetchFailed (e : Env) (c : Chip) (r : Fin 256) : Chip :=
  let c := if (c.ring r).state = .enabled then (c.onRing r fun g => { g with state := .error }).ringIrq r else c
  c.takeEntries e r [[]]

/-- Entries read from device DRAM, in order, up to one that cannot be read. -/
def Chip.readEntries (e : Env) (r : Fin 256) : List Nat → Chip → Chip
  | [], c => c
  | a :: as, c =>
    let (c, x) := c.dramRead e reqHST a 32
    if x.ok then Chip.readEntries e r as (c.takeEntries e r [x.bytes]) else c.fetchFailed e r

/-- DESCRIPTOR_FETCH: one batch. Bus Master Enable is set when the engine reads host memory (log entry 24). -/
def Chip.fetch (e : Env) (c : Chip) (r : Fin 256) : Chip :=
  let g := c.ring r
  let n := c.batch r
  let a := c.ringBase r + 32 * (g.sqHead.toNat % c.ringSize r)
  if g.state ≠ .enabled ∨ isStream (c.ringType r) ∨ !g.held.isEmpty ∨ n = 0 then c
  else if c.ringLoc r then Chip.readEntries e r ((List.range n).map fun i => a + 32 * i) c
  else if readLimit ≤ c.hst.reads.length ∨ c.hst.reads.any fun x => x.ring == r.val && (match x.use with | .fetch _ _ => true | _ => false)
    then c
  else ({ c with hst := { c.hst with bme := true } }).hostRead r a (32 * n) (.fetch g.sqHead.toNat n)

/-! ### Write-back (R326) -/

/-- The write-back block of a ring. -/
def Chip.writeBack (e : Env) (c : Chip) (r : Fin 256) : Chip :=
  let g := c.ring r
  if c.ringWb r = 0 ∨ !g.wbPend ∨ !g.on then c
  else
    let tail := if isStream (c.ringType r) then g.recProd else g.cqTail
    (c.ringWrite e r (c.ringWb r) (leBytes 2 g.sqHead.toNat ++ leBytes 2 tail.toNat ++ leBytes 4 (c.ringStatus r) ++
      leBytes 8 c.ttu.index)).onRing r fun g => { g with wbPend := false }

/-! ### Interrupts and function resets (R329, R344) -/

/-- MSIX_MESSAGE: the spacing of a vector ends, and a condition that waited is delivered. -/
def Chip.spacingEnd (c : Chip) (v : Fin 64) : Chip :=
  let m : BitVec 64 := 1#64 <<< v.val
  let was := c.hst.waiting.getLsbD v
  let c := { c with hst := { c.hst with spacing := c.hst.spacing &&& ~~~m, waiting := c.hst.waiting &&& ~~~m } }
  if was then c.sendMsix v else c

/-- The message of a vector whose pending bit is set and which nothing masks any longer. -/
def Chip.unmasked (c : Chip) (v : Fin 64) : Chip :=
  if c.hst.pba.getLsbD v && !(c.hst.msix[v]).ctrl.getLsbD 0 && c.hst.msixOn && !c.hst.msixMask then
    ({ c with hst := { c.hst with pba := c.hst.pba &&& ~~~(1#64 <<< v.val) } }).irqVector v
  else c

/-- A write of the MSI-X table: `k` selects the word of the entry. A vector that is unmasked with its pending
bit set sends its message (R317, R329; PCIe base specification). -/
def Chip.msixWrite (c : Chip) (v : Fin 64) (k : Nat) (x : Word) : Chip :=
  let m := c.hst.msix[v]
  let m := match k with
    | 0 => { m with addrLo := x &&& 0xFFFFFFFC#32 }
    | 1 => { m with addrHi := x }
    | 2 => { m with data := x }
    | _ => { m with ctrl := x &&& 1#32 }
  ({ c with hst := { c.hst with msix := upd c.hst.msix v fun _ => m } }).unmasked v

/-- The word of an MSI-X table entry. -/
def MsixEntry.word (m : MsixEntry) (k : Nat) : Word :=
  match k with
  | 0 => m.addrLo
  | 1 => m.addrHi
  | 2 => m.data
  | _ => m.ctrl

/-- The PCIe function's domain is reset (R344, R366, R476). The link itself falls with every cause but an FLR and
a cleared Bus Master Enable. -/
def Chip.functionReset (e : Env) (c : Chip) (cause : FunctionReset) : Chip :=
  let c := (List.finRange 256).foldl (fun (c : Chip) (r : Fin 256) =>
    if c.ringOwner r = 0 then c.ringDisable e r else c) c
  let c := c.wr Reg.HST_BAR2_BASE (resetOf Reg.HST_BAR2_BASE)
  let c := { c with hst := { c.hst with
    msix := Hst.reset.msix, pba := 0, spacing := 0, waiting := 0, bme := false } }
  let c := if cause = .bmeClear then c else { c with hst := { c.hst with
    msixOn := true, msixMask := false, aborts := 0, aer := 0, aerFirst := 0 } }
  match cause with
  | .flr => c
  | .bmeClear => c
  | _ => { c with hst := { c.hst with linkUp := false, speed := 0, width := 0 } }

/-! ### Configuration space (R317, R319; PRESUMED, log entry 103) -/

/-- AER's uncorrectable errors that a read of the engine can meet: bits of its status register. -/
def aerPoisoned : Nat := 12
def aerTimeout : Nat := 14
def aerUnexpected : Nat := 16

/-- AER records an error, and its First Error Pointer the first of those standing. -/
def Chip.aerNote (c : Chip) (b : Nat) : Chip :=
  { c with hst := { c.hst with
      aer := c.hst.aer ||| BitVec.ofNat 32 (2 ^ b)
      aerFirst := if c.hst.aer.getLsbD c.hst.aerFirst then c.hst.aerFirst else b } }

/-- GLB_PART_ID (R3): PART, HEADS and STEP of the variant. -/
def Chip.partId (c : Chip) : Nat :=
  (if c.heads = 64 then 0x6440 else if c.heads = 32 then 0x6432 else 0x6416) + 2 ^ 16 * c.heads + 2 ^ 24

/-- A dword of the configuration header: 0, Device and Vendor ID; 1, Status; 2, class code and Revision ID. -/
def Chip.configWord (c : Chip) (k : Nat) : Word :=
  BitVec.ofNat 32 (match k with
    | 0 => Config.vendorId.toNat + 2 ^ 16 * (c.partId % 2 ^ 16)
    | 1 => 4 * b2n c.hst.bme + 2 ^ 28 * c.hst.aborts.toNat
    | _ => Config.revisionId.toNat + 2 ^ 8 * 0x118000)

/-- A configuration access that resets nothing. -/
def Chip.configAccess (c : Chip) (x : ConfigAccess) : Chip :=
  match x with
  | .header k => { c with rdata := c.configWord k }
  | .msixControl on mask =>
    (List.finRange 64).foldl (fun c v => c.unmasked v) { c with hst := { c.hst with msixOn := on, msixMask := mask } }
  | .aerStatus => { c with rdata := c.hst.aer }
  | .aerPointer => { c with rdata := BitVec.ofNat 32 c.hst.aerFirst }
  | .aerClear m => { c with hst := { c.hst with aer := c.hst.aer &&& ~~~m } }
  | .abortClear m => { c with hst := { c.hst with aborts := c.hst.aborts &&& ~~~m } }

/-- A TLP of the host shows the link up: its speed and width are the outside's (log entry 24). -/
def Chip.linkSeen (c : Chip) : Chip :=
  if c.hst.linkUp then c
  else
    let (s, c) := c.draw 2
    let (w, c) := c.draw 8
    { c with hst := { c.hst with linkUp := true, speed := s + 1, width := [1, 2, 4].getD (w % 3) 1 } }

/-- HST_STATUS as read. -/
def Hst.status (h : Hst) : Nat :=
  b2n h.linkUp + 2 * h.speed + 2 ^ 4 * h.width + 2 ^ 7 * b2n h.bme + 2 ^ 8 * min h.reads.length 256

/-! ### Meanings -/

/-- DESCRIPTOR_FETCH. -/
def execDescriptorFetch (r : Fin 256) (errs : List DramErr) (s : State) : Host.Outcome State Fault Refusal :=
  .next (s.act fun e c => ({ c with derr := errs }).fetch e r)

/-- WRITE_BACK. -/
def execWriteBack (r : Fin 256) (s : State) : Host.Outcome State Fault Refusal := .next (s.act fun e c => c.writeBack e r)

/-- MSIX_MESSAGE. -/
def execMsixMessage (v : Fin 64) (s : State) : Host.Outcome State Fault Refusal := .next (s.act fun _ c => c.spacingEnd v)

/-- FUNCTION_LEVEL_RESET, and the configuration accesses that reset nothing, for which the table has no row. -/
def execFunctionLevelReset (x : FunctionOp) (s : State) : Host.Outcome State Fault Refusal :=
  .next (s.act fun e c => match x with
    | .reset cause => c.functionReset e cause
    | .config a => c.linkSeen.configAccess a)

end Sys2Proof.Machine
end

