-- ==== Sys2Proof/Machine/Net.lean ====
section
/-! DEFINITION. Ethernet ports (R348, R349), timestamps (R350, R351, R359), one-step insertion (R360), and
the rings of frames (R343). -/

namespace Sys2Proof.Machine

def Chip.onEth (c : Chip) (p : Fin 4) (f : EthPort → EthPort) : Chip := { c with eth := upd c.eth p f }

/-- NET_PORT_FLAGS bits (R365). -/
def nfTXTS_OVF : Nat := 0x01
def nfONESTEP_SKIP : Nat := 0x02
def nfRX_NOBUF : Nat := 0x04
def nfRX_FCS : Nat := 0x08
def nfRX_LONG : Nat := 0x10
def nfTX_UE : Nat := 0x20
def nfLINK_LOST : Nat := 0x40
def nfLINK_CHG : Nat := 0x80

def Chip.netSticky (c : Chip) (p : Fin 4) (b : Nat) : Chip := c.sticky (Reg.NET_PORT_FLAGS p) b

def Chip.netOn (c : Chip) (p : Fin 4) : Bool := c.bit (Reg.NET_PORT_CTRL p) 0
def Chip.netCfg (c : Chip) (p : Fin 4) (i : Nat) : Bool := c.bit (Reg.NET_PORT_CFG p) i
def Chip.maxFrame (c : Chip) (p : Fin 4) : Nat := c.fld (Reg.NET_PORT_CFG p) 31 16

/-- TX_CORR and RX_CORR in ns (R350). -/
def Chip.txCorr (c : Chip) (p : Fin 4) : Int := signOf 16 (c.fld (Reg.NET_TS_CORR p) 15 0)
def Chip.rxCorr (c : Chip) (p : Fin 4) : Int := signOf 16 (c.fld (Reg.NET_TS_CORR p) 31 16)

/-- The ring of a type that serves a port. -/
def Chip.netRing (c : Chip) (type : Nat) (p : Fin 4) : Option (Fin 256) := c.camRing type p

/-! ### Frames as bytes -/

/-- Field of n bytes in network byte order. -/
def beAt (bs : List Byte) (lo n : Nat) : Nat := leNat (bytesAt bs lo n).reverse

/-- The bytes of a value in network byte order. -/
def beBytes (n x : Nat) : List Byte := (leBytes n x).reverse

/-- EtherType and the first byte after it, past one VLAN tag where one is allowed. -/
def etherType (bs : List Byte) : Nat × Nat :=
  if beAt bs 12 2 = 0x8100 then (beAt bs 16 2, 18) else (beAt bs 12 2, 14)

/-- How a frame carries a PTP message, and where its PTP header begins. -/
inductive PtpCarrier where
  | none
  | ether (at_ : Nat)
  | ipv4 (at_ udp : Nat)
  | ipv6 (at_ udp : Nat)
  deriving DecidableEq, Repr

/-- The carrier of a PTP message (R351, R360): EtherType 0x88F7, optionally after one VLAN tag, or UDP to
port 319 in an unfragmented IPv4 packet or after an IPv6 header (DEDUCED, log entry 25). -/
def ptpCarrier (bs : List Byte) : PtpCarrier :=
  let (t, o) := etherType bs
  if t = 0x88F7 then .ether o
  else if t = 0x0800 then
    let ihl := 4 * (beAt bs o 1 % 16)
    let udp := o + ihl
    if beAt bs o 1 / 16 = 4 ∧ 20 ≤ ihl ∧ beAt bs (o + 9) 1 = 17 ∧ beAt bs (o + 6) 2 % 2 ^ 14 = 0 ∧ beAt bs (udp + 2) 2 = 319 then
      .ipv4 (udp + 8) udp
    else .none
  else if t = 0x86DD then
    if beAt bs o 1 / 16 = 6 ∧ beAt bs (o + 6) 1 = 17 ∧ beAt bs (o + 42) 2 = 319 then .ipv6 (o + 48) (o + 40) else .none
  else .none

/-- Where a frame's PTP header begins, if it carries one that lies in the frame. -/
def PtpCarrier.start : PtpCarrier → Option Nat
  | .none => .none
  | .ether a => some a
  | .ipv4 a _ => some a
  | .ipv6 a _ => some a

/-- messageType of the PTP message that a frame carries. -/
def ptpType (bs : List Byte) : Option Nat :=
  match (ptpCarrier bs).start with
  | some a => if a < bs.length then some (beAt bs a 1 % 16) else none
  | none => none

/-- An event message: messageType 0x0 to 0x3 (R351). -/
def isPtpEvent (bs : List Byte) : Bool := (ptpType bs).any (· ≤ 3)

/-- Bytes replaced from a position on. -/
def putAt (bs : List Byte) (lo : Nat) (x : List Byte) : List Byte := bs.take lo ++ x ++ bs.drop (lo + x.length)

/-- The FCS of a frame in wire order (IEEE 802.3). -/
def fcs (bs : List Byte) : List Byte := leBytes 4 (crc32 bs)

/-! ### Receiving (R349 to R351) -/

/-- The MAC's address in wire order. -/
def Chip.macAddr (c : Chip) (p : Fin 4) : List Byte :=
  leBytes 4 (c.rdn (Reg.NET_MAC_LO p)) ++ leBytes 2 (c.rdn (Reg.NET_MAC_HI p))

/-- The PTP multicast addresses (R349). -/
def ptpAddrs : List (List Byte) :=
  [[0x01, 0x1B, 0x19, 0, 0, 0], [0x01, 0x80, 0xC2, 0, 0, 0x0E]]

/-- Whether the MAC accepts a destination (R349). -/
def Chip.macAccepts (c : Chip) (p : Fin 4) (dst : List Byte) : Bool :=
  dst == c.macAddr p || dst == List.replicate 6 0xFF || c.netCfg p 4 ||
    (c.netCfg p 5 && (dst.getD 0 0).getLsbD 0) || (c.netCfg p 6 && ptpAddrs.contains dst)

/-- A frame dropped and counted. -/
def Chip.rxDrop (c : Chip) (p : Fin 4) (flag : Nat) : Chip :=
  (c.bump (Reg.NET_RX_DROP_CNT p)).netSticky p flag

/-- The present instant on the local clock, corrected, in ns (R350). -/
def Chip.stamp (c : Chip) (corr : Int) : Nat := ((clockNs c.ttu.lcl : Int) + corr).toNat

/-- Speed in Mbit/s (R348). -/
def EthPort.mbits (x : EthPort) : Nat := match x.speed with | 0 => 10 | 1 => 100 | 2 => 1000 | _ => 2500

/-- The pause time in quanta of 512 bit times that an IEEE 802.3x PAUSE frame to this MAC asks for (PRESUMED, log entry
66). -/
def Chip.pauseOf (c : Chip) (p : Fin 4) (body : List Byte) : Option Nat :=
  if (body.take 6 == [0x01, 0x80, 0xC2, 0, 0, 0x01] || body.take 6 == c.macAddr p) && beAt body 12 2 == 0x8808 &&
    beAt body 14 2 == 1 then some (beAt body 16 2)
  else none

/-- A received frame, FCS included, as its reference plane passes (R349, R351; DESIGN CHOICE, log entry 64). -/
def Chip.receiveFrame (e : Env) (c : Chip) (p : Fin 4) (frame : List Byte) : Chip :=
  let body := frame.take (frame.length - 4)
  let pause := if c.netCfg p 3 then c.pauseOf p body else none
  if !c.netOn p || !(c.eth[p]).linkUp || !(pause.isSome || c.macAccepts p (frame.take 6)) then c
  else if frame.drop (frame.length - 4) ≠ fcs body then c.rxDrop p nfRX_FCS
  else if c.maxFrame p < frame.length then c.rxDrop p nfRX_LONG
  else if pause.isSome then
    c.onEth p fun x => { x with pauseTill := c.ttu.up + pause.getD 0 * 512 * edgesPerMs / (1000 * x.mbits) }
  else
    match c.netRing 7 p with
    | none => c.rxDrop p nfRX_NOBUF
    | some r =>
      match (c.ring r).bufs with
      | [] => c.rxDrop p nfRX_NOBUF
      | b :: bs =>
        let ts := c.netCfg p 7 || (c.netCfg p 6 && isPtpEvent body)
        let c := c.onRing r fun g => { g with bufs := bs }
        let (c, w) := c.ringWriteAs e reqNET r b.addr (body.take b.len)
        let st := if w ≠ 0 then w else if b.len < body.length then 0x54 else 0
        let c := if st = 0 then c else c.noteFailure r b.idx st
        let c := c.bump (Reg.NET_RX_FRAME_CNT p)
        let stamp := tsFormat (c.stamp (-(c.rxCorr p)))
        (c.post e r ⟨b.idx, st, b.irq, true, some (body.length % 2 ^ 16 + 2 ^ 16 * b2n ts),
          if ts then some stamp else none⟩).look e r

/-! ### Sending (R343, R349, R359, R360) -/

/-- The ring whose descriptor is in transmission on a port. -/
def Chip.txRing (c : Chip) (p : Fin 4) : Option (Fin 256 × Desc) :=
  (List.finRange 256).findSome? fun r =>
    match (c.ring r).cur with
    | some ⟨d, .netTx q true⟩ => if q = p.val then some (r, d) else none
    | _ => none

/-- A timestamp enters the transmit queue (R359). -/
def Chip.pushStamp (c : Chip) (p : Fin 4) (s : TxStamp) : Chip :=
  if (c.eth[p]).txts.length < 64 then c.onEth p fun x => { x with txts := x.txts ++ [s] }
  else (c.bump (Reg.NET_TXTS_DROP_CNT p)).netSticky p nfTXTS_OVF

/-- The domain whose time one-step insertion uses (R360). -/
def Chip.osDomain (c : Chip) (p : Fin 4) : Fin 2 :=
  match c.fld (Reg.NET_PORT_CFG p) 10 9 with
  | 1 => 0
  | 2 => 1
  | _ => c.ttu.act

/-- A Sync message as it leaves under ONE_STEP (R360): originTimestamp at the reference plane and twoStepFlag
cleared; over UDP on IPv4 its checksum 0. -/
def oneStep (bs : List Byte) (at_ : Nat) (udp : Option Nat) (ns : Nat) : List Byte :=
  let bs := putAt bs (at_ + 34) (beBytes 6 (secOf ns) ++ beBytes 4 (ns % 1000000000))
  let bs := putAt bs (at_ + 6) [(bs.getD (at_ + 6) 0) &&& 0xFD#8]
  match udp with
  | some u => putAt bs (u + 6) [0, 0]
  | none => bs

/-- One-step insertion of a frame, and whether ONESTEP_SKIP is set (R360). -/
def Chip.insert (c : Chip) (p : Fin 4) (bs : List Byte) : List Byte × Bool :=
  if !c.netCfg p 8 || ptpType bs != some 0 then (bs, false)
  else
    let ns := ((clockNs c.ttu.dom[c.osDomain p] : Int) + c.txCorr p).toNat
    match ptpCarrier bs with
    | .ether a => (oneStep bs a none ns, false)
    | .ipv4 a u => (oneStep bs a (some u) ns, false)
    | .ipv6 _ _ => (bs, true)
    | .none => (bs, false)

/-- The frame of a port passes the reference plane, as it enters transmission (R359, R360; DESIGN CHOICE, log entry 64):
a Sync message is modified, and a timestamp asked for is queued. -/
def Chip.passPlane (c : Chip) (p : Fin 4) : Chip :=
  match (c.eth[p]).tx with
  | none => c
  | some t =>
    if t.passed ∨ c.ttu.up < (c.eth[p]).pauseTill then c
    else
      let (bs, skip) := if t.bad then (t.bytes, false) else c.insert p t.bytes
      let c := if skip then c.netSticky p nfONESTEP_SKIP else c
      let c := if t.tsReq then c.pushStamp p ⟨t.tsId, c.stamp (c.txCorr p)⟩ else c
      c.onEth p fun x => { x with tx := some { t with bytes := bs, passed := true } }

/-- A frame is given to the port: padded to 60 bytes (the pad's bytes are open), or ended where its data is
uncorrectable. It enters transmission unless PAUSE holds it back. -/
def Chip.startTx (c : Chip) (r : Fin 256) (d : Desc) (p : Fin 4) (bytes : List Byte) (bad : Bool) : Chip :=
  let n := if bad then 0 else 60 - bytes.length
  let (pad, c) := c.draw (8 * n)
  let c := if bad then c.netSticky p nfTX_UE else c
  let t : TxFrame := ⟨bitOf (leAt d.bytes 6 1) 0, leAt d.bytes 8 2, bytes ++ leBytes n pad, bad, false⟩
  ((c.onEth p fun x => { x with tx := some t }).passPlane p).await r d (.netTx p true)

/-- The frame data of a NET_TX read from host memory, or found in device DRAM, is sent; a port that is down
discards it (R349). -/
def Chip.sendData (e : Env) (c : Chip) (r : Fin 256) (d : Desc) (p : Fin 4) (bytes : List Byte) (bad : Bool) : Chip :=
  if !c.netOn p || !(c.eth[p]).linkUp then c.finish e r d 0x52 (some (leAt d.bytes 8 2)) none
  else c.startTx r d p bytes bad

/-- The body fields of a NET_TX (R337). -/
def Desc.txLen (d : Desc) : Nat := leAt d.bytes 4 2

/-- Whether the fields of a NET_TX are in range (R337, R349). -/
def Chip.txFieldsOk (c : Chip) (d : Desc) (p : Fin 4) (loc : Bool) : Bool :=
  d.clean [(4, 6), (8, 9), (16, 23)] && decide (14 ≤ d.txLen ∧ d.txLen ≤ 9014) && decide (leAt d.bytes 6 1 ≤ 1) &&
    decide (d.txLen + 4 ≤ c.maxFrame p) && (!loc || decide (leAt d.bytes 16 8 + d.txLen ≤ 2 ^ 35))

/-- NET_TX (R343, R349). -/
def Chip.netTx (e : Env) (c : Chip) (r : Fin 256) (d : Desc) : Chip :=
  match inst? 4 (c.ringBind r) with
  | none => c.finish e r d 0x41 none none
  | some p =>
    let a := leAt d.bytes 16 8
    if !c.txFieldsOk d p (c.ringLoc r) then c.finish e r d 0x41 none none
    else if !c.netOn p || !(c.eth[p]).linkUp then c.finish e r d 0x52 (some (leAt d.bytes 8 2)) none
    else if c.ringLoc r then
      match firstRefused (mayRead reqNET) a d.txLen with
      | some x => (c.regionViol reqNET x false).finish e r d 0x45 (some (leAt d.bytes 8 2)) none
      | none =>
        let (c, bs, ok) := Chip.readUntilBad e reqNET (burstsOf a d.txLen) c
        c.sendData e r d p ((bs.drop (a % 128)).take d.txLen) (!ok)
    else (c.await r d (.netTx p false)).hostRead r a d.txLen (.frameData d.txLen)

/-- FRAME_TRANSMITTED: the frame in transmission has left the port. One that PAUSE held back enters transmission once its
time is over. -/
def Chip.frameSent (e : Env) (c : Chip) (p : Fin 4) : Chip :=
  let c := c.passPlane p
  match (c.eth[p]).tx, c.txRing p with
  | some t, some (r, d) =>
    if !t.passed then c
    else
      let f := if t.bad then (fcs t.bytes).map (~~~ ·) else fcs t.bytes
      let c := if t.bad then c else c.bump (Reg.NET_TX_FRAME_CNT p)
      let c := c.onEth p fun x => { x with tx := none, wire := t.bytes ++ f }
      c.finish e r d (if t.bad then 0x44 else 0x00) (some t.tsId) none
  | _, _ => c

/-! ### Link and port control -/

/-- The link goes down: a frame in transmission is truncated at a place that is open, and one that PAUSE held back is
discarded (R349). -/
def Chip.linkDown (e : Env) (c : Chip) (p : Fin 4) : Chip :=
  let x := c.eth[p]
  let c := if x.linkUp then c.netSticky p nfLINK_CHG else c
  let c := c.onEth p fun x => { x with linkUp := false, anDone := false, pauseTill := 0 }
  match x.tx, c.txRing p with
  | some t, some (r, d) =>
    if t.passed then
      let (n, c) := c.draw 14
      let c := c.onEth p fun x => { x with tx := none, wire := t.bytes.take n }
      (c.netSticky p nfLINK_LOST).finish e r d 0x52 (some t.tsId) none
    else (c.onEth p fun x => { x with tx := none }).finish e r d 0x52 (some t.tsId) none
  | _, _ => c

/-- The link comes up in the port's mode (R348): SPEED is the PHY's in SGMII. -/
def Chip.linkUp (c : Chip) (p : Fin 4) (speed : Fin 3) : Chip :=
  let mode := c.fld (Reg.NET_PORT_CFG p) 1 0
  if !c.netOn p || mode = 0 then c
  else
    let c := if (c.eth[p]).linkUp then c else c.netSticky p nfLINK_CHG
    c.onEth p fun x => { x with
      linkUp := true
      speed := if mode = 1 then 2 else if mode = 2 then speed.val else 3
      anDone := if mode = 1 then c.netCfg p 2 else mode = 2 }

/-- A write of NET_PORT_CTRL. -/
def Chip.netCtrl (e : Env) (c : Chip) (p : Fin 4) (v : Nat) : Chip :=
  let c := c.wrn (Reg.NET_PORT_CTRL p) (v % 2)
  if bitOf v 0 then c else c.linkDown e p

/-- NET_PORT_STATUS as read. -/
def EthPort.status (x : EthPort) : Nat :=
  b2n x.linkUp + 2 * x.speed + 2 ^ 3 * b2n x.anDone + 2 ^ 8 * x.txts.length

/-- POP: the head of the transmit timestamp queue is removed (R359). -/
def Chip.popStamp (c : Chip) (p : Fin 4) : Chip := c.onEth p fun x => { x with txts := x.txts.tail }

/-- The head of the transmit timestamp queue as NET_TXTS_ID, NS, SEC_LO and SEC_HI show it. -/
def EthPort.head (x : EthPort) (k : Nat) : Nat :=
  match x.txts with
  | [] => 0
  | t :: _ =>
    match k with
    | 0 => t.id % 2 ^ 16 + 2 ^ 31
    | 1 => t.t % 1000000000
    | 2 => secOf t.t % 2 ^ 32
    | _ => secOf t.t / 2 ^ 32

/-! ### Buffers (R343) -/

/-- FRAME_BUF and NET_RX: a buffer posted behind those that wait. -/
def Chip.postBuffer (e : Env) (c : Chip) (r : Fin 256) (d : Desc) (rx : Bool) : Chip :=
  let len := leAt d.bytes 4 4
  let a := leAt d.bytes 8 8
  let ok := d.clean [(4, 15)] && a % 64 == 0 && (!c.ringLoc r || decide (a + len ≤ 2 ^ 35)) &&
    (!rx || decide (64 ≤ len ∧ len ≤ 65535))
  if ok then (c.onRing r fun g => { g with bufs := g.bufs ++ [⟨d.idx, d.irq, a, len⟩], wait := g.wait ++ [(d.idx, none)] }).look e r
  else c.finish e r d 0x41 none none

/-! ### Meanings -/

/-- FRAME_BUF. -/
def execFrameBuf (r : Fin 256) (s : State) : Host.Outcome State Fault Refusal :=
  .next (s.act fun e c => c.begin r 0x40 fun d c => c.postBuffer e r d false)

/-- NET_TX. -/
def execNetTx (r : Fin 256) (errs : List DramErr) (s : State) : Host.Outcome State Fault Refusal :=
  .next (s.act fun e c => ({ c with derr := errs }).begin r 0x50 fun d c => c.netTx e r d)

/-- NET_RX. -/
def execNetRx (r : Fin 256) (s : State) : Host.Outcome State Fault Refusal :=
  .next (s.act fun e c => c.begin r 0x51 fun d c => c.postBuffer e r d true)

/-- RECEIVE_FRAME. -/
def execReceiveFrame (p : Fin 4) (bytes : List Byte) (edges : Nat) (s : State) : Host.Outcome State Fault Refusal :=
  .next (s.act fun e c => (c.wait edges).receiveFrame e p bytes)

/-- FRAME_TRANSMITTED. -/
def execFrameTransmitted (p : Fin 4) (edges : Nat) (s : State) : Host.Outcome State Fault Refusal :=
  .next (s.act fun e c => (c.wait edges).frameSent e p)

/-- LINK_LOST. -/
def execLinkLost (p : Fin 4) (s : State) : Host.Outcome State Fault Refusal := .next (s.act fun e c => c.linkDown e p)

/-- LINK_UP. -/
def execLinkUp (p : Fin 4) (speed : Fin 3) (s : State) : Host.Outcome State Fault Refusal :=
  .next (s.act fun _ c => c.linkUp p speed)

end Sys2Proof.Machine
end

