-- ==== Sys2Proof/Machine/Mem.lean ====
section
/-! DEFINITION. The memories as they are looked after: BAR2 (R320), patrol scrub (R305), refresh (R307), interval
checks and retraining (R308, R309), row-hammer protection (R310) and Crucible scrub (R314). -/

namespace Sys2Proof.Machine

/-! ### BAR2 (R320) -/

/-- The DRAM address that a BAR2 offset reaches. -/
def Chip.bar2Addr (c : Chip) (x : Nat) : Nat := c.fld Reg.HST_BAR2_BASE 4 0 * 2 ^ 30 + x

/-- A BAR2 memory write (R93, R298, R371): refused as a whole outside the rights, and without its guarded bytes. -/
def Chip.bar2Write (e : Env) (c : Chip) (x : Nat) (bs : List Byte) : Chip :=
  let c := c.linkSeen
  let a := c.bar2Addr x
  if bs.isEmpty then c
  else if !c.drc.initDone then c.regionViol reqBAR2 a true
  else
    match firstRefused (mayWrite reqBAR2) a bs.length with
    | some y => c.regionViol reqBAR2 y true
    | none =>
      let free (y : Nat) : Bool := (c.guardOf y).isNone
      let put := (c.noteLoading a bs.length).dramPut e reqBAR2 a free bs
      match firstRefused free a bs.length with
      | some y => put.guardDrop 0x1 y
      | none => put

/-- A BAR2 memory read: zeros outside the rights, and a poisoned completion on uncorrectable data (R298, R304). -/
def Chip.bar2Read (e : Env) (c : Chip) (x n : Nat) : Chip :=
  let c := c.linkSeen
  let a := c.bar2Addr x
  if !c.drc.initDone ∧ 0 < n then { c.regionViol reqBAR2 a false with rbytes := List.replicate n 0, rbad := false }
  else
    let (c, d) := c.dramRead e reqBAR2 a n
    { c with rbytes := d.bytes, rbad := !d.ok }

/-! ### Patrol scrub (R305) -/

/-- Bursts of device DRAM. -/
def scrubBursts : Nat := 2 ^ 28

/-- PATROL_SCRUB: the next burst is read; one that returns CE is written back. -/
def Chip.patrolScrub (e : Env) (c : Chip) : Chip :=
  if !c.bit Reg.DRC_SCRUB_CFG 31 || !c.drc.initDone then c
  else
    let a := 128 * c.drc.scrubPos
    let found := if c.burstHasErr a then c.decodeBurst e a else (some none, [])
    let c := (c.readBurst e reqScrub a true).1
    let c := match found with
      | (some (some _), bs) => c.issue (.dram a bs)
      | _ => c
    c.onDrc fun d =>
      if d.scrubPos + 1 = scrubBursts then { d with scrubPos := 0, scrubPasses := min (d.scrubPasses + 1) 0xFFFF }
      else { d with scrubPos := d.scrubPos + 1 }

/-! ### Refresh, checks and retraining (R307 to R309) -/

/-- DRC_FLAGS bits (R315). -/
def rfCHECK_DEFERRED : Nat := 0x008
def rfRETRAIN_DEFERRED : Nat := 0x010
def rfRH_THROTTLE : Nat := 0x020
def rfREFRESH_HOT : Nat := 0x100

def Chip.onChan (c : Chip) (k : Fin 2) (f : DramChan → DramChan) : Chip :=
  c.onDrc fun d => { d with chans := upd d.chans k f }

/-- REFRESH: the refresh-rate indication of a channel's devices as the refresh finds it. -/
def Chip.refresh (c : Chip) (k : Fin 2) (hot : Bool) : Chip :=
  if !(c.drc.chans[k]).up then c
  else
    let c := (c.onChan k fun x => { x with hot := hot }).tally blkDRC 0x12 k 1
    if hot then c.sticky Reg.DRC_FLAGS rfREFRESH_HOT else c

/-- DQS_CHECK: the drift measured, in ps, is taken up, or the check is deferred. A channel that the retraining in progress still
has before it raises no further need (DEDUCED, log entry 100). -/
def Chip.dqsCheck (c : Chip) (k : Fin 2) (drift : Int) : Chip :=
  if !(c.drc.chans[k]).up then c
  else if c.scn.layer.isSome && decide (c.fld Reg.DRC_TRAIN_CFG 7 0 < 110) then c.sticky Reg.DRC_FLAGS rfCHECK_DEFERRED
  else
    let c := c.onChan k fun x => { x with drift := satS 16 (x.drift + drift) }
    if c.fld Reg.DRC_TRAIN_CFG 15 8 < (c.drc.chans[k]).drift.natAbs then
      let c := c.onDrc fun d => if d.training = some k.val ∨ d.trainLeft.contains k.val then d else { d with needed := true }
      if c.scn.layer.isSome then c.sticky Reg.DRC_FLAGS rfRETRAIN_DEFERRED else c
    else c

/-- FULL_RETRAINING: a needed retraining of both channels, at most 1.5 ms each, begins in a layer gap, unless an ARMED start tick
would fall within 5 ms of its end: it is then held off until the next gap. From then on none waits. -/
def Chip.fullRetraining (c : Chip) : Chip :=
  let c := c.noteGap
  if c.drc.needed && c.drc.training.isNone && c.layerGap && !c.drc.heldOff then
    c.onDrc fun d => { d with training := some 0, trainLeft := [1], needed := false }
  else c

/-- The DRAM_ECS events of a channel, position by position (R303). -/
def Chip.reportEcs (c : Chip) (k : Nat) (counts : List Nat) : Chip :=
  ((List.range 10).map fun i => (i, counts.getD i 0)).foldl
    (fun (c : Chip) (x : Nat × Nat) => c.raise blkDRC 0x007 (.other k) sevINFO x.1 x.2 0) c

/-- FULL_RETRAINING_DONE: the channel in training is done, with the counts its devices report. -/
def Chip.retrainingDone (c : Chip) (counts : List Nat) : Chip :=
  match c.drc.training with
  | none => c
  | some k =>
    match inst? 2 k with
    | none => c
    | some k =>
      let c := (c.onChan k fun x => { x with drift := 0 }).reportEcs k counts
      c.onDrc fun d =>
        match d.trainLeft with
        | j :: js => { d with training := some j, trainLeft := js }
        | [] => { d with training := none }

/-- DRC_STATUS as read. -/
def Chip.drcStatus (c : Chip) : Nat :=
  let d := c.drc
  b2n d.initDone + 2 * b2n (d.chans[(0 : Fin 2)]).up + 4 * b2n (d.chans[(1 : Fin 2)]).up + 8 * b2n c.layerGap +
    16 * b2n d.training.isSome + 32 * b2n d.needed

/-- DRC_SCRUB_STATUS and DRC_CH_STATUS as read. -/
def Drc.scrubStatus (d : Drc) : Nat := d.scrubPasses + 2 ^ 16 * (d.scrubPos * 2 ^ 16 / scrubBursts)
def DramChan.status (x : DramChan) : Nat := b2n x.up + 2 * b2n x.hot + 2 ^ 16 * unsOf 16 x.drift

/-! ### Row-hammer protection (R310) -/

/-- The requester with the most activations; ties go to the lower ID. Scrub is never counted. -/
def topRequester (acts : List (Fin 32 × Nat)) : Option Nat :=
  ((List.range 32).foldl (fun (m : Option (Nat × Nat)) q =>
    let n := ((acts.filter fun x => x.1.val == q && q != reqScrub).map (·.2)).sum
    match m with
    | none => if 0 < n then some (q, n) else none
    | some (_, k) => if k < n then some (q, n) else m) none).map (·.1)

/-- RH_THROTTLE: the activations of a bank in the window, by requester, have reached THRESH. A bank throttles once
in a window. -/
def Chip.rhThrottle (c : Chip) (k : Fin 2) (bank : Fin 32) (acts : List (Fin 32 × Nat)) : Chip :=
  let n := ((acts.filter fun x => x.1.val != reqScrub).map (·.2)).sum
  let on := c.bit Reg.DRC_RH_CFG 31 && (c.drc.chans[k]).up && decide (c.fld Reg.DRC_RH_CFG 15 0 ≤ n) &&
    !(c.drc.chans[k]).throttled.any (·.1 == bank.val)
  match topRequester acts, on with
  | some q, true =>
    let c := c.onChan k fun x => { x with
      throttled := x.throttled ++ [(bank.val, q)]
      acts := (x.acts.filter fun y => y.1.1 != bank.val) ++ acts.map fun y => ((bank.val, y.1.val), y.2) }
    let c := (c.bump (Reg.DRC_CH_RH_CNT k)).wrn (Reg.DRC_CH_RH_LAST k) (q + 2 ^ 8 * bank)
    c.flag Reg.DRC_FLAGS (.other k) rfRH_THROTTLE q
  | _, _ => c

/-- RH_WINDOW_END. -/
def Chip.rhWindowEnd (c : Chip) (k : Fin 2) : Chip := c.onChan k fun x => { x with acts := [], throttled := [] }

/-! ### Crucible scrub (R314) -/

/-- CRUCIBLE_SCRUB: the next word. -/
def Chip.crucibleScrub (e : Env) (c : Chip) (w : CrbWord) : Chip :=
  (c.crbMeet e (8 * c.drc.crbPos) w).onDrc fun d =>
    if d.crbPos + 1 = crbWords then { d with crbPos := 0, crbPasses := min (d.crbPasses + 1) 0xFFFF }
    else { d with crbPos := d.crbPos + 1 }

/-! ### Meanings -/

/-- BAR2_WRITE. -/
def execBar2Write (x : BitVec 32) (bytes : List Byte) (errs : List DramErr) (s : State) : Host.Outcome State Fault Refusal :=
  .next (s.act fun e c => ({ c with derr := errs }).bar2Write e x.toNat bytes)

/-- BAR2_READ. -/
def execBar2Read (x : BitVec 32) (len : Nat) (errs : List DramErr) (s : State) : Host.Outcome State Fault Refusal :=
  .next (s.act fun e c => ({ c with derr := errs }).bar2Read e x.toNat len)

/-- PATROL_SCRUB. -/
def execPatrolScrub (errs : List DramErr) (s : State) : Host.Outcome State Fault Refusal :=
  .next (s.act fun e c => ({ c with derr := errs }).patrolScrub e)

/-- REFRESH. -/
def execRefresh (k : Fin 2) (hot : Bool) (s : State) : Host.Outcome State Fault Refusal := .next (s.act fun _ c => c.refresh k hot)

/-- DQS_CHECK. -/
def execDqsCheck (k : Fin 2) (drift : Int) (s : State) : Host.Outcome State Fault Refusal :=
  .next (s.act fun _ c => c.dqsCheck k drift)

/-- FULL_RETRAINING. -/
def execFullRetraining (s : State) : Host.Outcome State Fault Refusal := .next (s.act fun _ c => c.fullRetraining)

/-- FULL_RETRAINING_DONE. -/
def execFullRetrainingDone (counts : List Nat) (s : State) : Host.Outcome State Fault Refusal :=
  .next (s.act fun _ c => c.retrainingDone counts)

/-- RH_THROTTLE. -/
def execRhThrottle (k : Fin 2) (bank : Fin 32) (acts : List (Fin 32 × Nat)) (s : State) : Host.Outcome State Fault Refusal :=
  .next (s.act fun _ c => c.rhThrottle k bank acts)

/-- RH_WINDOW_END. -/
def execRhWindowEnd (k : Fin 2) (s : State) : Host.Outcome State Fault Refusal := .next (s.act fun _ c => c.rhWindowEnd k)

/-- CRUCIBLE_SCRUB. -/
def execCrucibleScrub (w : CrbWord) (s : State) : Host.Outcome State Fault Refusal :=
  .next (s.act fun e c => c.crucibleScrub e w)

end Sys2Proof.Machine
end

