-- ==== Sys2Proof/Machine/Reset.lean ====
section
/-! DEFINITION. Quiescence (R12 and each block's chapter), the reset domains (R366, R367, R476) and power-on
reset (R368, R370). -/

namespace Sys2Proof.Machine

/-! ### Quiescence -/

/-- No Ingot is ARMED or RUNNING: SCN and MPC are quiescent (R97, R197). -/
def Chip.scanQuiet (c : Chip) : Bool := c.scn.armed.isNone && c.scn.layer.isNone

/-- An axis is quiescent in DISABLED and FAULT (R261). -/
def Axis.quiet (x : Axis) : Bool := x.state = .disabled || x.state = .fault

/-- The island is quiescent while every axis is (R278). -/
def Chip.islandQuiet (c : Chip) : Bool := c.axis.toList.all (·.quiet)

/-- Whether the owner of an RWQ register is quiescent: `r` is the register's row, `a` its offset. -/
def Chip.quietFor (c : Chip) (r : RegRow) (a : Nat) : Bool :=
  let i := r.inst a
  match blockOf a with
  | 0 => c.glbQuiet
  | 2 => c.scanQuiet
  | 3 => c.scn.layer.isNone
  | 4 => c.scanQuiet
  | 5 => (inst? 16 i).all fun p => decide ((c.cam[p]).state = .off)
  | 6 => (inst? 76 i).all fun l => (c.lane[l]).quiescent
  | 7 => c.layerGap
  | 9 => (inst? 256 i).all fun k => decide ((c.ring k).state = .disabled)
  | 11 => (inst? 4 i).all fun p => !c.netOn p
  | 13 => if a < 0x110800 then (inst? 8 i).all fun x => (c.axis[x]).quiet else c.islandQuiet
  | 14 => (inst? 24 i).all fun p => decide ((c.port[p]).state = .off)
  | 17 => c.asy.isNone
  | _ => true

/-! ### Block reset (R367) -/

/-- Whether the block of a bit of SVC_BLK_RST is quiescent as R367 defines. -/
def Chip.resettable (c : Chip) (b : Nat) : Bool :=
  match b with
  | 0 => c.scanQuiet && c.axis.toList.all fun x => decide (x.state ≠ .moving ∧ x.state ≠ .homing)
  | 1 => c.scanQuiet
  | 2 => c.scn.layer.isNone
  | 3 => c.scanQuiet
  | 4 => c.cam.toList.all fun x => decide (x.state = .off)
  | 5 => c.lane.toList.all (·.quiescent)
  | 6 => (c.hst.rings.toList.all fun r => decide (r.state ≠ .enabled)) && c.scanQuiet
  | 7 => (List.finRange 4).all fun p => !c.netOn p
  | 8 => c.dsp.toList.all fun x => decide (x.state = .off)
  | 9 => c.islandQuiet
  | 10 => c.port.toList.all fun x => decide (x.state = .off)
  | 11 => true
  | _ => c.asy.isNone

/-- Every register that `p` selects returns to its reset value. -/
def Chip.resetRegs (c : Chip) (p : Nat → Bool) : Chip :=
  { c with
    regs := c.regs.filter fun x => !p x.1
    acts := c.acts.filter fun x => !p x.1
    staged := c.staged.filter fun x => !p x.off
    views := c.views.filter fun x => !p x.group }

/-- The AON state of an axis, kept through every reset: θ, floor(s) in its frame, HOMED and the enable state (R272, R476). -/
def Axis.retained (x : Axis) : Axis :=
  let s := asr x.s 32 * 2 ^ 32
  { Axis.reset with s := s, origin := s, theta := x.theta, homed := x.homed, enHeld := x.state.enabled }

/-- The SCN state of a head returns to its reset value, its plume state apart. -/
def Head.scnReset (h : Head) : Head :=
  { Head.reset with
    down := h.down, age := h.age, pri := h.pri, stamp := h.stamp, runCnt := h.runCnt, spot := h.spot,
    deferred := h.deferred, deferRun := h.deferRun, gainDue := h.gainDue, lossDue := h.lossDue }

/-- The plume state of a head returns to its reset value. -/
def Head.sldReset (h : Head) : Head :=
  { h with
    age := 0, pri := false, stamp := 0, runCnt := 0, spot := false, deferred := false, deferRun := 0,
    gainDue := false, lossDue := false }

/-- MPC returns to its reset state but for emission safety (R367). -/
def Mpc.blockReset (m : Mpc) : Mpc := { m with loops := Mpc.reset.loops, heads := Mpc.reset.heads, temper := Mpc.reset.temper }

/-- HST returns to its reset state; BAR2_BASE and MSI-X belong to the PCIe function (R89, R366, R382, R476). -/
def Hst.blockReset (h : Hst) : Hst := { h with rings := Hst.reset.rings, turn := 0, reads := [], readWait := [], leases := Hst.reset.leases }

/-- The reset of one quiescent block (R367, R476). -/
def Chip.blockReset (c : Chip) (b : Nat) : Chip :=
  match b with
  | 0 =>
    let t := c.ttu
    { c.resetRegs (fun a => 0x10000 ≤ a && a < 0x10100) with
      ttu := { Ttu.reset with
        lcl := t.lcl, dom := t.dom, up := t.up, since := t.since, frac := t.frac, act := t.act, selPend := t.selPend, domState := t.domState, good := t.good,
        inTick := t.inTick, ppsTill := t.ppsTill, ppsSec := t.ppsSec, ppsInUnread := t.ppsInUnread, noLock := t.noLock } }
  | 1 =>
    let c := c.resetRegs fun a => blockOf a == blkSCN
    { c with
      hd := updAll c.hd fun h x => { x.scnReset with lims := c.headLims h }
      mpc := { c.mpc with heads := updAll c.mpc.heads fun _ x => { x with refTrim := 0, trimNext := none } }
      scn := { c.scn with
        layerNo := 0, tick0 := 0, lastTick := 0, points := []
        loads := c.scn.loads.map fun x => { x with live := false } } }
  | 2 => { c.resetRegs (fun a => blockOf a == blkSLD) with hd := updAll c.hd fun _ h => h.sldReset }
  | 3 => { c.resetRegs (fun a => blockOf a == blkMPC && 0x50018 ≤ a) with mpc := c.mpc.blockReset }
  | 4 =>
    { c.resetRegs (fun a => blockOf a == blkCAM) with
      cam := Vector.replicate 16 Cam.reset
      camShared := { c.camShared with hist := [], bucket := bucketFull, bucketAt := c.ttu.up } }
  | 5 => { c.resetRegs (fun a => blockOf a == blkLNK) with lane := Vector.replicate 76 Lane.reset }
  | 6 =>
    { c.resetRegs (fun a => blockOf a == blkHST && a != Reg.HST_BAR2_BASE) with
      hst := c.hst.blockReset, reg := none
      scn := { c.scn with loads := c.scn.loads.map fun x => { x with owned := false } } }
  | 7 => { c.resetRegs (fun a => blockOf a == blkNET) with eth := Vector.replicate 4 EthPort.reset }
  | 8 => { c.resetRegs (fun a => blockOf a == blkDSP) with dsp := Vector.replicate 2 Dsp.reset }
  | 9 =>
    let c := c.resetRegs fun a => blockOf a == blkHVI
    { c with
      axis := updAll c.axis fun a x => { x.retained with lims := c.axLims a }
      island := ⟨c.island.powered, false, [], []⟩ }
  | 10 => { c.resetRegs (fun a => blockOf a == blkEFP) with port := Vector.replicate 24 Port.reset }
  | 11 => { c.resetRegs (fun a => blockOf a == blkPMC) with pmcPend := [], frozen := false }
  | _ => c.resetRegs fun a => blockOf a == blkASY && a < 0x150100

/-- A write of SVC_BLK_RST: each bit resets its block, or is refused because the block is not quiescent. The Bool
tells whether a bit was refused (DEDUCED, log entry 29). -/
def Chip.blkRst (c : Chip) (v : Nat) : Chip × Bool :=
  (List.range 13).foldl (fun (x : Chip × Bool) b =>
    if !bitOf v b then x
    else if x.1.resettable b then (x.1.blockReset b, x.2)
    else (x.1, true)) (c, false)

/-! ### Module reset (R366, R476) -/

/-- The registers held in AON: INC, ADJ of both domains, ACTIVE and EVR_PF_INFO (R476). -/
def Chip.aonRegs (c : Chip) (d : Chip) : Chip :=
  let d := [Reg.TTU_LCL_INC_LO, Reg.TTU_LCL_INC_HI, Reg.TTU_DOM_ADJ 0, Reg.TTU_DOM_ADJ 1, Reg.EVR_PF_INFO].foldl
    (fun (d : Chip) (a : Nat) => d.wr a (c.rd a)) d
  d.setFld Reg.TTU_DOM_SEL 0 0 c.ttu.act

/-- Every axis is as after a module power-up: POS_UNWATCHED set and HOMED cleared (R272, R366). -/
def Chip.axesUnwatched (c : Chip) : Chip :=
  (List.range 8).foldl (fun (c : Chip) (a : Nat) => c.sticky (Reg.HVI_AX_FLAGS a) xfPOS_UNWATCHED)
    { c with axis := updAll c.axis fun _ x => { x with homed := false } }

/-- EVR_PF_INFO of a power-fail flush that the reset ends (R414). -/
def Chip.pfInfo (c : Chip) : Chip :=
  if c.evr.pfFlush && c.evr.flushing then c.pfEnd else c

/-- The module reset itself: everything but AON, OTP and what the outside world still drives returns to its reset
value; device DRAM holds its reset contents. -/
def Chip.moduleReset (c : Chip) (cause : Nat) : Chip :=
  let c := c.pfInfo
  let d : Chip := { Chip.reset with
    heads := c.heads
    rdata := c.rdata
    rbytes := c.rbytes
    rbad := c.rbad
    fresh := c.fresh
    outbox := c.outbox ++ [.dramClear]
    evr := { Evr.reset with lg := c.evr.lg, pos := c.evr.pos, erased := c.evr.erased }
    ttu := { Ttu.reset with lcl := c.ttu.lcl, dom := c.ttu.dom, up := c.ttu.up, act := c.ttu.act }
    mpc := { Mpc.reset with estopA := c.mpc.estopA, estopB := c.mpc.estopB }
    axis := updAll c.axis fun _ x => x.retained
    island := ⟨c.island.powered, false, [], []⟩ }
  (c.aonRegs d).axesUnwatched.wrn Reg.SVC_RST_STATUS cause

/-! ### Loss of VAUX (R366, R412) -/

/-- Whether the NOR holds nothing but ones in [a, a + n). -/
def norBlank (e : Env) (a n : Nat) : Bool := !e.mem.nor.any fun x => a ≤ x.1 && x.1 < a + n

/-- The sectors of the log that are erased. -/
def logErased (e : Env) : BitVec 128 :=
  BitVec.ofNat 128 ((List.range 128).foldl (fun n k => if norBlank e (logBase + 65536 * k) 65536 then n + 2 ^ k else n) 0)

/-- The write position as R412 finds it: the first erased slot after the last written slot, in the sector before the
fully erased sector. -/
def findLogPos (e : Env) : Nat :=
  let v := logErased e
  match (List.range 128).find? fun k => !v.getLsbD k && v.getLsbD ((k + 1) % 128) with
  | none => 0
  | some k =>
    let last := ((List.range 2048).filter fun i => !norBlank e (logBase + 65536 * k + 32 * i) 32).foldl max 0
    (2048 * k + last + 1) % 262144

/-- Everything but OTP, memory contents of the NOR and the outside returns to its reset value. -/
def Chip.coldReset (e : Env) (c : Chip) : Chip :=
  let d : Chip := { Chip.reset with
    heads := c.heads
    rdata := c.rdata
    rbytes := c.rbytes
    rbad := c.rbad
    fresh := c.fresh
    outbox := c.outbox ++ [.dramClear]
    evr := { Evr.reset with pos := findLogPos e, erased := logErased e }
    mpc := { Mpc.reset with estopA := c.mpc.estopA, estopB := c.mpc.estopB }
    island := ⟨c.island.powered, false, [], []⟩ }
  d.axesUnwatched.wrn Reg.SVC_RST_STATUS 1

/-! ### Boot sources (R370) -/

/-- The sources that a value of BOOTSEL selects, in the order tried. -/
def bootSources (b : Nat) : List BootState :=
  match b with
  | 0 => [.bootA, .bootB]
  | 1 => [.bootB, .bootA]
  | 2 => [.bootMbox]
  | 3 => [.bootA, .bootB, .bootMbox]
  | 4 => [.bootMbox]
  | _ => []

def Chip.onSvc (c : Chip) (f : Svc → Svc) : Chip := { c with svc := f c.svc }

def BootState.code : BootState → Nat
  | .dramInit => 0
  | .bootA => 1
  | .bootB => 2
  | .bootMbox => 3
  | .fwRun => 5
  | .bootFail => 6

/-- SVC_START_STATUS as read. -/
def Svc.startStatus (x : Svc) : Nat :=
  x.boot.code + 2 ^ 4 * x.bootsel + 2 ^ 7 * b2n x.dramFail + 2 ^ 8 * x.source + 2 ^ 12 * x.resA + 2 ^ 16 * x.resB +
    2 ^ 20 * x.resMbox

/-- Boot begins: BOOTSEL is sampled, and RESET is recorded (R371, R403). An erase of the log that the reset cut
short begins again (R410). -/
def Chip.bootBegin (c : Chip) (bootsel : Nat) : Chip :=
  let c := c.onSvc fun x => { x with bootsel := bootsel, sources := bootSources bootsel, held := false }
  (c.raise blkSVC 0x009 .none sevINFO (c.rdn Reg.SVC_RST_STATUS) c.svc.startStatus 0).eraseAhead

/-- Whether every condition of R368 holds. -/
def powerGood (x : PowerSpan) : Bool := x.vaux && x.rails && x.pfailN && x.crystal

/-- Microseconds for which every condition has held at the end of some spans: a condition that fails restarts the count. -/
def goodFor (xs : List PowerSpan) : Nat := xs.foldl (fun n x => if powerGood x then n + x.us else 0) 0

/-- POWER_ON_RESET. What is reset depends on whether VAUX was lost; the reset is released once every condition has held for
10 ms. A power-fail reset is released by the same conditions, and its cause stands (R368, R369). -/
def Chip.powerOn (e : Env) (c : Chip) (bootsel : Fin 8) (spans : List PowerSpan) : Chip :=
  let c := if spans.any (!·.vaux) then c.coldReset e else c.moduleReset (if c.svc.held then c.rdn Reg.SVC_RST_STATUS else 1)
  if 10000 ≤ goodFor spans then c.bootBegin bootsel else c.onSvc fun x => { x with held := true }

/-- The reset that ends a power-fail sequence, held until R368 releases it. -/
def Chip.powerFailReset (c : Chip) : Chip := (c.moduleReset 2).onSvc fun x => { x with held := true }

/-- RAIL_FAULT (R440). A rail that leaves its range during a power-fail sequence ends it at once (R451). -/
def Chip.railFault (e : Env) (c : Chip) : Chip :=
  if c.svc.pfail then c.powerFailReset else (c.sticky Reg.MON_FLAGS nfRAIL_FAULT).powerFail e

/-- MODULE_RESET. That of a power-fail sequence is held until R368 releases it; one of SVC_RST_CTRL follows its
write. -/
def Chip.resetModule (c : Chip) (cause : ResetCause) (bootsel : Fin 8) : Chip :=
  match cause with
  | .powerFail => if c.svc.pfail then c.powerFailReset else c
  | .module => if c.svc.resetReq then (c.moduleReset 4).bootBegin bootsel else c
  | .jtag => (c.moduleReset 8).bootBegin bootsel

/-! ### Meanings -/

/-- POWER_ON_RESET. -/
def execPowerOnReset (bootsel : Fin 8) (spans : List PowerSpan) (s : State) : Host.Outcome State Fault Refusal :=
  .next (s.act fun e c => c.powerOn e bootsel spans)

/-- MODULE_RESET. -/
def execModuleReset (cause : ResetCause) (bootsel : Fin 8) (s : State) : Host.Outcome State Fault Refusal :=
  .next (s.act fun _ c => c.resetModule cause bootsel)

/-- PFAIL (R369). -/
def execPfail (s : State) : Host.Outcome State Fault Refusal := .next (s.act fun e c => c.powerFail e)

/-- RAIL_FAULT (R440). -/
def execRailFault (s : State) : Host.Outcome State Fault Refusal := .next (s.act fun e c => c.railFault e)

end Sys2Proof.Machine
end

