-- ==== Sys2Proof/Machine/Svc.lean ====
section
/-! DEFINITION. Boot and images (R371 to R375), OTP (R376), locks (R377), the lockstep pairs (R380, R381), the
mailbox (R383) and NOR operations (R386). -/

namespace Sys2Proof.Machine

/-! ### Images (R373 to R375) -/

/-- Where the image under check lies: a NOR slot's offset, or the mailbox image in DRAM. -/
inductive ImagePlace where
  | nor (off : Nat)
  | dram
  deriving DecidableEq, Repr

/-- The image under check, if one is. -/
def Svc.place (x : Svc) : Option ImagePlace :=
  match x.boot with
  | .bootA => some (.nor 0)
  | .bootB => some (.nor 0x1800000)
  | .bootMbox => if x.mboxGo.isSome then some .dram else none
  | _ => none

/-- Bytes of an image, up to the first that cannot be read, and whether all could. `norErr`: the image's first byte that
the NOR fails to give. -/
def Chip.imageRead (e : Env) (c : Chip) (p : ImagePlace) (off n : Nat) (norErr : Option Nat) : Chip × List Byte × Bool :=
  match p with
  | .nor o =>
    let m := match norErr with
      | some k => if off ≤ k then min n (k - off) else n
      | none => n
    (c, (List.range m).map (fun i => norByte e (o + off + i)), m == n)
  | .dram =>
    let (c, d) := c.checkRead e (reqPair 0) (0x80000000 + off) n
    (c, d.bytes, d.ok)

/-- Fields of the image header (R374). -/
def imgLen (h : List Byte) : Nat := leAt h 8 4
def imgSecVer (h : List Byte) : Nat := leAt h 12 4
def imgKey (h : List Byte) : Nat := leAt h 16 1
def imgLocks (h : List Byte) : Nat := leAt h 17 1
def imgLoad (h : List Byte) : Nat := leAt h 24 8
def imgEntry (h : List Byte) : Nat := leAt h 32 8

/-- FORMAT (R375). -/
def imgFormatOk (h : List Byte) : Bool :=
  decide (leAt h 0 4 = 0x5746584D ∧ leAt h 4 2 = 0x0100 ∧ leAt h 6 2 = 512 ∧
    imgLen h % 4096 = 0 ∧ 4096 ≤ imgLen h ∧ imgLen h ≤ 25161728 ∧ imgLocks h < 128 ∧ leAt h 18 6 = 0 ∧
    imgLoad h % 4096 = 0 ∧ imgLoad h + imgLen h ≤ 0x40000000 ∧
    imgLoad h ≤ imgEntry h ∧ imgEntry h < imgLoad h + imgLen h) && (bytesAt h 184 232).all (· == 0)

/-- KEY (R375): the slot is programmed with the hash of PUBKEY, and not revoked. -/
def imgKeyOk (f : Fuses) (h : List Byte) : Bool :=
  match inst? 4 (imgKey h) with
  | none => false
  | some k =>
    match f.keys[k] with
    | none => false
    | some x => x == sha384 (bytesAt h 88 96) && !f.revoked.getLsbD k

/-- SIG (R375). -/
def imgSigOk (h : List Byte) : Bool :=
  ecdsaValid (beNat (bytesAt h 88 48)) (beNat (bytesAt h 136 48)) (beNat (bytesAt h 416 48)) (beNat (bytesAt h 464 48))
    (beNat (sha384 (bytesAt h 0 416)))

/-- The checks of R375 that the header decides: the first failing code, 0 where it passes. -/
def imgHeaderCode (f : Fuses) (h : List Byte) : Nat :=
  if !imgFormatOk h then 2
  else if !imgKeyOk f h then 3
  else if !imgSigOk h then 4
  else if imgSecVer h < f.minVer then 5
  else 0

/-- The result of a source recorded. -/
def Svc.record (x : Svc) (code : Nat) : Svc :=
  match x.boot with
  | .bootA => { x with resA := code }
  | .bootB => { x with resB := code }
  | _ => { x with resMbox := code }

/-- The next source, or BOOT_FAIL (R371). -/
def Svc.nextSource (x : Svc) : Svc :=
  match x.sources with
  | [] => { x with boot := .bootFail, mboxGo := none }
  | b :: bs => { x with boot := b, sources := bs, mboxGo := none }

/-- SOURCE of a boot state (R385). -/
def BootState.source : BootState → Nat
  | .bootA => 1
  | .bootB => 2
  | _ => 3

/-- The hand-off: the locks of R377 are applied and pair 0 starts at ENTRY (R371). -/
def Chip.handOff (c : Chip) (h : List Byte) : Chip :=
  let c := c.wrn Reg.SVC_IMG_VER (imgSecVer h)
  c.onSvc fun x => { x.record 1 with
    boot := .fwRun
    source := x.boot.source
    mboxGo := none
    locks := x.locks ||| 1#7 ||| BitVec.ofNat 7 (imgLocks h)
    runKey := inst? 4 (imgKey h)
    runVer := imgSecVer h
    startedAt := upd x.startedAt 0 fun _ => imgEntry h }

/-- IMAGE_CHECK (R375). The payload is copied as it is read: what a READ error cuts short stands in DRAM. An image whose
header cannot be read fails READ. -/
def Chip.imageCheck (e : Env) (c : Chip) (norErr : Option Nat) : Chip :=
  match c.svc.place with
  | none => c
  | some p =>
    let (c, h, ok) := c.imageRead e p 0 512 norErr
    let bad (c : Chip) (code : Nat) : Chip := c.onSvc fun x => (x.record code).nextSource
    if !ok then bad c 7
    else
      let k := imgHeaderCode e.fuses h
      if k ≠ 0 then bad c k
      else
        let (c, body, ok) := c.imageRead e p 0x1000 (imgLen h) norErr
        let c := (c.dramWrite e (reqPair 0) (imgLoad h) body).1
        if !ok then bad c 7
        else if sha384 body ≠ bytesAt h 40 48 then bad c 6
        else c.handOff h

/-- DRAM_TRAINED: whether each channel trained (R371). With no source to try, boot fails (R370). -/
def Chip.dramTrained (c : Chip) (ok0 ok1 : Bool) : Chip :=
  if c.svc.boot ≠ .dramInit ∨ c.svc.held then c
  else
    let c := c.onDrc fun d => { d with
      initDone := ok0 && ok1
      chans := (upd (upd d.chans 0 fun x => { x with up := ok0 }) 1 fun x => { x with up := ok1 }) }
    if ok0 && ok1 then c.onSvc (·.nextSource)
    else c.onSvc fun x => { x with dramFail := true, boot := .bootFail }

/-- MAILBOX_TIMEOUT: 120 s without GO (R370, R375). -/
def Chip.mailboxTimeout (c : Chip) : Chip :=
  if c.svc.boot = .bootMbox ∧ c.svc.mboxGo.isNone ∧ c.svc.bootsel ≠ 4 then c.onSvc fun x => (x.record 8).nextSource else c

/-! ### OTP (R376) -/

/-- An OTP command with its confirmation, from a requester that may give it: refused, or begun. -/
def Chip.otpCommand (e : Env) (c : Chip) (v : Nat) : Chip :=
  let k : Fin 4 := ⟨bitsOf v 5 4 % 4, by omega⟩
  let refuse := c.onSvc fun x => { x with otpRej := true }
  let go (o : OtpOp) : Chip := c.onSvc fun x => { x with otp := some o, otpRej := false }
  match v % 16 with
  | 1 => if c.svc.runKey.isNone then refuse else go (.minVer c.svc.runVer)
  | 2 => if c.svc.runKey = some k then refuse else go (.revoke k)
  | _ =>
    if (e.fuses.keys[k]).isSome then refuse
    else go (.program k ((List.range 12).flatMap fun i => leBytes 4 (c.rdn (Reg.SVC_OTP_KEYDATA i))))

/-- The OTP after a command (R376): every change is one way. -/
def Fuses.apply (f : Fuses) : OtpOp → Fuses
  | .minVer n => { f with minVer := max f.minVer n }
  | .revoke k => { f with revoked := f.revoked ||| (1#4 <<< k.val) }
  | .program k h => if (f.keys[k]).isSome then f else { f with keys := f.keys.set k (some h) }

/-- SVC_OTP_STATUS as read. -/
def Chip.otpStatus (e : Env) (c : Chip) : Nat :=
  let f := e.fuses
  ((List.finRange 4).map fun k => 2 ^ k.val * b2n (f.keys[k]).isSome).sum + 2 ^ 4 * f.revoked.toNat +
    2 ^ 8 * b2n c.svc.otp.isSome + 2 ^ 9 * b2n c.svc.otpRej + 2 ^ 16 * (f.minVer % 2 ^ 16)

/-! ### Pairs (R366, R380, R385) -/

/-- A pair halts: its rings are disabled, its latches and staging cleared and its interrupt lines masked. -/
def Chip.haltPair (e : Env) (c : Chip) (p : Fin 4) : Chip :=
  let c := (List.finRange 256).foldl (fun (c : Chip) (r : Fin 256) =>
    if c.ringOwner r = p.val + 1 then c.ringDisable e r else c) c
  let m : BitVec 4 := 1#4 <<< p.val
  { c.onSvc fun x => { x with running := x.running &&& ~~~m, masked := x.masked ||| m } with
    views := c.views.filter fun v => v.req != .pair p
    staged := c.staged.filter fun v => v.req != .pair p }

/-- PAIR_FAULT of a running pair. -/
def Chip.pairFault (e : Env) (c : Chip) (p : Fin 4) (cause : PairCause) : Chip :=
  if !c.svc.running.getLsbD p then c
  else
    let bits := 2 ^ (8 + p.val) + (match cause with | .mismatch => 2 ^ (12 + p.val) | .memUe => 2 ^ (16 + p.val))
    (c.haltPair e p).flag Reg.SVC_PAIR_STATUS (.other p) bits 0

/-- RUN of a halted pair: it starts at SVC_PAIR_ENTRY, with its register latches and staging as after a reset. -/
def Chip.runPair (c : Chip) (p : Fin 4) : Chip :=
  let m : BitVec 4 := 1#4 <<< p.val
  let at_ := c.rdPair Reg.SVC_PAIR_ENTRY_LO
  { c.onSvc fun x => { x with
      running := x.running ||| m, masked := x.masked &&& ~~~m, startedAt := upd x.startedAt p fun _ => at_ } with
    views := c.views.filter fun v => v.req != .pair p
    staged := c.staged.filter fun v => v.req != .pair p }

/-- A write of SVC_PAIR_CTRL: RUN bits first, then HALT bits; the Bool tells whether a RUN named a running pair. -/
def Chip.pairCtrl (e : Env) (c : Chip) (v : Nat) : Chip × Bool :=
  let x := (List.finRange 4).foldl (fun (x : Chip × Bool) (p : Fin 4) =>
    if !bitOf v p then x
    else if x.1.svc.running.getLsbD p then (x.1, true)
    else (x.1.runPair p, x.2)) (c, false)
  ((List.finRange 4).foldl (fun (c : Chip) (p : Fin 4) =>
    if bitOf v (8 + p.val) && c.svc.running.getLsbD p then c.haltPair e p else c) x.1, x.2)

/-- SVC_PAIR_STATUS and SVC_READY as read. -/
def Chip.pairStatus (c : Chip) : Nat := c.svc.running.toNat + 2 ^ 8 * c.fld Reg.SVC_PAIR_STATUS 19 8
def Chip.svcReady (c : Chip) : Nat :=
  b2n (c.svc.boot = .fwRun) + 2 * b2n (c.bit Reg.SVC_FW_STATUS 0) + 4 * b2n c.drc.initDone + 8 * b2n c.ttu.lock +
    16 * b2n c.pwrEn

/-! ### The mailbox (R383) -/

/-- Whether a requester is on the host's side of the mailbox. -/
def hostSide : Requester → Bool
  | .host => true
  | .jtag => true
  | .pair _ => false

/-- A write of SVC_MBOX_CTRL: OVF cleared, F2H_VEC and H2F_PAIR set, then the ACK and SEND that its writer may give. -/
def Chip.mboxCtrl (c : Chip) (q : Requester) (v : Nat) : Chip :=
  let c := if bitOf v 8 then c.clearBits Reg.SVC_MBOX_CTRL 0x100 else c
  let c := (c.setFld Reg.SVC_MBOX_CTRL 21 16 (bitsOf v 21 16)).setFld Reg.SVC_MBOX_CTRL 25 24 (bitsOf v 25 24)
  let h := hostSide q
  let sendH := h && bitOf v 0
  let sendF := !h && bitOf v 4
  let fullH := c.svc.h2fFull
  let fullF := c.svc.f2hFull
  let c := if (sendH && fullH) || (sendF && fullF) then c.sticky Reg.SVC_MBOX_CTRL 0x100 else c
  let c := if sendH && !fullH then
      c.irqLine ⟨c.fld Reg.SVC_MBOX_CTRL 25 24 % 4, by omega⟩ 63
    else c
  let c := if sendF && !fullF then c.irqVector (c.fld Reg.SVC_MBOX_CTRL 21 16) else c
  c.onSvc fun x => { x with
    h2fFull := (sendH || (x.h2fFull && !(!h && bitOf v 2)))
    f2hFull := (sendF || (x.f2hFull && !(h && bitOf v 6))) }

/-- SVC_MBOX_CTRL as read. -/
def Chip.mboxStatus (c : Chip) : Nat :=
  c.rdn Reg.SVC_MBOX_CTRL + 2 * b2n c.svc.h2fFull + 2 ^ 5 * b2n c.svc.f2hFull

/-! ### NOR operations (R386) -/

/-- NOR_ERR set. -/
def Chip.norErr (c : Chip) : Chip := c.sticky Reg.SVC_NOR_CTRL 0x8

/-- An erase of the sector at `a` touches the slot that holds the running image. -/
def Chip.runningSlot (c : Chip) (a : Nat) : Bool :=
  (c.svc.source == 1 && decide (a < 0x1800000)) || (c.svc.source == 2 && decide (0x1800000 ≤ a ∧ a < 0x3000000))

/-- An operation of SVC_NOR_CTRL begins, or is refused with NOR_ERR: misaligned, in the event log, on the running
slot, or with data that cannot be read. -/
def Chip.norOp (e : Env) (c : Chip) (q : Requester) (op : Nat) : Chip :=
  let a := c.fld Reg.SVC_NOR_ADDR 25 0
  if op = 1 then
    if a % 65536 ≠ 0 ∨ logBase ≤ a ∨ c.runningSlot a then c.norErr
    else c.onSvc fun x => { x with nor := some (.erase a) }
  else
    if a % 256 ≠ 0 ∨ logBase ≤ a then c.norErr
    else
      let p := match q with | .pair p => p.val | _ => 0
      let b := c.rdPair Reg.SVC_NOR_BUF_LO
      let readable := (firstRefused (mayRead (reqPair p)) b 256).isNone
      let (c, d) := c.dramRead e (reqPair p) b 256
      if !d.ok || !readable then c.norErr
      else c.onSvc fun x => { x with nor := some (.program a d.bytes) }

/-- NOR_OPERATION_DONE. What a failed operation leaves in its range is open. -/
def Chip.norDone (c : Chip) (ok : Bool) : Chip :=
  match c.svc.nor with
  | none => c
  | some o =>
    let c := c.onSvc fun x => { x with nor := none }
    match o, ok with
    | .erase a, true => c.issue (.norErase a 65536)
    | .program a bs, true => c.issue (.nor a bs)
    | .erase a, false =>
      let (x, c) := c.draw (8 * 65536)
      c.norErr.issue (.nor a (leBytes 65536 x))
    | .program a bs, false =>
      let (x, c) := c.draw (8 * bs.length)
      c.norErr.issue (.nor a (leBytes bs.length x))

/-- SVC_NOR_CTRL as read. -/
def Chip.norStatus (c : Chip) : Nat := c.rdn Reg.SVC_NOR_CTRL + 4 * b2n c.svc.nor.isSome

/-! ### Loads and stores of the pairs (R93, R304, R372, R381, R426) -/

/-- Whether a store of pair p lies inside one of its enabled store windows. -/
def Chip.inWindow (c : Chip) (p : Fin 4) (a n : Nat) : Bool :=
  (List.range 4).any fun w =>
    let size := c.fld (Reg.SVC_PWIN_SIZE p w) 5 0
    let base := c.rdPair (Reg.SVC_PWIN_BASE_LO p w) / 2 ^ size * 2 ^ size
    size != 0 && decide (base ≤ a ∧ a + n ≤ base + 2 ^ size)

/-- Whether a store touches the Firmware or the Service region. -/
def windowed (a n : Nat) : Bool :=
  decide (a < 0x40000000) || decide (a < 0x80000000 ∧ 0x50000000 < a + n)

/-- The outcome of a pair's access: its data, or an access fault of the pair. -/
def Chip.svcResult (c : Chip) (bs : List Byte) (fault : Bool) : Chip :=
  { c with rbytes := bs, rbad := fault, rdata := BitVec.ofNat 32 (leNat (bs.take 4)) }

/-- Bytes of the service scratchpad (R312). -/
def spadLen : Nat := 21 * 2 ^ 19

/-- A load or store of a running pair. -/
def Chip.svcAccess (e : Env) (c : Chip) (p : Fin 4) (x : SvcAccess) : Chip :=
  if !c.svc.running.getLsbD p then c
  else
    match x with
    | .load a n =>
      match firstRefused (mayRead (reqPair p)) a n with
      | some y => (c.regionViol (reqPair p) y false).svcResult (List.replicate n 0) false
      | none =>
        let (c, d) := c.dramRead e (reqPair p) a n
        if d.ok then c.svcResult d.bytes false else c.svcResult [] true
    | .store a bs =>
      if windowed a bs.length && !c.inWindow p a bs.length then c.svcResult [] true
      else
        match firstRefused (mayWrite (reqPair p)) a bs.length with
        | some y => (c.regionViol (reqPair p) y true).svcResult [] false
        | none =>
          match firstRefused (fun y => (c.guardOf y).isNone) a bs.length with
          | some y => (c.leaseViol 0x4 y).svcResult [] true
          | none => ((c.noteLoading a bs.length).dramPut e (reqPair p) a (fun _ => true) bs).svcResult [] false
    | .norLoad o n =>
      if c.svc.boot = .fwRun ∧ o + n ≤ 0x4000000 then c.svcResult ((List.range n).map fun i => norByte e (o + i)) false
      else c.svcResult [] true
    | .pmcLoad _ _ => c
    | .spadLoad o n errs =>
      let c := c.crbReads e errs
      if spadLen < o + n ∨ errs.any (fun x => x.found = .ue || x.found = .bothUe) then c.svcResult [] true
      else c.svcResult ((List.range n).map fun i => spadByte e (o + i)) false
    | .spadStore o bs => if spadLen < o + bs.length then c.svcResult [] true else (c.issue (.spad o bs)).svcResult [] false

/-! ### Meanings -/

/-- IMAGE_CHECK. -/
def execImageCheck (norErr : Option Nat) (errs : List DramErr) (s : State) : Host.Outcome State Fault Refusal :=
  .next (s.act fun e c => ({ c with derr := errs }).imageCheck e norErr)

/-- DRAM_TRAINED. -/
def execDramTrained (ok0 ok1 : Bool) (s : State) : Host.Outcome State Fault Refusal :=
  .next (s.act fun _ c => c.dramTrained ok0 ok1)

/-- MAILBOX_TIMEOUT. -/
def execMailboxTimeout (s : State) : Host.Outcome State Fault Refusal := .next (s.act fun _ c => c.mailboxTimeout)

/-- OTP_COMMAND_DONE: the command in progress takes effect and BUSY falls (R376). -/
def execOtpCommandDone (s : State) : Host.Outcome State Fault Refusal :=
  match s.chip.svc.otp with
  | none => .next s
  | some o =>
    .next { (s.act fun _ c => c.onSvc fun x => { x with otp := none }) with fuses := s.fuses.apply o }

/-- PAIR_FAULT. -/
def execPairFault (p : Fin 4) (cause : PairCause) (s : State) : Host.Outcome State Fault Refusal :=
  .next (s.act fun e c => c.pairFault e p cause)

/-- NOR_OPERATION_DONE. -/
def execNorOperationDone (ok : Bool) (s : State) : Host.Outcome State Fault Refusal :=
  .next (s.act fun _ c => c.norDone ok)

end Sys2Proof.Machine
end

