-- ==== Sys2Proof/Machine/Log.lean ====
section
/-! DEFINITION. The event log as it is written, read and cleared: flushes (R411), NOR operations (R410, R417,
R420), lost words (R416, R418) and reads (R419). -/

namespace Sys2Proof.Machine

/-- EVR_STATUS bits (R427). -/
def ebLOG_UE : Nat := 0x100
def ebNOR_ERR : Nat := 0x200
def ebLOST : Nat := 0x400

/-! ### Flushes -/

/-- A flush that is asked for: open records are committed and pending ones written (R407, R411). -/
def Chip.flushNow (e : Env) (c : Chip) : Chip :=
  if (c.norEn || c.evr.clrRam) && !c.evr.ramFailed && !c.evr.pfFlush then (c.commitOpens e).flushBegin e else c

/-- FLUSH_MS have passed since the oldest pending record was committed (R411). -/
def Chip.flushAge (e : Env) (c : Chip) : Chip := if c.evr.pending.isEmpty then c else c.flushNow e

/-- Coalescing windows that have ended (R407). -/
def Chip.coalWindowEnd (e : Env) (c : Chip) : Chip :=
  if c.evr.ramFailed then c
  else
    let was := c.evr.flushing
    (c.commitEnded e c.now).flushOpened e was

/-- An event that found the intake queue full (R406). -/
def Chip.intakeLost (c : Chip) : Chip :=
  if c.evr.ramFailed then c
  else ((c.bump Reg.EVR_LOST_CNT).sticky Reg.EVR_STATUS ebLOST).onEvr fun v => { v with lostPend := v.lostPend + 1 }

/-! ### NOR operations -/

/-- CLR_NOR begins once no other operation runs: sector 0 first, the write position at slot 0 (R420). -/
def Chip.clrNorBegin (c : Chip) : Chip :=
  if c.evr.clrNor && c.evr.erase.isNone && c.evr.prog.isNone then
    c.onEvr fun v => { v with pos := 0, erased := 0, erase := some (.all 0) }
  else c

/-- What follows an operation: CLR_NOR, the erase ahead and the flush go on. -/
def Chip.norNext (e : Env) (c : Chip) : Chip := (c.clrNorBegin.eraseAhead).flushStep e

/-- A failed program, verify or erase at a NOR offset (R417). -/
def Chip.norFail (c : Chip) (off kind : Nat) : Chip :=
  let c := if c.evr.pfFlush && c.evr.flushing then c.pfEnd else c
  let c := (c.sticky Reg.EVR_STATUS ebNOR_ERR).clearBits Reg.EVR_CTRL 0x1
  let c := c.onEvr fun v => { v with norFailed := true, recovering := false, flushing := false, prog := none, erase := none, clrNor := false }
  c.raise blkEVR 0x011 .none sevCRITICAL off kind 0

/-- The records of a verified page leave the last-gasp file and the pending ones. -/
def Evr.written (v : Evr) (page : List (Record × Bool)) : Evr :=
  let n := page.length
  { v with
    prog := none
    pos := (v.pos + n) % 262144
    erased := v.erased &&& ~~~(1#128 <<< (v.pos / 2048))
    lg := (page.filter (·.2)).foldl (fun l x => l.erase x.1) v.lg
    norNext := page.foldl (fun m x => if x.2 then m else max m (x.1.num + 1)) v.norNext
    pfWritten := if v.pfFlush then v.pfWritten + n else v.pfWritten }

/-- NOR_PAGE_PROGRAMMED: 0 programmed and verified, 1 the program failed, 2 the verify failed. What a failed page holds
is open. -/
def Chip.pageProgrammed (e : Env) (c : Chip) (res : Fin 3) : Chip :=
  let c := c.pfCut
  match c.evr.prog with
  | none => c
  | some page =>
    let off := logBase + 32 * c.evr.pos
    if res = 0 then
      let c := (c.issue (.nor off (page.flatMap fun x => recordBytes x.1))).onEvr (·.written page)
      let c :=
        if c.evr.recovering then c.onEvr fun v => { v with norFailed := false, recovering := false, flushing := true }
        else c
      c.norNext e
    else
      let (x, c) := c.draw (256 * page.length)
      (c.issue (.nor off (leBytes (32 * page.length) x))).norFail off res

/-- NOR_SECTOR_ERASED: the erase in progress is done, or has failed; one that a power-fail flush suspends is not done
(R410). -/
def Chip.sectorErased (e : Env) (c : Chip) (ok : Bool) : Chip :=
  match c.evr.erase, c.evr.pfFlush with
  | none, _ => c
  | some _, true => c
  | some x, false =>
    let k := match x with | .ahead k => k | .all k => k | .recover k => k
    let off := logBase + 65536 * k
    if !ok then c.norFail off 3
    else
      let c := (c.issue (.norErase off 65536)).onEvr fun v =>
        { v with erase := none, erased := v.erased ||| (1#128 <<< k) }
      match x with
      | .ahead _ => c.norNext e
      | .all k =>
        if k = 127 then (c.onEvr fun v => { v with clrNor := false }).norNext e
        else (c.onEvr fun v => { v with erase := some (.all (k + 1)) }).flushStep e
      | .recover k => ((c.onEvr fun v => { v with pos := 2048 * k, flushing := true }).eraseAhead).flushStep e

/-- A write of EVR_CTRL that is taken: NOR_EN, then FLUSH, CLR_RAM and CLR_NOR (R411, R417, R420). -/
def Chip.evrCtrl (e : Env) (c : Chip) (v : Nat) : Chip :=
  let c := c.wrn Reg.EVR_CTRL (v % 2)
  let c :=
    if bitOf v 0 && c.evr.norFailed && !c.evr.recovering then
      let k := (c.evr.pos / 2048 + 1) % 128
      c.onEvr fun x => { x with recovering := true, erase := some (.recover k), erased := x.erased &&& ~~~(1#128 <<< k) }
    else c
  let c := if bitOf v 2 then c.onEvr fun x => { x with clrRam := true } else c
  let c := if bitOf v 1 || bitOf v 2 then c.flushNow e else c
  if bitOf v 3 then (c.onEvr fun x => { x with clrNor := true }).clrNorBegin else c.eraseAhead.flushStep e

/-- Whether a write of EVR_CTRL is discarded (R420). -/
def Chip.evrCtrlBad (c : Chip) (v : Nat) : Bool :=
  (bitOf v 3 && c.evr.norFailed) || ((bitOf v 3 || bitOf v 0) && c.evr.ramFailed)

/-! ### Lost words (R416, R418) -/

/-- A RAM-ring word read with bits in error (R28, R416): one bit is corrected, for which R403 has no event, and more lose
the record of the word's absolute number (LOG_UE). -/
def Chip.logUe (c : Chip) (x : LogErr) : Chip :=
  let num := x.num
  if x.bits < 2 ∨ !c.evr.ram.any (·.num == num) then c
  else
    let c := c.sticky Reg.EVR_STATUS ebLOG_UE
    let c :=
      if c.evr.norFailed then c.onEvr fun v => { v with ramFailed := true }
      else c.onEvr fun v =>
        let ram := v.ram.filter fun r => r.num != num
        { v with ram := ram, lostNums := v.lostNums ++ [num], oldest := (ram.head?.map (·.num)).getD v.next }
    c.raise blkEVR 0x010 .none sevCRITICAL (num % 4096) num 0

/-! ### Reading (R415, R419) -/

/-- LG_POP: the oldest entry of the last-gasp file is removed. -/
def Chip.lgPop (c : Chip) : Chip := c.onEvr fun v => { v with lg := v.lg.tail }

/-- A write of EVR_RD_IDX: VALID reads 0 until the record is loaded. -/
def Chip.rdIdx (c : Chip) (v : Word) : Chip :=
  (c.wr Reg.EVR_RD_IDX v).onEvr fun x => { x with rdPend := true, rdNor := c.bit Reg.EVR_RD_CTRL 0, rdValid := false }

/-- RD_LOADED. -/
def Chip.rdLoaded (e : Env) (c : Chip) : Chip :=
  if !c.evr.rdPend then c
  else
    let i := c.rdn Reg.EVR_RD_IDX
    let (bs, stale) :=
      if c.evr.rdNor then ((List.range 32).map fun k => norByte e (logBase + 32 * (i % 262144) + k), false)
      else
        match c.evr.ram.find? fun r => r.num % 2 ^ 32 == i with
        | some r => (recordBytes r, false)
        | none => (List.replicate 32 0, true)
    c.onEvr fun v => { v with rdPend := false, rdRec := bs, rdValid := true, rdStale := stale }

/-- Word i of the bytes shown in EVR_RD_REC and EVR_LG_REC. -/
def Evr.rdWord (v : Evr) (i : Nat) : Nat := leAt v.rdRec (4 * i) 4
def Evr.lgWord (v : Evr) (i : Nat) : Nat :=
  match v.lg with
  | [] => 0
  | r :: _ => leAt (recordBytes r) (4 * i) 4

/-- EVR_STATUS [7:0] as read. -/
def Evr.status (v : Evr) : Nat :=
  b2n (v.prog.isSome || v.erase.isSome) + 2 * b2n v.clrNor + 4 * b2n v.ramFailed + 8 * b2n v.norFailed +
    16 * b2n (v.norFailed || v.ramFailed)

/-- EVR_CTRL as read: its requests while they last. -/
def Chip.evrCtrlRead (c : Chip) : Nat :=
  c.rdn Reg.EVR_CTRL + 2 * b2n c.evr.flushing + 4 * b2n c.evr.clrRam + 8 * b2n c.evr.clrNor

/-! ### Meanings -/

/-- COAL_WINDOW_END. -/
def execCoalWindowEnd (edges : Nat) (s : State) : Host.Outcome State Fault Refusal :=
  .next (s.act fun e c => (c.wait edges).coalWindowEnd e)

/-- INTAKE_LOST. -/
def execIntakeLost (s : State) : Host.Outcome State Fault Refusal := .next (s.act fun _ c => c.intakeLost)

/-- NOR_PAGE_PROGRAMMED. -/
def execNorPageProgrammed (res : Fin 3) (s : State) : Host.Outcome State Fault Refusal :=
  .next (s.act fun e c => c.pageProgrammed e res)

/-- NOR_SECTOR_ERASED. -/
def execNorSectorErased (ok : Bool) (s : State) : Host.Outcome State Fault Refusal :=
  .next (s.act fun e c => c.sectorErased e ok)

/-- LOG_UE. -/
def execLogUe (x : LogErr) (s : State) : Host.Outcome State Fault Refusal := .next (s.act fun _ c => c.logUe x)

/-- RD_LOADED. -/
def execRdLoaded (s : State) : Host.Outcome State Fault Refusal := .next (s.act fun e c => c.rdLoaded e)

end Sys2Proof.Machine
end

