-- ==== Sys2Proof/Machine/Live.lean ====
section
/-! DEFINITION. What a read of a register shows where the value is live (R479) or lies outside the register
file: status words, indices, clocks, bitmaps and the windows onto queues and tables. -/

namespace Sys2Proof.Machine

/-- A quantity of one unit, 0 where the number names none. -/
def onInst {n : Nat} (i : Nat) (f : Fin n → Nat) : Nat :=
  match inst? n i with
  | some k => f k
  | none => 0

/-- One word of a bitmap over the enabled heads. -/
def Chip.headMap (c : Chip) (p : Fin 64 → Bool) (hi : Bool) : Nat :=
  ((List.finRange 64).map fun (h : Fin 64) =>
    if c.headOn h ∧ (32 ≤ h.val) = hi ∧ p h then 2 ^ (h.val % 32) else 0).sum

/-- The half of a 64-bit value that a _LO or a _HI register shows. -/
def loWord (x : Nat) : Nat := x % 2 ^ 32
def hiWord (x : Nat) : Nat := x / 2 ^ 32 % 2 ^ 32

/-- An s32 as a word. -/
def word32 (x : Int) : Nat := unsOf 32 (satS 32 x)

/-! ### TTU (R63, R364) -/

def liveTtu (c : Chip) (r : RegRow) (a : Nat) : Nat :=
  let t := c.ttu
  let d : Fin 2 := if a < 0x10240 then 0 else 1
  let lcl := clockNs t.lcl
  let dom := clockNs t.dom[d]
  match r.name with
  | "TTU_TICK_CTRL" => b2n t.regrid.isSome
  | "TTU_TICK_STATUS" => c.fld a 12 8 * 2 ^ 8 + t.tickStatus
  | "TTU_TICK_INDEX_LO" => loWord t.index
  | "TTU_TICK_INDEX_HI" => hiWord t.index
  | "TTU_DEADLINE_A" => c.deadline 0
  | "TTU_DEADLINE_B" => c.deadline 1
  | "TTU_DEADLINE_C" => c.deadline 2
  | "TTU_LCL_SEC_LO" => loWord (secOf lcl)
  | "TTU_LCL_SEC_HI" => hiWord (secOf lcl)
  | "TTU_LCL_NS" => lcl % 1000000000
  | "TTU_LCL_FRAC" => t.lcl % nsUnit
  | "TTU_TIME_STATUS" => c.fld a 11 8 * 2 ^ 8 + t.timeStatus
  | "TTU_DOM_STATUS" => c.fld a 18 16 * 2 ^ 16 + t.domStatus d
  | "TTU_DOM_SEC_LO" => loWord (secOf dom)
  | "TTU_DOM_SEC_HI" => hiWord (secOf dom)
  | "TTU_DOM_NS" => dom % 1000000000
  | _ => c.rdn a

/-! ### SCN (R97, R125 to R127, R129, R150) -/

def BankState.code : BankState → Nat
  | .empty => 0 | .loading => 1 | .ready => 2 | .failed => 3

def Bank.shownId (b : Bank) : Nat := if b.isReady then b.latticeId else 0

/-- The staging that a head's registers describe: the running layer's, or else the armed Ingot's. -/
def Chip.shownStaging (c : Chip) : Option Staging :=
  match c.scn.layer with
  | some l => some l.stage
  | none => c.scn.armed.map (·.2)

def Chip.stageStatus (c : Chip) (h : Fin 64) : Nat :=
  match c.shownStaging with
  | none => 0
  | some g =>
    let q := g.queues[h]
    (q.filter (·.ready)).length + 2 ^ 5 * b2n (q.any fun s => !s.ready) + 2 ^ 8 * g.begun[h]

/-- Shared pool slots in use, those of an armed Ingot included. -/
def Chip.poolUsed (c : Chip) : Nat :=
  ((c.scn.layer.map fun l => l.stage.pool.length).getD 0) + ((c.scn.armed.map fun g => g.2.pool.length).getD 0)

def Chip.layerStatus (c : Chip) : Nat :=
  b2n c.scn.layer.isSome + 2 * b2n c.scn.armed.isSome + 2 ^ 4 * ((c.scn.layer.map fun l => l.lease.val).getD 0) +
    2 ^ 8 * ((c.scn.armed.map fun g => g.1.val).getD 0)

def liveScn (c : Chip) (r : RegRow) (a : Nat) : Nat :=
  onInst (n := 64) (r.inst a) fun h =>
    let x := c.hd[h]
    let flags (k : Fin 64) : Bool := c.rdn (Reg.SCN_MOTION_FLAGS k) != 0
    match r.name with
    | "SCN_MOTION_STATUS" => x.motionStatus
    | "SCN_VECTOR_ID" => x.vid
    | "SCN_POS_X" => word32 (asr x.pos.x 4)
    | "SCN_POS_Y" => word32 (asr x.pos.y 4)
    | "SCN_POS_Z" => word32 (asr x.pos.z 4)
    | "SCN_LAT_STATE" => (x.banks[0]).state.code + 4 * (x.banks[1]).state.code + 16 * x.active.val
    | "SCN_LAT_ID0" => (x.banks[0]).shownId
    | "SCN_LAT_ID1" => (x.banks[1]).shownId
    | "SCN_STAGE_STATUS" => c.stageStatus h
    | "SCN_LAYER_STATUS" => c.layerStatus
    | "SCN_LAYER_NO" => c.scn.layerNo
    | "SCN_LAYER_TICK0_LO" => loWord c.scn.tick0
    | "SCN_LAYER_TICK0_HI" => hiWord c.scn.tick0
    | "SCN_SHARED_STATUS" => c.poolUsed
    | "SCN_MOTION_SUM_LO" => c.headMap flags false
    | "SCN_MOTION_SUM_HI" => c.headMap flags true
    | _ => c.rdn a

/-! ### SLD (R173) -/

def ShState.isOffered : ShState → Bool
  | .offered _ => true
  | _ => false

def ShState.isClaimed : ShState → Bool
  | .claimed _ => true
  | _ => false

def Chip.sharedCount (c : Chip) (p : ShState → Bool) : Nat :=
  (c.scn.layer.map fun l => (l.shared.filter fun b => p b.state).length).getD 0

def Chip.sldStatus (c : Chip) : Nat :=
  c.sharedCount ShState.isOffered + 2 ^ 10 * c.sharedCount ShState.isClaimed +
    2 ^ 20 * (c.headList.filter fun h => (c.hd[h]).pri).length +
    2 ^ 31 * b2n ((c.scn.layer.map fun l => l.plume.en).getD false)

def Chip.sldHeadStatus (c : Chip) (h : Fin 64) : Nat :=
  let x := c.hd[h]
  x.rdShown + 2 ^ 24 * b2n x.more + 2 ^ 25 * b2n x.spot + 2 ^ 26 * b2n x.deferred + 2 ^ 27 * b2n x.pri +
    2 ^ 28 * b2n (x.down || c.gated h)

def Chip.sldHeadAge (c : Chip) (h : Fin 64) : Nat :=
  let x := c.hd[h]
  x.age + 2 ^ 8 * x.runCnt + 2 ^ 16 * ((c.scn.layer.map fun l => l.claimsOf h).getD 0)

def liveSld (c : Chip) (r : RegRow) (a : Nat) : Nat :=
  match r.name with
  | "SLD_STATUS" => c.sldStatus
  | "SLD_DEFER_LO" => c.headMap (fun h => (c.hd[h]).deferred) false
  | "SLD_DEFER_HI" => c.headMap (fun h => (c.hd[h]).deferred) true
  | "SLD_PRI_LO" => c.headMap (fun h => (c.hd[h]).pri) false
  | "SLD_PRI_HI" => c.headMap (fun h => (c.hd[h]).pri) true
  | "SLD_HEAD_STATUS" => if r.inst a < c.heads then onInst (r.inst a) c.sldHeadStatus else 0
  | "SLD_HEAD_AGE" => if r.inst a < c.heads then onInst (r.inst a) c.sldHeadAge else 0
  | _ => c.rdn a

/-! ### MPC (R197, R198) -/

def LoopState.code : LoopState → Nat
  | .open => 0 | .closed => 1 | .fbHold => 2 | .fbOpen => 3 | .gated => 4

def LoopState.lost (s : LoopState) : Bool := s = .fbHold || s = .fbOpen || s = .gated

def Chip.laserState (c : Chip) (h : Fin 64) : LoopState := (c.mpc.loops[laserLoop h]).state

def Chip.loopState (c : Chip) (m : Fin 128) : Nat :=
  let l := c.mpc.loops[m]
  l.state.code + 2 ^ 3 * b2n (l.cmd != 0) + 2 ^ 16 * unsOf 16 (l.trim (c.loopF32 m))

def liveMpcGlobal (c : Chip) (r : RegRow) (a : Nat) : Nat :=
  match r.name with
  | "MPC_SAFETY_STATUS" => c.safetyStatus
  | "MPC_WDOG_CFG" => c.fld a 9 0 + 2 ^ 31 * b2n c.mpc.armed
  | "MPC_LASER_STOP" => b2n c.mpc.stopping
  | "MPC_TMP_STATUS" => c.fld a 9 8 * 2 ^ 8 + c.mpc.temper.status
  | "MPC_GATED_LO" => c.headMap (fun h => c.laserState h = .gated) false
  | "MPC_GATED_HI" => c.headMap (fun h => c.laserState h = .gated) true
  | "MPC_FBLOST_LO" => c.headMap (fun h => (c.laserState h).lost) false
  | "MPC_FBLOST_HI" => c.headMap (fun h => (c.laserState h).lost) true
  | _ => c.rdn a

/-- The commanded pair of a head's last commit. -/
def Chip.pwrLast (c : Chip) (m : Nat) : Nat :=
  onInst (n := 64) m fun h => let p := (c.hd[h]).out.power; p.1 % 2 ^ 16 + 2 ^ 16 * (p.2 % 2 ^ 16)

def liveLoop (c : Chip) (r : RegRow) (a : Nat) : Nat :=
  onInst (n := 128) (r.inst a) fun m =>
    let l := c.mpc.loops[m]
    match r.name with
    | "MPC_LOOP_CMD" => l.cmd
    | "MPC_LOOP_STATE" => c.loopState m
    | "MPC_INTEG_LO" => loWord (unsOf 64 l.integ)
    | "MPC_INTEG_HI" => hiWord (unsOf 64 l.integ)
    | "MPC_PWR_LAST" => c.pwrLast m
    | "MPC_REF_TRIM" => onInst (n := 64) m fun h => unsOf 16 (c.mpc.heads[h]).refTrim
    | "MPC_L1_OUT" => word32 l.out
    | _ => c.rdn a

/-! ### CAM, LNK (R224, R226, R257, R258) -/

def liveCam (c : Chip) (r : RegRow) (a : Nat) : Nat :=
  onInst (n := 16) (r.inst a) fun p =>
    let k := c.cam[p]
    match r.name with
    | "CAM_STATUS" => k.status
    | "CAM_EXP_GEN" => k.lastGen + 2 ^ 16 * c.fld a 31 16
    | "CAM_EXP_STATE" => k.expState
    | "CAM_FRAME_SEQ" => k.seq % 2 ^ 32
    | "CAM_HEAD_MASK_LO" => c.rdn a % 2 ^ min c.heads 32
    | "CAM_HEAD_MASK_HI" => c.rdn a % 2 ^ (c.heads - 32)
    | _ => c.rdn a

def liveLnk (c : Chip) (r : RegRow) (a : Nat) : Nat :=
  match r.name with
  | "LNK_STATUS" => onInst (n := 76) (r.inst a) fun l => (c.lane[l]).status
  | "LNK_UP_LO" => c.laneMap (fun k => k.state = .active) false
  | "LNK_UP_HI" => c.laneMap (fun k => k.state = .active) true
  | "LNK_RETX_UNAV_LO" => c.laneMap (·.retx) false
  | "LNK_RETX_UNAV_HI" => c.laneMap (·.retx) true
  | "LNK_IDLE_LO" => c.laneMap (fun k => k.state = .idle || k.state = .exit) false
  | "LNK_IDLE_HI" => c.laneMap (fun k => k.state = .idle || k.state = .exit) true
  | _ => c.rdn a

/-! ### DRC, CRB, HST (R98, R315, R316, R346, R347) -/

def liveDrc (c : Chip) (r : RegRow) (a : Nat) : Nat :=
  match r.name with
  | "DRC_STATUS" => c.drcStatus
  | "DRC_SCRUB_STATUS" => c.drc.scrubStatus
  | "DRC_CH_STATUS" => onInst (n := 2) (r.inst a) fun k => (c.drc.chans[k]).status
  | "CRB_STATUS" => c.drc.crbPasses
  | _ => c.rdn a

def LeaseState.code : LeaseState → Nat
  | .free => 0 | .loading => 1 | .loaded => 2 | .armed => 3 | .running => 4

def Lease.status (l : Lease) : Nat := l.state.code + 2 ^ 3 * b2n l.relPend + 2 ^ 16 * (l.layerNo % 2 ^ 16)

def liveRing (c : Chip) (r : RegRow) (a : Nat) : Nat :=
  onInst (n := 256) (r.inst a) fun k =>
    let g := c.ring k
    let stream := isStream (c.ringType k)
    match r.name with
    | "HST_RING_CTRL" => b2n g.on
    | "HST_RING_STATUS" => c.ringStatus k
    | "HST_RING_SQ_IDX" =>
      if stream then g.recProd.toNat + 2 ^ 16 * g.recCons.toNat else g.sqHead.toNat + 2 ^ 16 * g.sqTail.toNat
    | "HST_RING_CQ_IDX" => g.cqTail.toNat + 2 ^ 16 * g.cqHead.toNat
    | _ => c.rdn a

def liveHst (c : Chip) (r : RegRow) (a : Nat) : Nat :=
  match r.name with
  | "HST_STATUS" => c.hst.status
  | "HST_LEASE_STATUS" => (c.hst.leases.toList.filter fun l => decide (l.state ≠ .free)).length
  | "HST_LEASE_BASE_LO" => onInst (n := 16) (r.inst a) fun i => loWord (c.hst.leases[i]).base
  | "HST_LEASE_BASE_HI" => onInst (n := 16) (r.inst a) fun i => hiWord (c.hst.leases[i]).base
  | "HST_LEASE_LEN" => onInst (n := 16) (r.inst a) fun i => (c.hst.leases[i]).len
  | "HST_LEASE_STATE" => onInst (n := 16) (r.inst a) fun i => (c.hst.leases[i]).status
  | _ => if 0xD1000 ≤ a then liveRing c r a else c.rdn a

/-! ### SVC, NET, DSP (R365, R385, R400) -/

def liveSvc (e : Env) (c : Chip) (r : RegRow) (a : Nat) : Nat :=
  match r.name with
  | "SVC_START_STATUS" => c.svc.startStatus
  | "SVC_LOCK" => c.svc.locks.toNat
  | "SVC_RST_CTRL" => b2n c.svc.resetReq
  | "SVC_PAIR_STATUS" => c.pairStatus
  | "SVC_READY" => c.svcReady
  | "SVC_BOOT_MBOX" => c.fld a 12 0 + 2 ^ 31 * b2n c.svc.mboxGo.isSome
  | "SVC_OTP_STATUS" => c.otpStatus e
  | "SVC_NOR_CTRL" => c.norStatus
  | "SVC_MBOX_CTRL" => c.mboxStatus
  | _ => c.rdn a

def liveNet (c : Chip) (r : RegRow) (a : Nat) : Nat :=
  onInst (n := 4) (r.inst a) fun p =>
    let x := c.eth[p]
    match r.name with
    | "NET_PORT_STATUS" => x.status
    | "NET_TXTS_ID" => x.head 0
    | "NET_TXTS_NS" => x.head 1
    | "NET_TXTS_SEC_LO" => x.head 2
    | "NET_TXTS_SEC_HI" => x.head 3
    | _ => c.rdn a

def liveDsp (c : Chip) (r : RegRow) (a : Nat) : Nat :=
  onInst (n := 2) (r.inst a) fun n =>
    match r.name with
    | "DSP_STATUS" => c.dspStatus n
    | "DSP_COMMIT" => b2n (c.dsp[n]).pend
    | _ => c.rdn a

/-! ### HVI, EFP (R277, R278, R291, R292) -/

def liveAxis (c : Chip) (r : RegRow) (a : Nat) : Nat :=
  onInst (n := 8) (r.inst a) fun k =>
    let x := c.axis[k]
    match r.name with
    | "HVI_AX_STATUS" => x.status
    | "HVI_AX_POS" => unsOf 32 (asr x.s 32)
    | "HVI_AX_VEL" => word32 (c.axVelocity k)
    | "HVI_AX_ANGLE" => x.theta % 1024 + 2 ^ 16 * (x.amp % 2 ^ 16)
    | _ => c.rdn a

def liveHvi (c : Chip) (r : RegRow) (a : Nat) : Nat :=
  match r.name with
  | "HVI_ISL_STATUS" => c.fld a 15 0 + 2 ^ 16 * b2n c.island.powered + 2 ^ 17 * b2n c.island.linkOk
  | "HVI_TAB_DATA" => unsOf 16 (c.microstep (c.fld Reg.HVI_TAB_ADDR 9 0))
  | _ => if a < 0x110800 then liveAxis c r a else c.rdn a

def liveEfp (c : Chip) (r : RegRow) (a : Nat) : Nat :=
  match r.name with
  | "EFP_STATUS" => onInst (n := 24) (r.inst a) fun p => (c.port[p]).status
  | "EFP_TRIPPED" => c.portsTripped
  | _ => c.rdn a

/-! ### EVR, PMC, ASY (R427, R428, R444) -/

def liveEvr (c : Chip) (r : RegRow) (a : Nat) : Nat :=
  let v := c.evr
  match r.name with
  | "EVR_CTRL" => c.evrCtrlRead
  | "EVR_STATUS" => c.fld a 13 8 * 2 ^ 8 + v.status
  | "EVR_RAM_PROD" => v.next % 2 ^ 32
  | "EVR_RAM_OLDEST" => v.oldest % 2 ^ 32
  | "EVR_NOR_POS" => v.pos
  | "EVR_RD_CTRL" => c.fld a 0 0 + 2 ^ 29 * b2n v.rdStale + 2 ^ 30 * b2n v.rdValid
  | "EVR_RD_REC" => v.rdWord (r.inst a)
  | "EVR_LG_STATUS" => v.lg.length
  | "EVR_LG_REC" => v.lgWord (r.inst a)
  | _ => c.rdn a

def livePmc (c : Chip) (r : RegRow) (a : Nat) : Nat :=
  match r.name with
  | "PMC_STATUS" => c.pmcStatus
  | "PMC_OVF_SUM" => c.ovfSum
  | _ => c.rdn a

/-- The value that a plain read of a register shows. -/
def Chip.live (e : Env) (c : Chip) (r : RegRow) (a : Nat) : Word :=
  if r.wo then 0
  else
    BitVec.ofNat 32 (match blockOf a with
      | 0 => if a = 0 then c.partId else c.rdn a
      | 1 => liveTtu c r a
      | 2 => liveScn c r a
      | 3 => liveSld c r a
      | 4 => if a < 0x58000 then liveMpcGlobal c r a else liveLoop c r a
      | 5 => if a < 0x90000 then liveCam c r a else c.rdn a
      | 6 => liveLnk c r a
      | 7 => liveDrc c r a
      | 8 => liveDrc c r a
      | 9 => liveHst c r a
      | 10 => liveSvc e c r a
      | 11 => liveNet c r a
      | 12 => liveDsp c r a
      | 13 => liveHvi c r a
      | 14 => liveEfp c r a
      | 15 => liveEvr c r a
      | 16 => livePmc c r a
      | 17 => if a = Reg.ASY_STATUS then c.asyStatus else c.rdn a
      | _ => c.rdn a)

end Sys2Proof.Machine
end

