-- ==== Sys2Proof/Machine/Range.lean ====
section
/-! DEFINITION. Which values a register write may carry (R12 and the field tables): the range of each field
that has one, and the conditions that relate fields. -/

namespace Sys2Proof.Machine

/-- A field `[hi:lo]` of a named register and the values it may take. -/
structure FieldRange where
  name : String
  hi : Nat
  lo : Nat
  min : Nat
  max : Nat
  deriving DecidableEq, Repr

/-- Ranges of the field tables, part 0. -/
def rangesPart0 : List FieldRange := [
  ⟨"CAM_CTRL", 2, 1, 0, 1⟩,
  ⟨"CAM_BIND", 5, 0, 42, 45⟩,
  ⟨"CAM_PHY_CFG", 11, 0, 80, 2500⟩,
  ⟨"CAM_PHY_CFG", 13, 12, 0, 2⟩,
  ⟨"CAM_GEOM", 12, 0, 1, 4096⟩,
  ⟨"CAM_GEOM", 28, 16, 1, 4096⟩,
  ⟨"CAM_PIX_CFG", 29, 16, 1, 16383⟩,
  ⟨"CAM_ROI_SIZE", 12, 0, 0, 4096⟩,
  ⟨"CAM_ROI_SIZE", 28, 16, 0, 4096⟩,
  ⟨"CAM_DEFECT_CFG", 5, 0, 0, 32⟩,
  ⟨"CAM_CCI_CFG", 11, 10, 0, 2⟩,
  ⟨"CAM_EXP_NS", 24, 0, 1, 33554431⟩,
  ⟨"CAM_EXP_CTRL", 3, 0, 0, 8⟩,
  ⟨"CAM_ID_CFG", 19, 16, 0, 8⟩,
  ⟨"CAM_DMA_BUDGET", 7, 0, 1, 60⟩,
  ⟨"EFP_CFG", 2, 0, 0, 5⟩,
  ⟨"EFP_CFG", 15, 8, 1, 255⟩,
  ⟨"EFP_GOV_CFG", 7, 0, 1, 250⟩,
  ⟨"EFP_GOV_CFG", 15, 8, 1, 105⟩,
  ⟨"EFP_GOV_CFG", 22, 16, 1, 66⟩,
  ⟨"HVI_AX_VMAX", 31, 0, 1, 50000000⟩,
  ⟨"HVI_AX_ACC", 31, 0, 1, 10000000⟩,
  ⟨"HVI_AX_DEC", 31, 0, 1, 10000000⟩,
  ⟨"HVI_AX_EDEC", 31, 0, 1, 10000000⟩,
  ⟨"HVI_AX_JERK", 31, 0, 1, 10000000⟩,
  ⟨"HVI_AX_CUR", 15, 0, 0, 20000⟩,
  ⟨"HVI_AX_STILL", 15, 4, 1, 4095⟩,
  ⟨"HVI_AX_STILL", 31, 16, 1, 65535⟩]

/-- Ranges of the field tables, part 1. -/
def rangesPart1 : List FieldRange := [
  ⟨"HVI_AX_BRIDGE", 7, 0, 1, 255⟩,
  ⟨"HVI_AX_SENSE", 15, 0, 1, 65535⟩,
  ⟨"HVI_AX_SENSE", 31, 16, 32768, 65535⟩,
  ⟨"HVI_AX_PROT", 15, 0, 1, 40000⟩,
  ⟨"HVI_AX_PROT", 31, 16, 1, 65535⟩,
  ⟨"HVI_AX_WIND_CFG", 15, 0, 1, 20000⟩,
  ⟨"HVI_AX_HOME_VEL", 31, 0, 1, 50000000⟩,
  ⟨"HVI_AX_DEB", 7, 0, 1, 255⟩,
  ⟨"HVI_AX_DEB", 11, 8, 1, 15⟩,
  ⟨"HVI_ISL_CFG", 15, 0, 1000, 6000⟩,
  ⟨"HVI_ISL_CFG", 31, 16, 0, 6500⟩,
  ⟨"MPC_SAFETY_CFG", 7, 0, 1, 255⟩,
  ⟨"MPC_WDOG_CFG", 9, 0, 1, 1000⟩,
  ⟨"MPC_TMP_CFG", 15, 0, 0, 32767⟩,
  ⟨"MPC_TMP_CFG", 31, 16, 1, 65535⟩,
  ⟨"MPC_TMP_BOUNDS", 15, 0, 16384, 49152⟩,
  ⟨"MPC_TMP_BOUNDS", 31, 16, 16384, 49152⟩,
  ⟨"MPC_LOOP_CFG", 2, 1, 0, 2⟩,
  ⟨"MPC_LOOP_CMD", 1, 0, 0, 2⟩,
  ⟨"MPC_FB_CFG", 12, 8, 1, 31⟩,
  ⟨"MPC_FB_CFG", 28, 16, 8, 4096⟩,
  ⟨"MPC_FB_TIME", 6, 0, 1, 64⟩,
  ⟨"MPC_FB_TIME", 20, 8, 1, 4096⟩,
  ⟨"MPC_FB_TIME", 31, 24, 1, 255⟩,
  ⟨"MPC_L1_SRC", 3, 0, 0, 3⟩,
  ⟨"MPC_L1_DEST", 3, 0, 0, 3⟩,
  ⟨"MPC_L1_STALE", 15, 0, 1, 65535⟩,
  ⟨"MPC_L1_STALE", 31, 16, 1, 65535⟩]

/-- Ranges of the field tables, part 2. -/
def rangesPart2 : List FieldRange := [
  ⟨"SCN_JUMP_VEL", 16, 0, 1, 100000⟩,
  ⟨"SCN_MARK_VEL", 16, 0, 1, 100000⟩,
  ⟨"SCN_Z_VEL", 16, 0, 1, 100000⟩,
  ⟨"SCN_JUMP_ACC", 19, 0, 1, 1000000⟩,
  ⟨"SCN_MARK_ACC", 19, 0, 1, 1000000⟩,
  ⟨"SCN_Z_ACC", 19, 0, 1, 1000000⟩,
  ⟨"SCN_JERK", 23, 0, 1, 10000000⟩,
  ⟨"SCN_CORNER_TOL", 15, 0, 1, 65535⟩,
  ⟨"SCN_MOTION_CFG", 6, 0, 4, 64⟩,
  ⟨"SCN_STAGE_CFG", 4, 0, 2, 16⟩,
  ⟨"SLD_CLAIM_CFG", 18, 16, 1, 4⟩,
  ⟨"SLD_FORCE_CFG", 19, 0, 1, 1048575⟩,
  ⟨"SLD_AGE_CFG", 6, 0, 1, 64⟩,
  ⟨"SLD_CONE_CFG", 16, 0, 1, 80000⟩,
  ⟨"SLD_CONE_TAN", 16, 0, 5734, 65536⟩,
  ⟨"LNK_CFG", 11, 8, 1, 15⟩,
  ⟨"LNK_CFG", 19, 16, 1, 15⟩,
  ⟨"LNK_GLB_CFG", 7, 0, 1, 255⟩,
  ⟨"LNK_GLB_CFG", 15, 8, 1, 255⟩,
  ⟨"LNK_PRBS_CFG", 2, 0, 0, 4⟩,
  ⟨"LNK_INJECT", 2, 1, 0, 2⟩,
  ⟨"LNK_EYE_CFG", 20, 16, 20, 31⟩,
  ⟨"EVR_COAL_CFG", 23, 16, 1, 255⟩,
  ⟨"MON_THERM_CFG", 15, 8, 0, 100⟩,
  ⟨"MON_THERM_CFG", 19, 16, 1, 10⟩,
  ⟨"MON_THERM_CFG", 7, 0, 60, 255⟩,
  ⟨"TTU_TICK_PERIOD", 13, 0, 1000, 16000⟩,
  ⟨"TTU_STEER_CFG", 7, 0, 1, 200⟩]

/-- Ranges of the field tables, part 3. -/
def rangesPart3 : List FieldRange := [
  ⟨"TTU_STEER_CFG", 15, 8, 1, 255⟩,
  ⟨"TTU_TICKOUT_CFG", 1, 0, 0, 2⟩,
  ⟨"TTU_EPOCH_NS", 29, 0, 0, 999999999⟩,
  ⟨"TTU_LCL_NS", 29, 0, 0, 999999999⟩,
  ⟨"TTU_DOM_NS", 29, 0, 0, 999999999⟩,
  ⟨"TTU_DOM_LIM", 15, 0, 1, 65535⟩,
  ⟨"TTU_DOM_TIME", 15, 0, 1, 65535⟩,
  ⟨"TTU_DOM_TIME", 23, 16, 1, 255⟩,
  ⟨"TTU_DOM_TIME", 31, 24, 1, 255⟩,
  ⟨"TTU_PPSOUT_CFG", 2, 0, 0, 4⟩,
  ⟨"TTU_PPSOUT_CFG", 17, 8, 1, 999⟩,
  ⟨"DSP_PL_CFG", 2, 1, 0, 2⟩,
  ⟨"DSP_CRC_CFG", 5, 4, 0, 2⟩,
  ⟨"NET_PORT_CFG", 10, 9, 0, 2⟩,
  ⟨"NET_PORT_CFG", 31, 16, 64, 9018⟩,
  ⟨"DRC_SCRUB_CFG", 7, 0, 1, 168⟩,
  ⟨"DRC_TRAIN_CFG", 7, 0, 0, 120⟩,
  ⟨"DRC_TRAIN_CFG", 15, 8, 1, 255⟩,
  ⟨"DRC_RH_CFG", 15, 0, 1024, 65535⟩,
  ⟨"DRC_RH_CFG", 23, 16, 1, 255⟩,
  ⟨"DRC_CH_MARK", 3, 0, 0, 9⟩,
  ⟨"CRB_SCRUB_CFG", 15, 0, 100, 60000⟩,
  ⟨"HST_BAR2_BASE", 4, 0, 0, 28⟩,
  ⟨"SVC_BOOT_MBOX", 12, 0, 2, 6144⟩,
  ⟨"HVI_AX_CTRL", 3, 0, 1, 8⟩,
  ⟨"HST_RING_CFG", 24, 22, 0, 4⟩]

/-- The ranges of every field that has one. -/
def fieldRanges : List FieldRange := rangesPart0 ++ rangesPart1 ++ rangesPart2 ++ rangesPart3

/-- Whether a value obeys one range. -/
def FieldRange.allows (f : FieldRange) (v : Nat) : Bool :=
  let x := bitsOf v f.hi f.lo
  f.min ≤ x && x ≤ f.max

/-- A signed field inside an interval. -/
def signedIn (v hi lo : Nat) (a b : Int) : Bool :=
  let x := signOf (hi + 1 - lo) (bitsOf v hi lo)
  a ≤ x && x ≤ b

/-- A port number of HVI_AX_HOME_CFG: a field port, or 31 for none (R274, R277). -/
def homePortNo (x : Nat) : Bool := x ≤ 23 || x = 31

/-- The conditions on a value that no single field states. `all` is the register's value as it would stand,
and for the _HI half of TTU_LCL_INC the pair's value. -/
def Chip.inRange (c : Chip) (r : RegRow) (a v all : Nat) : Bool :=
  let sq (hi lo : Nat) : Int := let x := signOf 16 (bitsOf v hi lo); x * x
  (fieldRanges.all fun f => f.name != r.name || f.allows v) &&
  match r.name with
  | "GLB_GANG_CFG" => !bitOf v 4 || decide (bitsOf v 1 0 ≤ bitsOf v 3 2)
  | "TTU_LCL_INC_HI" => (((all : Int) - 0x140000000).natAbs) * 1000000 ≤ 1000 * 0x140000000
  | "TTU_DOM_ADJ" => signedIn v 31 0 (-4194304) 4194304
  | "TTU_DOM_LIM" => bitsOf v 15 0 ≤ bitsOf v 31 16
  | "SLD_FLOW_CFG" => 268369920 ≤ sq 15 0 + sq 31 16 && sq 15 0 + sq 31 16 ≤ 268500992
  | "MPC_TMP_BOUNDS" => bitsOf v 15 0 ≤ bitsOf v 31 16
  | "MPC_L1_TRIG" => !bitOf v 1 || bitsOf v 31 8 != 0
  | "CAM_ROI_SIZE" =>
    !bitOf (c.fld (Reg.CAM_CTRL (a / 0x1000 % 16)) 7 4) ((a % 0x1000 - 0x44) / 8) || (bitsOf v 12 0 != 0 && bitsOf v 28 16 != 0)
  | "LNK_INJECT" => bitsOf v 12 8 = 0 || (10 ≤ bitsOf v 12 8 && bitsOf v 12 8 ≤ 31)
  | "LNK_EYE_CFG" => signedIn v 6 0 (-32) 31 && signedIn v 14 8 (-63) 63
  | "MON_THERM_CFG" => bitsOf v 7 0 ≤ bitsOf v 15 8
  | "MON_RAIL_THR" => decide (bitsOf v 15 0 < bitsOf v 31 16)
  | "HVI_ISL_CFG" => decide (bitsOf v 15 0 < bitsOf v 31 16)
  | "HVI_AX_HOME_CFG" => homePortNo (bitsOf v 4 0) && homePortNo (bitsOf v 12 8) && homePortNo (bitsOf v 20 16)
  | "SVC_PWIN_SIZE" => let x := bitsOf v 5 0; x = 0 || (12 ≤ x && x ≤ 34)
  | "SVC_NOR_CTRL" => bitsOf v 1 0 = 1 || bitsOf v 1 0 = 2
  | "SVC_OTP_CMD" => bitsOf v 31 16 = 0x0F7A && (let x := bitsOf v 3 0; 1 ≤ x && x ≤ 3)
  | "EVR_RD_IDX" => !c.bit Reg.EVR_RD_CTRL 0 || decide (v < 262144)
  | _ => true

end Sys2Proof.Machine
end

