-- ==== Sys2Proof/Machine/Bus.lean ====
section
/-! DEFINITION. The register bus (R12 to R18, R377, R378, R471 to R473): the checks of a write and their
reasons, what each accepted write does, and reads with their latched views. -/

namespace Sys2Proof.Machine

/-! ### Groups (R17, R353, R477) -/

/-- The _LO members of the pairs of R477. -/
def pairLoNames : List String :=
  ["TTU_EPOCH_SEC_LO", "TTU_EPOCH_SEC_ACT_LO", "TTU_TICK_INDEX_LO", "TTU_COMMIT_TICK_LO",
   "TTU_COMMIT_DONE_LO", "TTU_LCL_INC_LO", "TTU_SW_TICK_LO", "SCN_LAYER_TICK0_LO",
   "SCN_MOTION_SUM_LO", "SLD_DEFER_LO", "SLD_PRI_LO", "MPC_GATED_LO",
   "MPC_FBLOST_LO", "MPC_INTEG_LO", "CAM_HEAD_MASK_LO", "CAM_ID_LO",
   "CAM_ID_EXP_LO", "LNK_UP_LO", "LNK_RETX_UNAV_LO", "LNK_IDLE_LO",
   "DRC_ERR_ADDR_LO", "DRC_VIOL_ADDR_LO", "HST_LEASE_VIOL_ADDR_LO", "HST_LEASE_BASE_LO",
   "HST_RING_BASE_LO", "HST_RING_CQ_LO", "HST_RING_WB_LO", "SVC_PAIR_ENTRY_LO",
   "SVC_NOR_BUF_LO", "SVC_PWIN_BASE_LO", "NET_MAC_LO", "NET_TXTS_SEC_LO",
   "DSP_PL_ADDR_LO", "PMC_SNAP_TICK_LO", "PMC_CNT_LO", "PMC_SNAP_LO"]


/-- Their _HI members. -/
def pairHiNames : List String :=
  ["TTU_EPOCH_SEC_HI", "TTU_EPOCH_SEC_ACT_HI", "TTU_TICK_INDEX_HI", "TTU_COMMIT_TICK_HI",
   "TTU_COMMIT_DONE_HI", "TTU_LCL_INC_HI", "TTU_SW_TICK_HI", "SCN_LAYER_TICK0_HI",
   "SCN_MOTION_SUM_HI", "SLD_DEFER_HI", "SLD_PRI_HI", "MPC_GATED_HI",
   "MPC_FBLOST_HI", "MPC_INTEG_HI", "CAM_HEAD_MASK_HI", "CAM_ID_HI",
   "CAM_ID_EXP_HI", "LNK_UP_HI", "LNK_RETX_UNAV_HI", "LNK_IDLE_HI",
   "DRC_ERR_ADDR_HI", "DRC_VIOL_ADDR_HI", "HST_LEASE_VIOL_ADDR_HI", "HST_LEASE_BASE_HI",
   "HST_RING_BASE_HI", "HST_RING_CQ_HI", "HST_RING_WB_HI", "SVC_PAIR_ENTRY_HI",
   "SVC_NOR_BUF_HI", "SVC_PWIN_BASE_HI", "NET_MAC_HI", "NET_TXTS_SEC_HI",
   "DSP_PL_ADDR_HI", "PMC_SNAP_TICK_HI", "PMC_CNT_HI", "PMC_SNAP_HI"]

/-- First members of the groups of three or more, with their number of members: the local-clock triple with
its fraction, the domain and PPS_IN triples, and the position triple (R126, R353). -/
def groupFirst : List (String × Nat) :=
  [("TTU_LCL_SEC_LO", 4), ("TTU_DOM_SEC_LO", 3), ("TTU_PPSIN_SEC_LO", 3), ("SCN_POS_X", 3)]

/-- Their other members, with the place of each. -/
def groupRest : List (String × Nat) :=
  [("TTU_LCL_SEC_HI", 1), ("TTU_LCL_NS", 2), ("TTU_LCL_FRAC", 3), ("TTU_DOM_SEC_HI", 1), ("TTU_DOM_NS", 2),
   ("TTU_PPSIN_SEC_HI", 1), ("TTU_PPSIN_NS", 2), ("SCN_POS_Y", 1), ("SCN_POS_Z", 2)]

/-- Where a register stands in a latched group. -/
inductive Member where
  | single
  | first (count : Nat)
  | rest (place : Nat)
  deriving DecidableEq, Repr

def memberOf (name : String) : Member :=
  if pairLoNames.contains name then .first 2
  else if pairHiNames.contains name then .rest 1
  else
    match groupFirst.find? (·.1 == name), groupRest.find? (·.1 == name) with
    | some x, _ => .first x.2
    | none, some x => .rest x.2
    | none, none => .single

/-- The offset of the first member of a register's group. -/
def Member.head (m : Member) (a : Nat) : Nat :=
  match m with
  | .rest k => a - 4 * k
  | _ => a

/-- Members whose write is only staged: a _LO half, and NS of a time triple (R17, R353). -/
def isStaged (name : String) : Bool :=
  pairLoNames.contains name ||
    ["TTU_LCL_SEC_LO", "TTU_LCL_NS", "TTU_DOM_SEC_LO", "TTU_DOM_NS"].contains name

/-- A value staged by a requester. -/
def Chip.stagedAt (c : Chip) (q : Requester) (a : Nat) : Option Word :=
  (c.staged.find? fun x => x.req == q && x.off == a).map (·.val)

/-- Staging of some offsets dropped. -/
def Chip.unstage (c : Chip) (q : Requester) (as : List Nat) : Chip :=
  { c with staged := c.staged.filter fun x => !(x.req == q && as.contains x.off) }

/-- A staged write. -/
def Chip.stage (c : Chip) (q : Requester) (a : Nat) (v : Word) : Chip :=
  let c := c.unstage q [a]
  { c with staged := c.staged ++ [⟨q, a, v⟩] }

/-- A view of a group closed. -/
def Chip.closeView (c : Chip) (q : Requester) (g : Nat) : Chip :=
  { c with views := c.views.filter fun x => !(x.req == q && x.group == g) }

/-! ### Checks of a write -/

/-- Registers that the variant or the spec leaves out of a window (R2, R176, R198, R257, R472). -/
def Chip.absent (c : Chip) (r : RegRow) (a : Nat) : Bool :=
  let i := r.inst a
  match blockOf a with
  | 2 => decide (a < 0x30000 ∧ c.heads ≤ i)
  | 4 =>
    let o := a % 256
    decide (0x58000 ≤ a) &&
      ((decide (i < 64) && decide (c.heads ≤ i)) ||
        (decide (0x80 ≤ o ∧ o < 0xA4 ∧ 64 ≤ i) && !(decide (o = 0x90 ∧ i < 80))) ||
        (decide (0xC0 ≤ o ∧ o < 0xEC ∧ i < 80)))
  | 6 =>
    let o := a % 1024
    decide (a < 0xBF000) &&
      ((decide (i < 64) && decide (c.heads ≤ i)) ||
        (decide (64 ≤ i) && (decide (0x10 ≤ o ∧ o ≤ 0x40) || decide (0x60 ≤ o ∧ o ≤ 0x78))))
  | _ => false

/-- The lock group of a write (R377). -/
def lockGroup (r : RegRow) (v : Word) : Option Nat :=
  match r.name with
  | "SVC_BOOT_MBOX" => some 0
  | "SVC_OTP_CMD" => if v.toNat % 16 = 3 then some 0 else none
  | "SVC_ACL_HOST" => some 1
  | "SVC_ACL_P" => some 1
  | "SVC_PWIN_BASE_LO" => some 1
  | "SVC_PWIN_BASE_HI" => some 1
  | "SVC_PWIN_SIZE" => some 1
  | "MPC_SAFETY_CFG" => some 2
  | "MPC_WDOG_CFG" => some 2
  | "HVI_GLB_CFG" => some 2
  | "GLB_GANG_CFG" => some 3
  | "EFP_GOV_CFG" => some 4
  | "HVI_ISL_CFG" => some 4
  | "DRC_RH_CFG" => some 5
  | "DRC_SCRUB_CFG" => some 5
  | _ => none

/-- The mailbox registers, exempt from the ACL (R378, R383). -/
def isMailbox (r : RegRow) : Bool := ["SVC_MBOX_H2F", "SVC_MBOX_F2H", "SVC_MBOX_CTRL"].contains r.name

/-- The ACL denies a write (R378). -/
def Chip.aclDenies (c : Chip) (q : Requester) (r : RegRow) (a : Nat) : Bool :=
  !isMailbox r &&
  match q with
  | .host => !c.bit Reg.SVC_ACL_HOST (a / 65536)
  | .pair p => !c.bit (Reg.SVC_ACL_P p) (a / 65536)
  | .jtag => false

/-- The DEBUG group shuts JTAG out (R377). -/
def Chip.jtagLocked (c : Chip) (q : Requester) : Bool := q == .jtag && c.svc.locks.getLsbD 6

/-- Ring ownership denies a write of a ring's window (R322): a pair that does not own the ring may change OWNER only. -/
def Chip.ringDenies (c : Chip) (q : Requester) (r : RegRow) (a : Nat) (v : Word) : Bool :=
  decide (0xD1000 ≤ a ∧ a < 0xD5000) &&
  (let o := c.ringOwner (r.inst a)
   if r.name = "HST_RING_CFG" then
     match q with
     | .pair _ => q != ownerReq o && (v &&& 0x1C00000#32 ^^^ v) != (c.rd a &&& 0x1C00000#32 ^^^ c.rd a)
     | _ => q != ownerReq o || bitsOf v.toNat 24 22 != o
   else q != ownerReq o)

/-- The registers of coefficients (R184). -/
def isCoefficient (name : String) : Bool :=
  ["MPC_LOOP_CFG", "MPC_IN_OFFSET", "MPC_IN_GAIN", "MPC_BQ1", "MPC_BQ2", "MPC_KP", "MPC_KI", "MPC_KD", "MPC_SHIFT_A",
   "MPC_SHIFT_B", "MPC_SHIFT_C"].contains name

/-- A write of a coefficient register of a loop that is not OPEN (R184). -/
def Chip.coefBusy (c : Chip) (r : RegRow) (a : Nat) : Bool :=
  isCoefficient r.name && (inst? 128 (r.inst a)).any fun m => decide ((c.mpc.loops[m]).state ≠ .open)

/-- A write that its writer may not give: the OTP commands (R376) and the mailbox's data (R383). -/
def wrongWriter (q : Requester) (r : RegRow) (v : Word) : Bool :=
  match r.name with
  | "SVC_OTP_CMD" => q == .host || (v.toNat % 16 == 3 && q != .jtag)
  | "SVC_MBOX_H2F" => !hostSide q
  | "SVC_MBOX_F2H" => hostSide q
  | _ => false

/-- A lock of the register's own: ARM of MPC_WDOG_CFG (R195). -/
def Chip.selfLocked (c : Chip) (r : RegRow) : Bool := r.name == "MPC_WDOG_CFG" && c.mpc.armed

/-- A write that the target's present state does not permit. -/
def Chip.notNow (c : Chip) (r : RegRow) (a : Nat) (v : Word) : Bool :=
  let i := r.inst a
  let n := v.toNat
  (r.rwq && !c.quietFor r a) || c.coefBusy r a ||
  match r.name with
  | "TTU_DOM_SEL" => c.domSelOff n
  | "MPC_LOOP_CMD" => decide (64 ≤ i ∧ i < 80)
  | "SVC_MBOX_H2F" => c.svc.h2fFull
  | "SVC_MBOX_F2H" => c.svc.f2hFull
  | "SVC_BOOT_MBOX" => bitOf n 31 && !(c.svc.boot == .bootMbox && c.svc.mboxGo.isNone)
  | "SVC_OTP_CMD" => c.svc.otp.isSome
  | "SVC_NOR_CTRL" => c.svc.nor.isSome
  | "PMC_CNT_LO" => c.bit (Reg.PMC_CNT_CFG i (r.memb a)) 16
  | "PMC_CNT_HI" => c.bit (Reg.PMC_CNT_CFG i (r.memb a)) 16
  | "EVR_CTRL" => c.evrCtrlBad n
  | "LNK_CTRL" => bitOf n 2 && (match inst? 64 i with | some h => !c.idleOk h | none => true)
  | _ => false

/-- The value of a pair as a write of its _HI half would set it. -/
def Chip.pairValue (c : Chip) (q : Requester) (a : Nat) (v : Word) : Nat :=
  ((c.stagedAt q (a - 4)).getD (c.rd (a - 4))).toNat + 2 ^ 32 * v.toNat

/-- Before FW_RUN, register writes of the host and of JTAG outside the SVC window are discarded (R371). -/
def Chip.beforeBoot (c : Chip) (q : Requester) (a : Nat) : Bool :=
  hostSide q && decide (c.svc.boot ≠ .fwRun) && decide (¬(0xE0000 ≤ a ∧ a < 0xE0300))

/-- Why a write of a mapped register is discarded: a reason of R403, or 0. Their order where several hold is
the model's (log entry 30). -/
def Chip.writeReason (c : Chip) (q : Requester) (r : RegRow) (a : Nat) (v : Word) : Nat :=
  if c.absent r a then 9
  else if r.ro then 2
  else if c.aclDenies q r a || wrongWriter q r v then 7
  else if c.ringDenies q r a v then 8
  else if c.jtagLocked q || (lockGroup r v).any (fun g => c.svc.locks.getLsbD g) || c.selfLocked r then 4
  else if c.beforeBoot q a || c.notNow r a v then 3
  else if !c.inRange r a v.toNat (c.pairValue q a v) then 6
  else 0

/-! ### What an accepted write does -/

/-- The bits that software writes, stored: RW bits replaced, W1C bits cleared where 1 is written. A register with
an active copy that no commit governs, a level 1 loop's, takes effect at once (R198). -/
def Chip.store (c : Chip) (r : RegRow) (a : Nat) (v : Word) : Chip :=
  let rw := BitVec.ofNat 32 r.rw
  let c := c.wr a (((c.rd a &&& ~~~rw) ||| (v &&& rw)) &&& ~~~(v &&& BitVec.ofNat 32 r.w1c))
  if r.sh && blockOf a == blkMPC && decide (80 ≤ r.inst a) then c.commitReg a else c

/-- An effect on one unit. -/
def Chip.onto {n : Nat} (c : Chip) (i : Nat) (f : Fin n → Chip) : Chip :=
  match inst? n i with
  | some k => f k
  | none => c

def Chip.writeTtu (c : Chip) (q : Requester) (r : RegRow) (a : Nat) (v : Word) : Chip :=
  let i := r.inst a
  let n := v.toNat
  let sec (lo : Nat) (cur : Nat) : Nat := ((c.stagedAt q lo).map (·.toNat)).getD (loWord (secOf cur)) + 2 ^ 32 * (n % 2 ^ 16)
  let ns (at_ : Nat) (cur : Nat) : Nat := ((c.stagedAt q at_).map fun x => x.toNat % 2 ^ 30).getD (cur % 1000000000)
  match r.name with
  | "TTU_TICK_CTRL" => if bitOf n 0 then c.regridReq else c
  | "TTU_COMMIT_REQ" => c.commitReq n
  | "TTU_DOM_SEL" => c.domSel n
  | "TTU_DOM_CTRL" => c.onto (n := 2) i fun d => c.domCtrl d n
  | "TTU_DOM_STEP" => c.onto (n := 2) i fun d => c.domStep d v
  | "TTU_DOM_UPDATE" => c.onto (n := 2) i fun d => c.domUpdate d v
  | "TTU_PPSOUT_CFG" => (c.store r a v).ppsCfg
  | "TTU_STEER_CFG" => (c.store r a v).relock
  | "TTU_LCL_SEC_HI" =>
    let now_ := clockNs c.ttu.lcl
    (c.setLclTime (sec (a - 4) now_) (ns (a + 4) now_)).unstage q [a - 4, a + 4]
  | "TTU_DOM_SEC_HI" => c.onto (n := 2) i fun d =>
    let now_ := clockNs c.ttu.dom[d]
    (c.setDomTime d (sec (a - 4) now_) (ns (a + 4) now_)).unstage q [a - 4, a + 4]
  | _ => c.store r a v

def Chip.writeMpc (e : Env) (c : Chip) (r : RegRow) (a : Nat) (v : Word) : Chip :=
  let i := r.inst a
  let n := v.toNat
  match r.name with
  | "MPC_EMREL_CTRL" => c.emrelCtrl (n &&& 0xFF01)
  | "MPC_SAFETY_STATUS" => c.safetyClear n
  | "MPC_WDOG_CFG" => c.wdogCfg (n &&& 0x800003FF)
  | "MPC_WDOG_KICK" => c.wdogKick e v
  | "MPC_LASER_STOP" => if bitOf n 0 then c.laserStop e else c
  | "MPC_LOOP_CMD" => c.onto (n := 128) i fun m => c.onLoop m fun l => { l with cmd := n % 4 }
  | "MPC_L1_IN" => c.onto (n := 128) i fun m =>
    let c := c.store r a v
    if c.fld (Reg.MPC_L1_SRC i) 3 0 = 0 then c.l1Value m v.toInt else c
  | _ => c.store r a v

def Chip.writeCam (c : Chip) (r : RegRow) (a : Nat) (v : Word) : Chip :=
  match r.name with
  | "CAM_DMA_BUDGET" => c.refill.store r a v
  | "CAM_CTRL" => c.onto (n := 16) (r.inst a) fun p => (c.store r a v).camEnable p (bitOf v.toNat 0)
  | "CAM_EXP_CTRL" => c.onto (n := 16) (r.inst a) fun p =>
    let c := c.store r a v
    if bitOf v.toNat 31 then c.expCommit p else c
  | _ => c.store r a v

def Chip.writeLnk (e : Env) (c : Chip) (r : RegRow) (a : Nat) (v : Word) : Chip :=
  let i := r.inst a
  let n := v.toNat
  match r.name with
  | "LNK_CTRL" =>
    match inst? 64 i with
    | some h => c.laneCtrl e h n
    | none => c.onto (n := 76) i fun l => (if bitOf n 0 then c else c.adaptEq l).store r a v
  | "LNK_PRBS_CFG" =>
    let old := c.rdn a
    c.onto (n := 76) i fun l => (c.store r a v).prbsCfg l old
  | "LNK_INJECT" =>
    let c := (c.store r a v).sticky a (n % 2)
    let on := c.fld (Reg.LNK_PRBS_CFG i) 2 0 != 0 && c.bit (Reg.LNK_PRBS_CFG i) 3
    c.onto (n := 76) i fun l =>
      if bitOf n 3 && on && (c.lane[l]).quiescent then c.onLane l fun k => { k with prbs := { k.prbs with flips := k.prbs.flips + 1 } } else c
  | "LNK_EYE_CFG" =>
    let c := c.store r a v
    if bitOf n 30 then c.onto (n := 76) i fun l => (c.setFld a 31 31 0).onLane l fun k => { k with eye := true } else c
  | _ => c.store r a v

/-- The Bool tells that the write is discarded after all. -/
def Chip.writeHst (e : Env) (c : Chip) (r : RegRow) (a : Nat) (v : Word) : Chip × Bool :=
  if r.name = "HST_RING_CTRL" then
    match inst? 256 (r.inst a) with
    | some k =>
      let on := bitOf v.toNat 0
      (c.ringCtrl e k on, on && decide (c.enableFails k ≠ 0) && decide ((c.ring k).state = .disabled))
    | none => (c, false)
  else (c.store r a v, false)

/-- The Bool tells that the write is discarded after all. -/
def Chip.writeSvc (e : Env) (c : Chip) (q : Requester) (r : RegRow) (a : Nat) (v : Word) : Chip × Bool :=
  let n := v.toNat
  match r.name with
  | "SVC_LOCK" => (c.onSvc fun x => { x with locks := x.locks ||| v.extractLsb' 0 7 }, false)
  | "SVC_RST_CTRL" => (if bitOf n 0 then c.onSvc fun x => { x with resetReq := true } else c, false)
  | "SVC_BLK_RST" => c.blkRst n
  | "SVC_PAIR_CTRL" => c.pairCtrl e n
  | "SVC_BOOT_MBOX" =>
    let c := c.store r a v
    (if bitOf n 31 then c.onSvc fun x => { x with mboxGo := some (4096 * (n % 2 ^ 13)) } else c, false)
  | "SVC_OTP_CMD" => (c.otpCommand e n, false)
  | "SVC_OTP_KEYDATA" => (c.wr a v, false)
  | "SVC_NOR_CTRL" => ((c.store r a v).norOp e q (n % 4), false)
  | "SVC_MBOX_CTRL" => (c.mboxCtrl q n, false)
  | _ => (c.store r a v, false)

def Chip.writeHvi (c : Chip) (r : RegRow) (a : Nat) (v : Word) : Chip × Bool :=
  match r.name with
  | "HVI_AX_CTRL" =>
    (c.onto (n := 8) (r.inst a) fun x => c.onAxis x fun y => { y with cmd := v.toNat % 16, cmdRing := none }, false)
  | "HVI_MV_PUSH" =>
    match inst? 8 (r.inst a) with
    | some x =>
      if !bitOf v.toNat 0 then (c, false)
      else (c.pushMove x, c.movesRefused || decide (8 ≤ (c.axis[x]).staged.length))
    | none => (c, false)
  | "HVI_TAB_DATA" =>
    let k := c.fld Reg.HVI_TAB_ADDR 9 0
    let x := signOf 16 v.toNat
    let c := { c with island := { c.island with
      tab := if x = sineEntry k then eraseKey k c.island.tab else insertKey k x c.island.tab } }
    (c.wrn Reg.HVI_TAB_ADDR ((k + 1) % 1024), false)
  | _ => (c.store r a v, false)

def Chip.writeEfp (e : Env) (c : Chip) (r : RegRow) (a : Nat) (v : Word) : Chip × Bool :=
  if r.name = "EFP_CTRL" then
    match inst? 24 (r.inst a) with
    | some p =>
      let n := v.toNat
      let x := c.port[p]
      ((c.portCtrl p n).asyLost e p,
        bitOf n 0 && bitOf n 2 && x.state == .tripped && decide (c.ttu.up < x.tripAt + 100 * edgesPerMs))
    | none => (c, false)
  else (c.store r a v, false)

def Chip.writeEvr (e : Env) (c : Chip) (r : RegRow) (a : Nat) (v : Word) : Chip :=
  match r.name with
  | "EVR_CTRL" => c.evrCtrl e v.toNat
  | "EVR_RD_IDX" => c.rdIdx v
  | "EVR_LG_POP" => if bitOf v.toNat 0 then c.lgPop else c
  | _ => c.store r a v

/-- What an accepted write of a single register, or of the _HI half of a pair, does. The Bool tells that its rule
discards it after all. -/
def Chip.writeOne (e : Env) (c : Chip) (q : Requester) (r : RegRow) (a : Nat) (v : Word) : Chip × Bool :=
  match blockOf a with
  | 1 => (c.writeTtu q r a v, false)
  | 4 => (c.writeMpc e r a v, false)
  | 5 => (c.writeCam r a v, false)
  | 6 => (c.writeLnk e r a v, false)
  | 9 => c.writeHst e r a v
  | 10 => c.writeSvc e q r a v
  | 11 =>
    match r.name with
    | "NET_PORT_CTRL" => (c.onto (n := 4) (r.inst a) fun p => c.netCtrl e p v.toNat, false)
    | "NET_TXTS_POP" => (if bitOf v.toNat 0 then c.onto (n := 4) (r.inst a) fun p => c.popStamp p else c, false)
    | _ => (c.store r a v, false)
  | 12 =>
    match r.name with
    | "DSP_CTRL" => (c.onto (n := 2) (r.inst a) fun n => c.dspCtrl n v.toNat, false)
    | "DSP_COMMIT" => (if bitOf v.toNat 0 then c.onto (n := 2) (r.inst a) fun n => c.dspCommit n c.thermDsp else c, false)
    | _ => (c.store r a v, false)
  | 13 => c.writeHvi r a v
  | 14 => c.writeEfp e r a v
  | 15 => (c.writeEvr e r a v, false)
  | 16 => if r.name = "PMC_CTRL" then ((c.store r a v).sticky a (v.toNat &&& 2), false) else (c.store r a v, false)
  | 17 => (if r.name = "ASY_CTRL" then (if bitOf v.toNat 0 then c.asyAbort else c) else c.store r a v, false)
  | _ => (c.store r a v, false)

/-- An accepted write with its group's rules: a _LO half is staged; a _HI half applies both, the staged half or
else the current one; a write of any member closes the requester's view (R17). -/
def Chip.writeMember (e : Env) (c : Chip) (q : Requester) (r : RegRow) (a : Nat) (v : Word) : Chip × Bool :=
  if memberOf r.name = .single then c.writeOne e q r a v
  else
    let c := c.closeView q ((memberOf r.name).head a)
    if isStaged r.name then (c.stage q a v, false)
    else if pairHiNames.contains r.name then
      let c :=
        match c.stagedAt q (a - 4), rowOf (a - 4) with
        | some x, some lo => (c.store lo (a - 4) x).unstage q [a - 4]
        | _, _ => c
      c.writeOne e q r a v
    else c.writeOne e q r a v

/-- A write turned away; a discarded SLD write sets CFG_REJ (R163, R173). -/
def Chip.turnAway (c : Chip) (q : Requester) (a k : Nat) (v : Word) : Chip :=
  (if ownerOf a = blkSLD then c.sticky Reg.SLD_FLAGS 0x40 else c).discard q a k v

/-- A write of a mapped register: discarded with its reason, or applied. A discarded coefficient write sets
BUSY_CLOSED (R184). -/
def Chip.writeReg (e : Env) (c : Chip) (q : Requester) (r : RegRow) (a : Nat) (v : Word) : Chip × Bool :=
  let k := c.writeReason q r a v
  if k = 0 then
    let x := c.writeMember e q r a v
    if x.2 then (x.1.discard q a 3 v, true) else x
  else
    let c := if k = 3 && c.coefBusy r a then c.loopFlags (r.inst a) lfBUSY_CLOSED else c
    (c.turnAway q a k v, true)

/-- A doorbell write (R322, R325): by the ring's owner, at offset 0 or 4 of its page. -/
def Chip.writeDoorbell (e : Env) (c : Chip) (q : Requester) (a : Nat) (v : Word) : Chip × Bool :=
  let o := a % 4096
  match inst? 256 ((a - 0x800000) / 4096) with
  | some r =>
    if o ≠ 0 ∧ o ≠ 4 then (c.discard q a 1 v, true)
    else if c.jtagLocked q then (c.discard q a 4 v, true)
    else if q ≠ ownerReq (c.ringOwner r) then (c.discard q a 8 v, true)
    else if c.beforeBoot q a then (c.discard q a 3 v, true)
    else if c.doorbellOk r (o == 4) v then ((c.tally blkHST 0x11 r 1).doorbell e r (o == 4) v, false)
    else ((c.discard q a 8 v).dbErr r, true)
  | none => (c.discard q a 1 v, true)

/-- An access by a requester reaches the device: the host's first one shows that the PCIe link is up (log entry 24). -/
def Chip.seenBy (c : Chip) (q : Requester) : Chip := if q = .host then c.linkSeen else c

/-- A register write from the bus (R12). The Bool tells whether it was discarded. -/
def Chip.busTry (e : Env) (c : Chip) (q : Requester) (a : Nat) (be : BitVec 4) (v : Word) : Chip × Bool :=
  let c := c.seenBy q
  if a % 4 ≠ 0 ∨ be ≠ 15 then (c.turnAway q a 5 v, true)
  else if 0x800000 ≤ a ∧ a < 0x900000 then c.writeDoorbell e q a v
  else if 0xD6000 ≤ a ∧ a < 0xD6400 then
    match q, inst? 64 ((a - 0xD6000) / 16) with
    | .host, some k => (c.msixWrite k (a / 4 % 4) v, false)
    | _, _ => (c.discard q a 7 v, true)
  else if 0xD7000 ≤ a ∧ a < 0xD7008 then (c.discard q a 2 v, true)
  else
    match rowOf a with
    | none => (c.turnAway q a 1 v, true)
    | some r => c.writeReg e q r a v

/-- A register write (R12). -/
def Chip.busWrite (e : Env) (c : Chip) (q : Requester) (a : Nat) (be : BitVec 4) (v : Word) : Chip :=
  (c.busTry e q a be v).1

/-! ### Reads (R12, R14, R17) -/

/-- The value a read returns. -/
def Chip.answer (c : Chip) (v : Word) : Chip := { c with rdata := v }

/-- The live value of the register at an offset. -/
def Chip.liveAt (e : Env) (c : Chip) (a : Nat) : Word :=
  match rowOf a with
  | some r => c.live e r a
  | none => 0

/-- A read of a group's first member: a view opens on the others, replacing the requester's last. -/
def Chip.openView (e : Env) (c : Chip) (q : Requester) (a count : Nat) : Chip :=
  let others := (List.range (count - 1)).map fun i => (a + 4 * (i + 1), c.liveAt e (a + 4 * (i + 1)))
  let c := c.closeView q a
  { c with views := c.views ++ [⟨q, a, others⟩] }

/-- A read of another member: its latched value, once, while the view is open. -/
def Chip.servedBy (c : Chip) (q : Requester) (g a : Nat) : Option Word :=
  (c.views.find? fun x => x.req == q && x.group == g).bind fun x => findKey a x.left

/-- That member served; a view with none left closes. -/
def Chip.serve (c : Chip) (q : Requester) (g a : Nat) : Chip :=
  { c with views := (c.views.map fun x =>
      if x.req == q && x.group == g then { x with left := eraseKey a x.left } else x).filter fun x => !x.left.isEmpty }

/-- An accepted read of a mapped register: its value, the view it opens or takes from, and its RC fields cleared. -/
def Chip.readReg (e : Env) (c : Chip) (q : Requester) (r : RegRow) (a : Nat) : Chip :=
  let c := if r.name = "LNK_EQ" then c.onto (n := 76) (r.inst a) fun l => c.adaptEq l else c
  let v := c.live e r a
  match memberOf r.name with
  | .single =>
    let c := c.answer v
    if r.rc = 0 then c else c.wr a (c.rd a &&& ~~~(BitVec.ofNat 32 r.rc))
  | .first n =>
    let c := (c.openView e q a n).answer v
    if r.name = "TTU_PPSIN_SEC_LO" then c.onTtu fun t => { t with ppsInUnread := false } else c
  | .rest k =>
    let g := a - 4 * k
    match c.servedBy q g a with
    | some x => (c.serve q g a).answer x
    | none => c.answer v

/-- A register read (R12): misaligned or partial reads are refused; unmapped and absent offsets read 0; JTAG
under DEBUG reads 0 but for SVC_START_STATUS (R377). -/
def Chip.busRead (e : Env) (c : Chip) (q : Requester) (a : Nat) (be : BitVec 4) : Chip :=
  let c := c.seenBy q
  if a % 4 ≠ 0 ∨ be ≠ 15 then (c.answer 0).discard q a 5 0
  else if c.jtagLocked q && a != Reg.SVC_START_STATUS then c.answer 0
  else if 0xD6000 ≤ a ∧ a < 0xD6400 then
    c.answer (match inst? 64 ((a - 0xD6000) / 16) with
      | some k => (c.hst.msix[k]).word (a / 4 % 4)
      | none => 0)
  else if 0xD7000 ≤ a ∧ a < 0xD7008 then c.answer (c.hst.pba.extractLsb' (8 * (a - 0xD7000)) 32)
  else
    match rowOf a with
    | none => c.answer 0
    | some r => if c.absent r a then c.answer 0 else c.readReg e q r a

end Sys2Proof.Machine
end

