-- ==== Sys2Proof/Machine/Descr.lean ====
section
/-! DEFINITION. The descriptors that act through the engine itself, NOP, CHAIN, COPY, REG_WRITE, KLP_PASS, AX_MOVE
and AX_CMD (R334, R337, R339, R341, R342), and the completions of host-memory reads (R319). -/

namespace Sys2Proof.Machine

/-! ### NOP and CHAIN -/

/-- NOP: the index of the tick of completion (R337). -/
def Chip.nop (e : Env) (c : Chip) (r : Fin 256) (d : Desc) : Chip :=
  if d.clean [] then c.finish e r d 0x00 none c.ttu.index else c.finish e r d 0x41 none none

/-- CHAIN: its block's first entry is taken in hand; inside a block it continues the chain (R334). -/
def Chip.chain (e : Env) (c : Chip) (r : Fin 256) (d : Desc) : Chip :=
  let a := leAt d.bytes 8 8
  let n := leAt d.bytes 16 2
  if !d.clean [(8, 17)] ∨ n = 0 ∨ 4096 < n ∨ a % 32 ≠ 0 ∨ (c.ringLoc r ∧ 2 ^ 35 < a + 32 * n) then
    c.finish e r d 0x41 none none
  else
    match (c.ring r).chain with
    | none => c.chainNext e r d ⟨a, n, 0⟩
    | some (cd, k) => c.chainNext e r cd ⟨a, n, k.steps + 1⟩

/-! ### COPY -/

/-- The bytes of a COPY's next step (R332). -/
def copyStep (len done : Nat) : Nat := min 4096 (len - done)

/-- DMA_REJ at a guarded byte (R93). -/
def Chip.guardHit (c : Chip) (a : Nat) : Chip := c.leaseViol 0x2 a

/-- The check of every destination byte, and of the source of a service-owned ring, before any is written: a status
of R336, with what the refusal records (R93, R297, R298). -/
def Chip.copyCheck (c : Chip) (r : Fin 256) (src dst len : Nat) : Chip × Nat :=
  match firstRefused (mayWrite reqHST) dst len with
  | some x => (c.regionViol reqHST x true, 0x45)
  | none =>
    match (if c.ringLoc r then firstRefused (mayRead reqHST) src len else none) with
    | some x => (c.regionViol reqHST x false, 0x45)
    | none =>
      match firstRefused (fun x => (c.guardOf x).isNone) dst len with
      | some x => (c.guardHit x, 0x46)
      | none => (c, 0x00)

/-- The data of one step arrives: it is written, and the COPY ends or goes on. A destination byte that a later
LOAD has come to guard ends it. -/
def Chip.copyWrite (e : Env) (c : Chip) (r : Fin 256) (d : Desc) (src dst len done : Nat) (bs : List Byte) : Chip :=
  match firstRefused (fun x => (c.guardOf x).isNone) (dst + done) bs.length with
  | some x => (c.guardHit x).finish e r d 0x46 done none
  | none =>
    let c := (c.dramWrite e reqHST (dst + done) bs).1
    let done := done + bs.length
    if len ≤ done then c.finish e r d 0x00 done none else c.await r d (.copy src dst len done)

/-- One 4 KiB step of a COPY: its source is read, from device DRAM or from host memory. -/
def Chip.copyNext (e : Env) (c : Chip) (r : Fin 256) (d : Desc) (src dst len done : Nat) : Chip :=
  if c.ringLoc r then
    let (c, x) := c.dramRead e reqHST (src + done) (copyStep len done)
    if x.ok then c.copyWrite e r d src dst len done x.bytes else c.finish e r d 0x44 done none
  else c.hostRead r (src + done) (copyStep len done) (.copyStep (copyStep len done))

/-- COPY (R337): its check and its first step. -/
def Chip.copy (e : Env) (c : Chip) (r : Fin 256) (d : Desc) : Chip :=
  let len := leAt d.bytes 4 4
  let src := leAt d.bytes 8 8
  let dst := leAt d.bytes 16 8
  if !d.clean [(4, 23)] ∨ len = 0 ∨ 2 ^ 30 < len ∨ 2 ^ 35 < dst + len ∨ (c.ringLoc r ∧ 2 ^ 35 < src + len) then
    c.finish e r d 0x41 none none
  else
    let (c, k) := c.copyCheck r src dst len
    if k ≠ 0 then c.finish e r d k (some 0) none
    else (c.await r d (.copy src dst len 0)).copyNext e r d src dst len 0

/-- One turn of a COPY: it begins, or takes its next step (R332). -/
def Chip.copyTurn (e : Env) (c : Chip) (r : Fin 256) : Chip :=
  match (c.ring r).cur with
  | some ⟨d, .copy src dst len done⟩ =>
    if c.nextRing = some r then (c.takeTurn r).copyNext e r d src dst len done else c
  | _ => c.begin r 0x02 fun d c => c.copy e r d

/-! ### REG_WRITE -/

/-- One write of a REG_WRITE as its ring's owner, and whether it was discarded (R339). -/
def Chip.descWrite (e : Env) (c : Chip) (q : Requester) (off : Nat) (v : Word) : Chip × Bool :=
  if 0x800000 ≤ off then (c.discard q off 8 v, true) else c.busTry e q off 15 v

/-- The writes in order, with the mask of those discarded. -/
def Chip.descWrites (e : Env) (q : Requester) (d : Desc) : List Nat → Chip × Nat → Chip × Nat
  | [], x => x
  | i :: is, x =>
    let (c, bad) := x.1.descWrite e q (leAt d.bytes (8 + 8 * i) 4) (BitVec.ofNat 32 (leAt d.bytes (12 + 8 * i) 4))
    Chip.descWrites e q d is (c, x.2 + b2n bad * 2 ^ i)

/-- REG_WRITE. -/
def Chip.regWrite (e : Env) (c : Chip) (r : Fin 256) (d : Desc) : Chip :=
  let n := leAt d.bytes 4 1
  let commit := leAt d.bytes 5 1
  if !d.clean [(4, 5), (8, 31)] ∨ n = 0 ∨ 3 < n ∨ 15 < commit then c.finish e r d 0x41 none none
  else
    let (c, mask) := Chip.descWrites e (ownerReq (c.ringOwner r)) d (List.range n) (c, 0)
    if commit ≠ 0 then (c.commitReq commit).await r d (.regCommit mask)
    else c.finish e r d (if mask = 0 then 0x00 else 0x50) (some mask) c.ttu.index

/-! ### KLP_PASS -/

/-- The PASS message is sent, if the lane is ACTIVE (R341). -/
def Chip.passSend (e : Env) (c : Chip) (r : Fin 256) (d : Desc) (head rpl rplMax : Nat) (bs : List Byte) : Chip :=
  match inst? 64 head with
  | none => c.finish e r d 0x41 none none
  | some h =>
    if (c.lane[headLane h]).state ≠ .active then c.finish e r d 0x52 none none
    else (c.await r d (.passReply head rpl rplMax)).queueMsg h 3 bs

/-- KLP_PASS: its fields, and the bytes to send. -/
def Chip.klpPass (e : Env) (c : Chip) (r : Fin 256) (d : Desc) : Chip :=
  let head := leAt d.bytes 4 1
  let len := leAt d.bytes 5 1
  let src := leAt d.bytes 8 8
  let rpl := leAt d.bytes 16 8
  let rplMax := leAt d.bytes 24 1
  let far := c.ringLoc r && (decide (2 ^ 35 < src + len) || decide (2 ^ 35 < rpl + rplMax))
  if !d.clean [(4, 5), (8, 24)] ∨ 63 < head ∨ 252 < len ∨ far then c.finish e r d 0x41 none none
  else if len = 0 then c.passSend e r d head rpl rplMax []
  else if c.ringLoc r then
    match firstRefused (mayRead reqHST) src len with
    | some x => (c.regionViol reqHST x false).finish e r d 0x45 none none
    | none =>
      let (c, x) := c.dramRead e reqHST src len
      if x.ok then c.passSend e r d head rpl rplMax x.bytes else c.finish e r d 0x44 none none
  else (c.await r d (.passFetch head rpl rplMax)).hostRead r src len (.passData len)

/-- A KLP_PASS begins once no other is in flight to its head (R341): a ring whose entry waits for that has no turn. -/
def Chip.klpTurn (e : Env) (c : Chip) (r : Fin 256) : Chip := c.begin r 0x24 fun d c => c.klpPass e r d

/-- The reply of a head to the KLP_PASS in flight to it; a PASS message with none is dropped. -/
def Chip.passReplied (e : Env) (c : Chip) (h : Fin 64) (bs : List Byte) : Chip :=
  match (List.finRange 256).find? fun r => match (c.ring r).cur with
      | some ⟨_, .passReply k _ _⟩ => k == h.val
      | _ => false with
  | none => c
  | some r =>
    match (c.ring r).cur with
    | some ⟨d, .passReply _ rpl rplMax⟩ =>
      let (c, st) := c.ringWriteAs e reqHST r rpl (bs.take rplMax)
      c.finish e r d (if st ≠ 0 then st else if rplMax < bs.length then 0x54 else 0x00) (some bs.length) none
    | _ => c

/-- NO_REPLY: 10 ms without a reply end the KLP_PASS in flight to a head. -/
def Chip.passTimeout (e : Env) (c : Chip) (h : Fin 64) : Chip := c.failPass e h 0x53

/-! ### AX_MOVE and AX_CMD -/

/-- AX_MOVE (R342). -/
def Chip.axMoveDesc (e : Env) (c : Chip) (r : Fin 256) (d : Desc) : Chip :=
  let f := leAt d.bytes 5 1
  match inst? 8 (leAt d.bytes 4 1) with
  | none => c.finish e r d 0x41 none none
  | some a =>
    if !d.clean [(4, 5), (8, 15)] ∨ 3 < f then c.finish e r d 0x41 none none
    else
      let (c, ok) := c.stageMove a ⟨leSAt d.bytes 8 4, leAt d.bytes 12 4, bitOf f 0, bitOf f 1, some r.val⟩
      (c.commitReq 8).await r d (.axMove a.val (!ok))

/-- AX_CMD (R342). -/
def Chip.axCmdDesc (e : Env) (c : Chip) (r : Fin 256) (d : Desc) : Chip :=
  let k := leAt d.bytes 5 1
  match inst? 8 (leAt d.bytes 4 1) with
  | none => c.finish e r d 0x41 none none
  | some a =>
    if !d.clean [(4, 5)] ∨ k = 0 ∨ 8 < k then c.finish e r d 0x41 none none
    else (c.onAxis a fun x => { x with cmd := k, cmdRing := some r.val }).await r d (.axCmd a.val)

/-! ### Host-memory reads (R319) -/

/-- A read that waited is issued (R333). -/
def Chip.issueNext (c : Chip) : Chip :=
  match c.hst.readWait with
  | x :: xs => if c.hst.reads.length < readLimit then ({ c with hst := { c.hst with readWait := xs } }).issueRead x else c
  | [] => c

/-- An outstanding read taken off the list. -/
def Chip.takeRead (c : Chip) (id : Nat) : Chip × Option HostRead :=
  (({ c with hst := { c.hst with reads := c.hst.reads.filter fun x => x.id != id } }).issueNext,
    c.hst.reads.find? fun x => x.id == id)

/-- A read fails with HOST_TMO or HOST_ERR: the descriptor that issued it fails, and a request entry completes
FETCH_ERR (R319, R336). -/
def Chip.readFailed (e : Env) (c : Chip) (x : HostRead) (status : Nat) : Chip :=
  match inst? 256 x.ring with
  | none => c
  | some r =>
    let g := c.ring r
    match x.use with
    | .fetch _ _ => if g.runs then c.fetchFailed e r else c.ringIdle r
    | .chainEntry =>
      match g.chain with
      | some (d, k) => c.chainEnd e r d status (k.steps + 1) k.addr
      | none => c
    | .copyStep _ =>
      match g.cur with
      | some ⟨d, .copy _ _ _ done⟩ => c.finish e r d status done none
      | _ => c
    | .passData _ =>
      match g.cur with
      | some ⟨d, .passFetch _ _ _⟩ => c.finish e r d status none none
      | _ => c
    | .frameData _ =>
      match g.cur with
      | some ⟨d, .netTx _ _⟩ => c.finish e r d status (some (leAt d.bytes 8 2)) none
      | _ => c

/-- A read returns its data. -/
def Chip.readReturns (e : Env) (c : Chip) (x : HostRead) (bs : List Byte) : Chip :=
  match inst? 256 x.ring with
  | none => c
  | some r =>
    let g := c.ring r
    match x.use with
    | .fetch _ _ => if g.runs then c.takeEntries e r (chunks 32 bs) else c.ringIdle r
    | .chainEntry =>
      match g.chain with
      | some (d, k) => c.chainPlace e r d k bs
      | none => c
    | .copyStep _ =>
      match g.cur with
      | some ⟨d, .copy src dst len done⟩ => c.copyWrite e r d src dst len done bs
      | _ => c
    | .passData _ =>
      match g.cur with
      | some ⟨d, .passFetch h rpl n⟩ => c.passSend e r d h rpl n bs
      | _ => c
    | .frameData _ =>
      match g.cur with
      | some ⟨d, .netTx p _⟩ =>
        match inst? 4 p with
        | some p => c.sendData e r d p bs false
        | none => c
      | _ => c

/-- What the function records of a completion that carries no data (R319): a poisoned one in AER, and the status of the
others in the Status register. -/
def Chip.noteResult (c : Chip) (res : HostResult) : Chip :=
  match res with
  | .data _ => c
  | .poisoned => c.aerNote aerPoisoned
  | .unsupported => { c with hst := { c.hst with aborts := c.hst.aborts ||| 2 } }
  | .abort => { c with hst := { c.hst with aborts := c.hst.aborts ||| 1 } }

/-- HOST_READ_COMPLETION. A completion that answers no read, for its number or for the length of its data, is unexpected,
which AER records. -/
def Chip.hostCompletes (e : Env) (c : Chip) (id : Nat) (res : HostResult) : Chip :=
  match c.takeRead id with
  | (_, none) => c.aerNote aerUnexpected
  | (k, some x) =>
    match res with
    | .data bs => if bs.length = x.len then k.readReturns e x bs else c.aerNote aerUnexpected
    | _ => (k.noteResult res).readFailed e x 0x43

/-- HOST_TMO. -/
def Chip.hostTimeout (e : Env) (c : Chip) (id : Nat) : Chip :=
  match c.takeRead id with
  | (_, none) => c
  | (k, some x) => (k.aerNote aerTimeout).readFailed e x 0x42

/-! ### Meanings -/

/-- NOP. -/
def execNop (r : Fin 256) (s : State) : Host.Outcome State Fault Refusal :=
  .next (s.act fun e c => c.begin r 0x00 fun d c => c.nop e r d)

/-- CHAIN. -/
def execChain (r : Fin 256) (errs : List DramErr) (s : State) : Host.Outcome State Fault Refusal :=
  .next (s.act fun e c => ({ c with derr := errs }).begin r 0x01 fun d c => c.chain e r d)

/-- COPY. -/
def execCopy (r : Fin 256) (errs : List DramErr) (s : State) : Host.Outcome State Fault Refusal :=
  .next (s.act fun e c => ({ c with derr := errs }).copyTurn e r)

/-- REG_WRITE. -/
def execRegWrite (r : Fin 256) (errs : List DramErr) (s : State) : Host.Outcome State Fault Refusal :=
  .next (s.act fun e c => ({ c with derr := errs }).begin r 0x20 fun d c => c.regWrite e r d)

/-- KLP_PASS. -/
def execKlpPass (r : Fin 256) (errs : List DramErr) (s : State) : Host.Outcome State Fault Refusal :=
  .next (s.act fun e c => ({ c with derr := errs }).klpTurn e r)

/-- PASS_REPLY (R341): an uplink PASS message. -/
def execPassReply (h : Fin 64) (seq : BitVec 8) (bs : List Byte) (s : State) : Host.Outcome State Fault Refusal :=
  laneCommand h s fun e c => c.upMessage h seq.toNat bs.length fun c => c.passReplied e h bs

/-- NO_REPLY. -/
def execNoReply (h : Fin 64) (s : State) : Host.Outcome State Fault Refusal := .next (s.act fun e c => c.passTimeout e h)

/-- AX_MOVE. -/
def execAxMove (r : Fin 256) (s : State) : Host.Outcome State Fault Refusal :=
  .next (s.act fun e c => c.begin r 0x30 fun d c => c.axMoveDesc e r d)

/-- AX_CMD. -/
def execAxCmd (r : Fin 256) (s : State) : Host.Outcome State Fault Refusal :=
  .next (s.act fun e c => c.begin r 0x31 fun d c => c.axCmdDesc e r d)

/-- HOST_TMO. -/
def execHostTmo (id : Nat) (s : State) : Host.Outcome State Fault Refusal := .next (s.act fun e c => c.hostTimeout e id)

/-- HOST_READ_COMPLETION. -/
def execHostReadCompletion (id : Nat) (res : HostResult) (errs : List DramErr) (s : State) :
    Host.Outcome State Fault Refusal :=
  .next (s.act fun e c => ({ c with derr := errs }).hostCompletes e id res)

end Sys2Proof.Machine
end

