-- ==== Sys2Proof/Machine/Access.lean ====
section
/-! DEFINITION. The commands that are register accesses: reads and writes as each requester makes them (R12, R14,
R17), and the writes that have a row of their own, each a write of its register through the checks of the bus. -/

namespace Sys2Proof.Machine

/-- A 32-bit register write through the checks of the bus. -/
def State.regWrite (q : Requester) (a : Nat) (v : Word) (s : State) : State := s.act fun e c => c.busWrite e q a 15 v

/-- A 32-bit register read. -/
def State.regRead (q : Requester) (a : Nat) (s : State) : State := s.act fun e c => c.busRead e q a 15

/-- REGISTER_WRITE (R12). -/
def execRegisterWrite (q : Requester) (off : Offset) (be : BitVec 4) (v : Word) (s : State) : Host.Outcome State Fault Refusal :=
  .next (s.act fun e c => c.busWrite e q off.toNat be v)

/-- REFUSED_READ: a read that is misaligned or enables only some bytes (R12). -/
def execRefusedRead (q : Requester) (off : Offset) (be : BitVec 4) (s : State) : Host.Outcome State Fault Refusal :=
  .next (s.act fun e c => c.busRead e q off.toNat be)

/-- RC_READ (R14). -/
def execRcRead (q : Requester) (off : Offset) (s : State) : Host.Outcome State Fault Refusal := .next (s.regRead q off.toNat)

/-- PAIR_LO_READ (R17). -/
def execPairLoRead (q : Requester) (off : Offset) (s : State) : Host.Outcome State Fault Refusal :=
  .next (s.regRead q off.toNat)

/-- PAIR_HI_READ (R17). -/
def execPairHiRead (q : Requester) (off : Offset) (s : State) : Host.Outcome State Fault Refusal :=
  .next (s.regRead q off.toNat)

/-- TIME_SET: a write of the seconds _HI register of the local clock (none) or of a domain (R353). -/
def execTimeSet (q : Requester) (d : Option (Fin 2)) (v : Word) (s : State) : Host.Outcome State Fault Refusal :=
  .next (s.regWrite q (match d with | none => Reg.TTU_LCL_SEC_HI | some d => Reg.TTU_DOM_SEC_HI d) v)

/-- FLUSH: by a write of EVR_CTRL with FLUSH set, or, with no write, because of age (R411). -/
def execFlush (w : Option (Requester × Word)) (s : State) : Host.Outcome State Fault Refusal :=
  .next (match w with
    | some (q, v) => s.regWrite q Reg.EVR_CTRL (v ||| 2)
    | none => s.act fun e c => c.flushAge e)

/-- PAIR_LO_WRITE: a write of a pair's or group's staged member (R17). -/
def execPairLoWrite (q : Requester) (off : Offset) (v : Word) (s : State) : Host.Outcome State Fault Refusal :=
  .next (s.regWrite q off.toNat v)

/-- PAIR_HI_WRITE: a write of the member that applies the group (R17). -/
def execPairHiWrite (q : Requester) (off : Offset) (v : Word) (s : State) : Host.Outcome State Fault Refusal :=
  .next (s.regWrite q off.toNat v)

/-- COEFFICIENT_WRITE: applied while the loop is OPEN, else discarded with BUSY_CLOSED (R184). -/
def execCoefficientWrite (q : Requester) (off : Offset) (v : Word) (s : State) : Host.Outcome State Fault Refusal :=
  .next (s.regWrite q off.toNat v)

/-- REGRID (R44). -/
def execRegrid (q : Requester) (s : State) : Host.Outcome State Fault Refusal :=
  .next (s.regWrite q Reg.TTU_TICK_CTRL 1)

/-- COMMIT_REQ (R54). -/
def execCommitReq (q : Requester) (v : Word) (s : State) : Host.Outcome State Fault Refusal :=
  .next (s.regWrite q Reg.TTU_COMMIT_REQ v)

/-- CLOSE (R183). -/
def execLoopClose (q : Requester) (m : Fin 128) (s : State) : Host.Outcome State Fault Refusal :=
  .next (s.regWrite q (Reg.MPC_LOOP_CMD m) 2)

/-- OPEN (R183). -/
def execLoopOpen (q : Requester) (m : Fin 128) (s : State) : Host.Outcome State Fault Refusal :=
  .next (s.regWrite q (Reg.MPC_LOOP_CMD m) 1)

/-- REQ (R193). -/
def execEmissionReq (q : Requester) (v : Word) (s : State) : Host.Outcome State Fault Refusal :=
  .next (s.regWrite q Reg.MPC_EMREL_CTRL v)

/-- ESTOP_LATCH_CLEAR: a W1C write of MPC_SAFETY_STATUS (R194). -/
def execEstopLatchClear (q : Requester) (v : Word) (s : State) : Host.Outcome State Fault Refusal :=
  .next (s.regWrite q Reg.MPC_SAFETY_STATUS v)

/-- ARM: a write of MPC_WDOG_CFG with ARM set (R195). -/
def execWdogArm (q : Requester) (v : Word) (s : State) : Host.Outcome State Fault Refusal :=
  .next (s.regWrite q Reg.MPC_WDOG_CFG (v ||| 0x80000000))

/-- WDOG_KICK (R195). -/
def execWdogKick (q : Requester) (v : Word) (s : State) : Host.Outcome State Fault Refusal :=
  .next (s.regWrite q Reg.MPC_WDOG_KICK v)

/-- WDOG_EXP_CLEAR: a W1C write of MPC_SAFETY_STATUS with WDOG_EXP set (R195). -/
def execWdogExpClear (q : Requester) (v : Word) (s : State) : Host.Outcome State Fault Refusal :=
  .next (s.regWrite q Reg.MPC_SAFETY_STATUS (v ||| 0x400))

/-- LASER_STOP (R196). -/
def execLaserStop (q : Requester) (s : State) : Host.Outcome State Fault Refusal :=
  .next (s.regWrite q Reg.MPC_LASER_STOP 1)

/-- CAM_ENABLE: a write of CAM_CTRL with ENABLE 1 (R203). -/
def execCamEnable (q : Requester) (p : Fin 16) (v : Word) (s : State) : Host.Outcome State Fault Refusal :=
  .next (s.regWrite q (Reg.CAM_CTRL p) (v ||| 1))

/-- CAM_DISABLE: a write of CAM_CTRL with ENABLE 0 (R203). -/
def execCamDisable (q : Requester) (p : Fin 16) (v : Word) (s : State) : Host.Outcome State Fault Refusal :=
  .next (s.regWrite q (Reg.CAM_CTRL p) (v &&& 0xFFFFFFFE))

/-- EXP_COMMIT: a write of CAM_EXP_CTRL with COMMIT set (R216). -/
def execExpCommit (q : Requester) (p : Fin 16) (v : Word) (s : State) : Host.Outcome State Fault Refusal :=
  .next (s.regWrite q (Reg.CAM_EXP_CTRL p) (v ||| 0x80000000))

/-- LANE_ENABLE: a write of LNK_CTRL with ENABLE 1 (R232). -/
def execLaneEnable (q : Requester) (l : Fin 76) (v : Word) (s : State) : Host.Outcome State Fault Refusal :=
  .next (s.regWrite q (Reg.LNK_CTRL l) (v ||| 1))

/-- LANE_DISABLE: a write of LNK_CTRL with ENABLE 0 (R232). -/
def execLaneDisable (q : Requester) (l : Fin 76) (v : Word) (s : State) : Host.Outcome State Fault Refusal :=
  .next (s.regWrite q (Reg.LNK_CTRL l) (v &&& 0xFFFFFFFE))

/-- RETRAIN: a write of LNK_CTRL with RETRAIN set (R232). -/
def execRetrain (q : Requester) (l : Fin 76) (v : Word) (s : State) : Host.Outcome State Fault Refusal :=
  .next (s.regWrite q (Reg.LNK_CTRL l) (v ||| 2))

/-- IDLE: a write of LNK_CTRL with IDLE set (R248). -/
def execIdle (q : Requester) (l : Fin 76) (v : Word) (s : State) : Host.Outcome State Fault Refusal :=
  .next (s.regWrite q (Reg.LNK_CTRL l) (v ||| 4))

/-- WAKE: a write of LNK_CTRL with WAKE set (R249). -/
def execWake (q : Requester) (l : Fin 76) (v : Word) (s : State) : Host.Outcome State Fault Refusal :=
  .next (s.regWrite q (Reg.LNK_CTRL l) (v ||| 8))

/-- INJ_CRC: a write of LNK_INJECT with INJ_CRC set (R254). -/
def execInjCrc (q : Requester) (l : Fin 76) (v : Word) (s : State) : Host.Outcome State Fault Refusal :=
  .next (s.regWrite q (Reg.LNK_INJECT l) (v ||| 1))

/-- INJ_BIT: a write of LNK_INJECT with INJ_BIT set (R254). -/
def execInjBit (q : Requester) (l : Fin 76) (v : Word) (s : State) : Host.Outcome State Fault Refusal :=
  .next (s.regWrite q (Reg.LNK_INJECT l) (v ||| 8))

/-- EYE_SCAN_START: a write of LNK_EYE_CFG with START set (R255). -/
def execEyeScanStart (q : Requester) (l : Fin 76) (v : Word) (s : State) : Host.Outcome State Fault Refusal :=
  .next (s.regWrite q (Reg.LNK_EYE_CFG l) (v ||| 0x40000000))

/-- AX_ENABLE: the command written to HVI_AX_CTRL (R261). -/
def execAxEnable (q : Requester) (a : Fin 8) (s : State) : Host.Outcome State Fault Refusal :=
  .next (s.regWrite q (Reg.HVI_AX_CTRL a) (BitVec.ofNat 32 axENABLE))

/-- AX_DISABLE: the command written to HVI_AX_CTRL (R261). -/
def execAxDisable (q : Requester) (a : Fin 8) (s : State) : Host.Outcome State Fault Refusal :=
  .next (s.regWrite q (Reg.HVI_AX_CTRL a) (BitVec.ofNat 32 axDISABLE))

/-- AX_STOP: the command written to HVI_AX_CTRL (R261). -/
def execAxStop (q : Requester) (a : Fin 8) (s : State) : Host.Outcome State Fault Refusal :=
  .next (s.regWrite q (Reg.HVI_AX_CTRL a) (BitVec.ofNat 32 axSTOP))

/-- QUICK_STOP: the command written to HVI_AX_CTRL (R270). -/
def execQuickStop (q : Requester) (a : Fin 8) (s : State) : Host.Outcome State Fault Refusal :=
  .next (s.regWrite q (Reg.HVI_AX_CTRL a) (BitVec.ofNat 32 axQUICK_STOP))

/-- HOME: the command written to HVI_AX_CTRL (R275). -/
def execAxHome (q : Requester) (a : Fin 8) (s : State) : Host.Outcome State Fault Refusal :=
  .next (s.regWrite q (Reg.HVI_AX_CTRL a) (BitVec.ofNat 32 axHOME))

/-- CLR_FAULT: the command written to HVI_AX_CTRL (R261). -/
def execClrFault (q : Requester) (a : Fin 8) (s : State) : Host.Outcome State Fault Refusal :=
  .next (s.regWrite q (Reg.HVI_AX_CTRL a) (BitVec.ofNat 32 axCLR_FAULT))

/-- SET_POS: the command written to HVI_AX_CTRL (R261). -/
def execSetPos (q : Requester) (a : Fin 8) (s : State) : Host.Outcome State Fault Refusal :=
  .next (s.regWrite q (Reg.HVI_AX_CTRL a) (BitVec.ofNat 32 axSET_POS))

/-- ACCEPT_POS: the command written to HVI_AX_CTRL (R272). -/
def execAcceptPos (q : Requester) (a : Fin 8) (s : State) : Host.Outcome State Fault Refusal :=
  .next (s.regWrite q (Reg.HVI_AX_CTRL a) (BitVec.ofNat 32 axACCEPT_POS))

/-- PUSH (R266). -/
def execAxPush (q : Requester) (a : Fin 8) (s : State) : Host.Outcome State Fault Refusal :=
  .next (s.regWrite q (Reg.HVI_MV_PUSH a) 1)

/-- TAB_DATA (R278). -/
def execTabData (q : Requester) (v : Word) (s : State) : Host.Outcome State Fault Refusal :=
  .next (s.regWrite q Reg.HVI_TAB_DATA v)

/-- EFP_ENABLE: a write of EFP_CTRL with ENABLE 1 (R283). -/
def execEfpEnable (q : Requester) (p : Fin 24) (v : Word) (s : State) : Host.Outcome State Fault Refusal :=
  .next (s.regWrite q (Reg.EFP_CTRL p) (v ||| 1))

/-- EFP_DISABLE: a write of EFP_CTRL with ENABLE 0 (R283). -/
def execEfpDisable (q : Requester) (p : Fin 24) (v : Word) (s : State) : Host.Outcome State Fault Refusal :=
  .next (s.regWrite q (Reg.EFP_CTRL p) (v &&& 0xFFFFFFFE))

/-- DIAG: a write of EFP_CTRL with DIAG set (R283). -/
def execDiag (q : Requester) (p : Fin 24) (v : Word) (s : State) : Host.Outcome State Fault Refusal :=
  .next (s.regWrite q (Reg.EFP_CTRL p) (v ||| 2))

/-- REARM: a write of EFP_CTRL with REARM set (R283). -/
def execRearm (q : Requester) (p : Fin 24) (v : Word) (s : State) : Host.Outcome State Fault Refusal :=
  .next (s.regWrite q (Reg.EFP_CTRL p) (v ||| 4))

/-- RING_ENABLE (R323). -/
def execRingEnable (q : Requester) (r : Fin 256) (s : State) : Host.Outcome State Fault Refusal :=
  .next (s.regWrite q (Reg.HST_RING_CTRL r) 1)

/-- RING_DISABLE (R344). -/
def execRingDisable (q : Requester) (r : Fin 256) (s : State) : Host.Outcome State Fault Refusal :=
  .next (s.regWrite q (Reg.HST_RING_CTRL r) 0)

/-- SQ_TAIL: a doorbell write at the start of the ring's page (R322, R325). -/
def execSqTail (q : Requester) (r : Fin 256) (v : Word) (s : State) : Host.Outcome State Fault Refusal :=
  .next (s.regWrite q (0x800000 + 0x1000 * r.val) v)

/-- CQ_HEAD: a doorbell write at offset 4 of the ring's page (R322, R325). -/
def execCqHead (q : Requester) (r : Fin 256) (v : Word) (s : State) : Host.Outcome State Fault Refusal :=
  .next (s.regWrite q (0x800004 + 0x1000 * r.val) v)

/-- REC_CONS: the doorbell of a stream ring (R322, R325). -/
def execRecCons (q : Requester) (r : Fin 256) (v : Word) (s : State) : Host.Outcome State Fault Refusal :=
  .next (s.regWrite q (0x800000 + 0x1000 * r.val) v)

/-- POP (R359). -/
def execTxtsPop (q : Requester) (p : Fin 4) (s : State) : Host.Outcome State Fault Refusal :=
  .next (s.regWrite q (Reg.NET_TXTS_POP p) 1)

/-- DOM_STEP (R354). -/
def execDomStep (q : Requester) (d : Fin 2) (v : Word) (s : State) : Host.Outcome State Fault Refusal :=
  .next (s.regWrite q (Reg.TTU_DOM_STEP d) v)

/-- DOM_ENABLE: a write of TTU_DOM_CTRL (R355). -/
def execDomEnable (q : Requester) (d : Fin 2) (v : Word) (s : State) : Host.Outcome State Fault Refusal :=
  .next (s.regWrite q (Reg.TTU_DOM_CTRL d) v)

/-- DOM_UPDATE (R355). -/
def execDomUpdate (q : Requester) (d : Fin 2) (v : Word) (s : State) : Host.Outcome State Fault Refusal :=
  .next (s.regWrite q (Reg.TTU_DOM_UPDATE d) v)

/-- LOSS: a write of TTU_DOM_CTRL with LOSS, ENABLE kept (R355). -/
def execDomLoss (q : Requester) (d : Fin 2) (s : State) : Host.Outcome State Fault Refusal :=
  .next (s.regWrite q (Reg.TTU_DOM_CTRL d) 3)

/-- DOM_SEL (R356). -/
def execDomSel (q : Requester) (v : Word) (s : State) : Host.Outcome State Fault Refusal :=
  .next (s.regWrite q Reg.TTU_DOM_SEL v)

/-- MODULE (R366). -/
def execSvcModule (q : Requester) (s : State) : Host.Outcome State Fault Refusal :=
  .next (s.regWrite q Reg.SVC_RST_CTRL 1)

/-- BLOCK_RESET (R367). -/
def execBlockReset (q : Requester) (v : Word) (s : State) : Host.Outcome State Fault Refusal :=
  .next (s.regWrite q Reg.SVC_BLK_RST v)

/-- GO: a write of SVC_BOOT_MBOX with GO set (R373). -/
def execBootGo (q : Requester) (v : Word) (s : State) : Host.Outcome State Fault Refusal :=
  .next (s.regWrite q Reg.SVC_BOOT_MBOX (v ||| 0x80000000))

/-- OTP_MIN_VER (R376). -/
def execOtpMinVer (q : Requester) (s : State) : Host.Outcome State Fault Refusal :=
  .next (s.regWrite q Reg.SVC_OTP_CMD 0x0F7A0001)

/-- OTP_REVOKE (R376). -/
def execOtpRevoke (q : Requester) (k : Fin 4) (s : State) : Host.Outcome State Fault Refusal :=
  .next (s.regWrite q Reg.SVC_OTP_CMD (0x0F7A0002 + BitVec.ofNat 32 (16 * k.val)))

/-- OTP_PROGRAM_KEY (R376). -/
def execOtpProgramKey (q : Requester) (k : Fin 4) (s : State) : Host.Outcome State Fault Refusal :=
  .next (s.regWrite q Reg.SVC_OTP_CMD (0x0F7A0003 + BitVec.ofNat 32 (16 * k.val)))

/-- LOCK (R377). -/
def execSvcLock (q : Requester) (v : Word) (s : State) : Host.Outcome State Fault Refusal :=
  .next (s.regWrite q Reg.SVC_LOCK v)

/-- RUN: a write of SVC_PAIR_CTRL (R380). -/
def execPairRun (q : Requester) (v : Word) (s : State) : Host.Outcome State Fault Refusal :=
  .next (s.regWrite q Reg.SVC_PAIR_CTRL v)

/-- HALT: a write of SVC_PAIR_CTRL (R385). -/
def execPairHalt (q : Requester) (v : Word) (s : State) : Host.Outcome State Fault Refusal :=
  .next (s.regWrite q Reg.SVC_PAIR_CTRL v)

/-- H2F_SEND (R383). -/
def execH2fSend (q : Requester) (v : Word) (s : State) : Host.Outcome State Fault Refusal :=
  .next (s.regWrite q Reg.SVC_MBOX_CTRL (v ||| 1))

/-- H2F_ACK (R383). -/
def execH2fAck (q : Requester) (v : Word) (s : State) : Host.Outcome State Fault Refusal :=
  .next (s.regWrite q Reg.SVC_MBOX_CTRL (v ||| 4))

/-- F2H_SEND (R383). -/
def execF2hSend (q : Requester) (v : Word) (s : State) : Host.Outcome State Fault Refusal :=
  .next (s.regWrite q Reg.SVC_MBOX_CTRL (v ||| 0x10))

/-- F2H_ACK (R383). -/
def execF2hAck (q : Requester) (v : Word) (s : State) : Host.Outcome State Fault Refusal :=
  .next (s.regWrite q Reg.SVC_MBOX_CTRL (v ||| 0x40))

/-- ERASE (R386). -/
def execNorErase (q : Requester) (s : State) : Host.Outcome State Fault Refusal :=
  .next (s.regWrite q Reg.SVC_NOR_CTRL 1)

/-- PROGRAM (R386). -/
def execNorProgram (q : Requester) (s : State) : Host.Outcome State Fault Refusal :=
  .next (s.regWrite q Reg.SVC_NOR_CTRL 2)

/-- DSP_ENABLE: a write of DSP_CTRL (R389). -/
def execDspEnable (q : Requester) (n : Fin 2) (v : Word) (s : State) : Host.Outcome State Fault Refusal :=
  .next (s.regWrite q (Reg.DSP_CTRL n) v)

/-- RETRY: a write of DSP_CTRL with RETRY set (R389). -/
def execDspRetry (q : Requester) (n : Fin 2) (v : Word) (s : State) : Host.Outcome State Fault Refusal :=
  .next (s.regWrite q (Reg.DSP_CTRL n) (v ||| 2))

/-- DSP_COMMIT (R392). -/
def execDspCommit (q : Requester) (n : Fin 2) (s : State) : Host.Outcome State Fault Refusal :=
  .next (s.regWrite q (Reg.DSP_COMMIT n) 1)

/-- NOR_EN: a write of EVR_CTRL with NOR_EN 1 (R417). -/
def execNorEn (q : Requester) (v : Word) (s : State) : Host.Outcome State Fault Refusal :=
  .next (s.regWrite q Reg.EVR_CTRL (v ||| 1))

/-- LG_POP (R415). -/
def execLgPop (q : Requester) (s : State) : Host.Outcome State Fault Refusal := .next (s.regWrite q Reg.EVR_LG_POP 1)

/-- RD_IDX (R419). -/
def execRdIdx (q : Requester) (v : Word) (s : State) : Host.Outcome State Fault Refusal :=
  .next (s.regWrite q Reg.EVR_RD_IDX v)

/-- CLR_RAM (R420). -/
def execClrRam (q : Requester) (v : Word) (s : State) : Host.Outcome State Fault Refusal :=
  .next (s.regWrite q Reg.EVR_CTRL (v ||| 4))

/-- CLR_NOR (R420). -/
def execClrNor (q : Requester) (v : Word) (s : State) : Host.Outcome State Fault Refusal :=
  .next (s.regWrite q Reg.EVR_CTRL (v ||| 8))

/-- SNAP (R424). -/
def execSnap (q : Requester) (v : Word) (s : State) : Host.Outcome State Fault Refusal :=
  .next (s.regWrite q Reg.PMC_CTRL (v ||| 2))

/-- FREEZE: a write of PMC_CTRL (R424). -/
def execFreeze (q : Requester) (v : Word) (s : State) : Host.Outcome State Fault Refusal :=
  .next (s.regWrite q Reg.PMC_CTRL v)

/-- ASSAY_ABORT (R436). -/
def execAssayAbort (q : Requester) (s : State) : Host.Outcome State Fault Refusal :=
  .next (s.regWrite q Reg.ASY_CTRL 1)

end Sys2Proof.Machine
end

