-- ==== Sys2Proof/Machine/Layers.lean ====
section
/-! DEFINITION. The commands of layers, lattices and registration runs, of arbitration, of loops and Temper, of
emission safety and thermal management, and the accesses of the service cluster. -/

namespace Sys2Proof.Machine

/-! ### Layers (R82, R85) -/

/-- LOAD. -/
def execLoad (r : Fin 256) (errs : List DramErr) (s : State) : Host.Outcome State Fault Refusal :=
  .next (s.act fun e c => ({ c with derr := errs }).begin r 0x10 fun d c => c.load e r d)

/-- LOAD_CHECK_COMPLETE. -/
def execLoadCheckComplete (r : Fin 256) (errs : List DramErr) (s : State) : Host.Outcome State Fault Refusal :=
  .next (s.act fun e c => ({ c with derr := errs }).loadDone e r)

/-- START. -/
def execStart (r : Fin 256) (s : State) : Host.Outcome State Fault Refusal :=
  .next (s.act fun e c => c.begin r 0x11 fun d c => c.start e r d)

/-- ABORT. -/
def execAbort (r : Fin 256) (s : State) : Host.Outcome State Fault Refusal :=
  .next (s.act fun e c => c.begin r 0x12 fun d c => c.abort e r d)

/-- RELEASE. -/
def execRelease (r : Fin 256) (s : State) : Host.Outcome State Fault Refusal :=
  .next (s.act fun e c => c.begin r 0x13 fun d c => c.release e r d)

/-! ### Lattices and registration (R130, R141, R144, R147) -/

/-- LATTICE_LOAD. -/
def execLatticeLoad (r : Fin 256) (s : State) : Host.Outcome State Fault Refusal :=
  .next (s.act fun e c => c.begin r 0x21 fun d c => c.latticeLoad e r d)

/-- LATTICE_LOAD_COMPLETE. -/
def execLatticeLoadComplete (r : Fin 256) (errs : List DramErr) (s : State) : Host.Outcome State Fault Refusal :=
  .next (s.act fun e c => ({ c with derr := errs }).latticeDone e r)

/-- REGISTER. -/
def execRegister (r : Fin 256) (errs : List DramErr) (s : State) : Host.Outcome State Fault Refusal :=
  .next (s.act fun e c => ({ c with derr := errs }).begin r 0x22 fun d c => c.register e r d)

/-- REGISTRATION_DONE, with what the cameras have found. -/
def execRegistrationDone (x : RegFindings) (s : State) : Host.Outcome State Fault Refusal :=
  .next (s.act fun e c => c.regDone e x)

/-! ### Arbitration (R157, R168) -/

/-- FORCED of a shared Billet, by its directory index. -/
def execForced (b : Nat) (s : State) : Host.Outcome State Fault Refusal := .next (s.act fun _ c => c.forcedGrant b)

/-- PRI_GAIN. -/
def execPriGain (h : Fin 64) (s : State) : Host.Outcome State Fault Refusal := .next (s.act fun _ c => c.priGain h)

/-- PRI_LOSS. -/
def execPriLoss (h : Fin 64) (s : State) : Host.Outcome State Fault Refusal := .next (s.act fun _ c => c.priLoss h)

/-! ### Loops and Temper (R183, R186, R188, R191) -/

/-- FB_OPENLOOP. -/
def execFbOpenloop (m : Fin 128) (s : State) : Host.Outcome State Fault Refusal := .next (s.act fun _ c => c.fbOpenLoop m)

/-- GATED. -/
def execGated (h : Fin 64) (s : State) : Host.Outcome State Fault Refusal := .next (s.act fun _ c => c.gateLoop h)

/-- FB_RECOVER. -/
def execFbRecover (m : Fin 128) (s : State) : Host.Outcome State Fault Refusal := .next (s.act fun _ c => c.fbRecover m)

/-- FAIL_OUT. -/
def execFailOut (m : Fin 128) (s : State) : Host.Outcome State Fault Refusal := .next (s.act fun _ c => c.failOut m)

/-- ON_INPUT: the iteration that a new source value has triggered. -/
def execOnInput (m : Fin 128) (s : State) : Host.Outcome State Fault Refusal := .next (s.act fun _ c => c.l1Take m 1)

/-- ON_PERIOD: the iteration that the period has triggered. -/
def execOnPeriod (m : Fin 128) (s : State) : Host.Outcome State Fault Refusal := .next (s.act fun _ c => c.l1Take m 2)

/-- TEMPER_FINALISE. -/
def execTemperFinalise (s : State) : Host.Outcome State Fault Refusal := .next (s.act fun _ c => c.temperFinalise)

/-- TEMPER_READY. -/
def execTemperReady (s : State) : Host.Outcome State Fault Refusal := .next (s.act fun e c => c.temperReady e)

/-! ### Emission safety and temperature (R193 to R195, R442) -/

/-- EMREL_DELAY_ELAPSED. -/
def execEmrelDelayElapsed (s : State) : Host.Outcome State Fault Refusal := .next (s.act fun _ c => c.emrelDelayed)

/-- ESTOP, with whether each input is healthy. -/
def execEstop (a b : Bool) (s : State) : Host.Outcome State Fault Refusal := .next (s.act fun e c => c.estopPins e a b)

/-- ESTOP_DISC. -/
def execEstopDisc (s : State) : Host.Outcome State Fault Refusal := .next (s.act fun _ c => c.estopDisc)

/-- WDOG_EXP. -/
def execWdogExp (s : State) : Host.Outcome State Fault Refusal := .next (s.act fun e c => c.wdogExpire e)

/-- TICKMON_EXP. -/
def execTickmonExp (s : State) : Host.Outcome State Fault Refusal := .next (s.act fun e c => c.tickmonExpire e)

/-- THERMAL_EVALUATION. -/
def execThermalEvaluation (s : State) : Host.Outcome State Fault Refusal := .next (s.act fun e c => c.thermEvaluate e)

/-! ### The service cluster (R372, R381, R426) -/

/-- A load of a PMC register by a running pair: a user-mode load needs PMC_USER_EN (R426). -/
def Chip.pmcAccess (e : Env) (c : Chip) (p : Fin 4) (off : Nat) (user : Bool) : Chip :=
  if user && !c.bit Reg.PMC_USER_EN 0 then c.svcResult [] true
  else
    let c := c.busRead e (.pair p) (0x140000 + off % 0x10000) 15
    { c with rbytes := leBytes 4 c.rdata.toNat, rbad := false }

/-- SERVICE_CLUSTER_ACCESS. -/
def execServiceClusterAccess (p : Fin 4) (x : SvcAccess) (errs : List DramErr) (s : State) : Host.Outcome State Fault Refusal :=
  .next (s.act fun e c =>
    let c := { c with derr := errs }
    match x with
    | .pmcLoad off user => if c.svc.running.getLsbD p then c.pmcAccess e p off user else c
    | x => c.svcAccess e p x)

end Sys2Proof.Machine
end

