-- ==== Sys2Proof/Machine/Uplink.lean ====
section
/-! DEFINITION. An uplink packet as a head lane receives it, by its code groups (R229, R239, R242 to R244, R251): the tests
that accept it, and what is done with one that fails them. -/

namespace Sys2Proof.Machine

/-- The bytes between SOP and the symbol that ends a packet, and whether that symbol is EDB; none where the symbols are no
packet that EOP or EDB ends. -/
def packetBody (ss : List Symbol) : Option (List Byte × Bool) :=
  match ss with
  | .ctrl 0xFB :: rest =>
    let body := rest.dropLast.filterMap fun s => match s with | .data o => some o | .ctrl _ => none
    if body.length + 1 = rest.length then
      match rest.getLast? with
      | some (.ctrl 0xFD) => some (body, false)
      | some (.ctrl 0xFE) => some (body, true)
      | _ => none
    else none
  | _ => none

/-- The samples of a SAMPLE packet (R242). -/
def sampleSets (bs : List Byte) (n : Nat) : List (List Nat) :=
  (List.range n).map fun i => (List.range 8).map fun j => leAt bs (3 + 16 * i + 2 * j) 2

/-- What an accepted MESSAGE does. One with an unknown opcode is acknowledged, dropped and counted as an uplink CRC error
(R243). -/
def Chip.takeMessage (e : Env) (c : Chip) (h : Fin 64) (op : Nat) (payload : List Byte) : Chip :=
  match op with
  | 0x81 => c.takeCap e h payload
  | 0x83 => c.passReplied e h payload
  | 0x84 => c.takeIdleAck e h
  | 0x85 => c.takeHeadFault h payload
  | _ => c.badUplink h 0

/-- A packet whose bytes 0 to L − 1 have come whole: its type and length are valid for the uplink, or it is discarded (R239,
R242, R243). -/
def Chip.takePacket (e : Env) (c : Chip) (h : Fin 64) (bs : List Byte) : Chip :=
  let b0 := leAt bs 0 1
  let seq := leAt bs 1 1
  let n := b0 / 32
  match b0 % 16 with
  | 2 =>
    if bs.length = 3 + 16 * n then c.takeSample h seq (leAt bs 2 1) (bitOf b0 4) (sampleSets bs n)
    else c.badUplink h (packetCost bs.length)
  | 3 =>
    if bs.length = 12 then c.takeStatus e h seq (leAt bs 2 1) (leSAt bs 3 3) (leSAt bs 6 3) (leAt bs 9 1)
    else c.badUplink h (packetCost bs.length)
  | 4 =>
    let len := leAt bs 3 1
    if bs.length = 4 + len ∧ len ≤ 252 then
      c.upMessage h seq len fun c => c.takeMessage e h (leAt bs 2 1) (bs.drop 4)
    else c.badUplink h (packetCost bs.length)
  | _ => c.badUplink h (packetCost bs.length)

/-- A packet by its code groups. Code errors are counted, and 16 of them take the lane DOWN; the packet is accepted where it
has none, ends in EOP and its CRC matches. One that EDB ends is discarded and not counted: only its credits are granted
again (R244, R251). -/
def Chip.rxPacket (e : Env) (c : Chip) (h : Fin 64) (rd : Bool) (gs : List Nat) : Chip :=
  if !(c.lane[headLane h]).state.hears then c
  else
    let ss := decodeAll rd gs
    let errs := (ss.filter (·.isNone)).length
    let spent := (gs.length + 15) / 16
    let c := c.codeErrors h errs
    let c := match packetBody (ss.filterMap id) with
      | some (_, true) => c.sendFc h none spent
      | some (bs, false) =>
        let n := bs.length - 2
        if errs = 0 ∧ 4 ≤ bs.length ∧ leAt bs n 2 = crc16 (bs.take n) then c.takePacket e h (bs.take n) else c.badUplink h spent
      | none => c.badUplink h spent
    if 16 ≤ errs then c.loseSignal e h else c

/-- UL_CRC (R251): a packet arrives whose code groups tell whether it is discarded. -/
def execUlCrc (h : Fin 64) (rd : Bool) (gs : List (BitVec 10)) (s : State) : Host.Outcome State Fault Refusal :=
  laneCommand h s fun e c => c.rxPacket e h rd (gs.map (·.toNat))

end Sys2Proof.Machine
end

