-- ==== Sys2Proof/Machine/Dispatch.lean ====
section
/-! DEFINITION. What each command does: one arm for each constructor of `Instr`, in the order of the table. -/

namespace Sys2Proof.Machine

/-- The effect of a command on everything but the queue. -/
def exec (i : Instr) (s : State) : Host.Outcome State Fault Refusal :=
  match i with
  | .registerWrite q off be v => Sys2Proof.Machine.execRegisterWrite q off be v s
  | .refusedRead q off be => Sys2Proof.Machine.execRefusedRead q off be s
  | .rcRead q off => Sys2Proof.Machine.execRcRead q off s
  | .pairLoRead q off => Sys2Proof.Machine.execPairLoRead q off s
  | .pairHiRead q off => Sys2Proof.Machine.execPairHiRead q off s
  | .pairLoWrite q off v => Sys2Proof.Machine.execPairLoWrite q off v s
  | .pairHiWrite q off v => Sys2Proof.Machine.execPairHiWrite q off v s
  | .tickBoundary x => Sys2Proof.Machine.execTickBoundary x s
  | .deadlineMiss m => Sys2Proof.Machine.execDeadlineMiss m s
  | .regrid q => Sys2Proof.Machine.execRegrid q s
  | .regridGapEnd x => Sys2Proof.Machine.execRegridGapEnd x s
  | .commitReq q v => Sys2Proof.Machine.execCommitReq q v s
  | .tickOutPulse => Sys2Proof.Machine.execTickOutPulse s
  | .layerStart => Sys2Proof.Machine.execLayerStart s
  | .layerEnd => Sys2Proof.Machine.execLayerEnd s
  | .nop r => Sys2Proof.Machine.execNop r s
  | .chain r errs => Sys2Proof.Machine.execChain r errs s
  | .copy r errs => Sys2Proof.Machine.execCopy r errs s
  | .load r errs => Sys2Proof.Machine.execLoad r errs s
  | .loadCheckComplete r errs => Sys2Proof.Machine.execLoadCheckComplete r errs s
  | .start r => Sys2Proof.Machine.execStart r s
  | .abort r => Sys2Proof.Machine.execAbort r s
  | .release r => Sys2Proof.Machine.execRelease r s
  | .slotReady x billet errs => Sys2Proof.Machine.execSlotReady x billet errs s
  | .bar2Write x bytes errs => Sys2Proof.Machine.execBar2Write x bytes errs s
  | .bar2Read x len errs => Sys2Proof.Machine.execBar2Read x len errs s
  | .latticeLoad r => Sys2Proof.Machine.execLatticeLoad r s
  | .latticeLoadComplete r errs => Sys2Proof.Machine.execLatticeLoadComplete r errs s
  | .register r errs => Sys2Proof.Machine.execRegister r errs s
  | .registrationDone x => Sys2Proof.Machine.execRegistrationDone x s
  | .forced b => Sys2Proof.Machine.execForced b s
  | .priGain h => Sys2Proof.Machine.execPriGain h s
  | .priLoss h => Sys2Proof.Machine.execPriLoss h s
  | .loopClose q m => Sys2Proof.Machine.execLoopClose q m s
  | .loopOpen q m => Sys2Proof.Machine.execLoopOpen q m s
  | .fbOpenloop m => Sys2Proof.Machine.execFbOpenloop m s
  | .gated h => Sys2Proof.Machine.execGated h s
  | .fbRecover m => Sys2Proof.Machine.execFbRecover m s
  | .failOut m => Sys2Proof.Machine.execFailOut m s
  | .axisFbFault a p => Sys2Proof.Machine.execAxisFbFault a p s
  | .coefficientWrite q off v => Sys2Proof.Machine.execCoefficientWrite q off v s
  | .onInput m => Sys2Proof.Machine.execOnInput m s
  | .onPeriod m => Sys2Proof.Machine.execOnPeriod m s
  | .temperFinalise => Sys2Proof.Machine.execTemperFinalise s
  | .temperReady => Sys2Proof.Machine.execTemperReady s
  | .emissionReq q v => Sys2Proof.Machine.execEmissionReq q v s
  | .emrelDelayElapsed => Sys2Proof.Machine.execEmrelDelayElapsed s
  | .estop a b => Sys2Proof.Machine.execEstop a b s
  | .estopDisc => Sys2Proof.Machine.execEstopDisc s
  | .estopLatchClear q v => Sys2Proof.Machine.execEstopLatchClear q v s
  | .wdogArm q v => Sys2Proof.Machine.execWdogArm q v s
  | .wdogKick q v => Sys2Proof.Machine.execWdogKick q v s
  | .wdogExp => Sys2Proof.Machine.execWdogExp s
  | .tickmonExp => Sys2Proof.Machine.execTickmonExp s
  | .wdogExpClear q v => Sys2Proof.Machine.execWdogExpClear q v s
  | .laserStop q => Sys2Proof.Machine.execLaserStop q s
  | .camEnable q p v => Sys2Proof.Machine.execCamEnable q p v s
  | .camDisable q p v => Sys2Proof.Machine.execCamDisable q p v s
  | .identComplete p res => Sys2Proof.Machine.execIdentComplete p res s
  | .frameStart p id fn ecc => Sys2Proof.Machine.execFrameStart p id fn ecc s
  | .frameEnd p header => Sys2Proof.Machine.execFrameEnd p header s
  | .longPacket p header bs crc => Sys2Proof.Machine.execLongPacket p header bs crc s
  | .foreignPacket x => Sys2Proof.Machine.execForeignPacket x s
  | .frameTmo p => Sys2Proof.Machine.execFrameTmo p s
  | .featureRecord p => Sys2Proof.Machine.execFeatureRecord p s
  | .expCommit q p v => Sys2Proof.Machine.execExpCommit q p v s
  | .cciTransferStart p => Sys2Proof.Machine.execCciTransferStart p s
  | .cciTransferComplete p failed => Sys2Proof.Machine.execCciTransferComplete p failed s
  | .laneEnable q l v => Sys2Proof.Machine.execLaneEnable q l v s
  | .laneDisable q l v => Sys2Proof.Machine.execLaneDisable q l v s
  | .retrain q l v => Sys2Proof.Machine.execRetrain q l v s
  | .trainingSet h ts2 lane sent => Sys2Proof.Machine.execTrainingSet h ts2 lane sent s
  | .cap h seq r => Sys2Proof.Machine.execCap h seq r s
  | .fc h ack crd => Sys2Proof.Machine.execFc h ack crd s
  | .prs h ok id th m => Sys2Proof.Machine.execPrs h ok id th m s
  | .probeTimeout h => Sys2Proof.Machine.execProbeTimeout h s
  | .remeas h => Sys2Proof.Machine.execRemeas h s
  | .status h seq tidx ex ey hstat => Sys2Proof.Machine.execStatus h seq tidx ex ey hstat s
  | .sample h seq tidx copy pds => Sys2Proof.Machine.execSample h seq tidx copy pds s
  | .passReply h seq bs => Sys2Proof.Machine.execPassReply h seq bs s
  | .idleAck h seq => Sys2Proof.Machine.execIdleAck h seq s
  | .headFault h seq payload => Sys2Proof.Machine.execHeadFault h seq payload s
  | .messageResend h => Sys2Proof.Machine.execMessageResend h s
  | .trainTmo h => Sys2Proof.Machine.execTrainTmo h s
  | .autoRetry h => Sys2Proof.Machine.execAutoRetry h s
  | .exitFail h => Sys2Proof.Machine.execExitFail h s
  | .los h x => Sys2Proof.Machine.execLos h x s
  | .ulTimeout h => Sys2Proof.Machine.execUlTimeout h s
  | .idle q l v => Sys2Proof.Machine.execIdle q l v s
  | .wake q l v => Sys2Proof.Machine.execWake q l v s
  | .injCrc q l v => Sys2Proof.Machine.execInjCrc q l v s
  | .injBit q l v => Sys2Proof.Machine.execInjBit q l v s
  | .eyeScanStart q l v => Sys2Proof.Machine.execEyeScanStart q l v s
  | .eyeScanDone l count => Sys2Proof.Machine.execEyeScanDone l count s
  | .axEnable q a => Sys2Proof.Machine.execAxEnable q a s
  | .axDisable q a => Sys2Proof.Machine.execAxDisable q a s
  | .axStop q a => Sys2Proof.Machine.execAxStop q a s
  | .quickStop q a => Sys2Proof.Machine.execQuickStop q a s
  | .axHome q a => Sys2Proof.Machine.execAxHome q a s
  | .clrFault q a => Sys2Proof.Machine.execClrFault q a s
  | .setPos q a => Sys2Proof.Machine.execSetPos q a s
  | .acceptPos q a => Sys2Proof.Machine.execAcceptPos q a s
  | .windingMeasurement a codes => Sys2Proof.Machine.execWindingMeasurement a codes s
  | .rampComplete a => Sys2Proof.Machine.execRampComplete a s
  | .still a => Sys2Proof.Machine.execStill a s
  | .axPush q a => Sys2Proof.Machine.execAxPush q a s
  | .limit a => Sys2Proof.Machine.execLimit a s
  | .homeLatch a => Sys2Proof.Machine.execHomeLatch a s
  | .debounceEnd a => Sys2Proof.Machine.execDebounceEnd a s
  | .homeRangeExceeded a => Sys2Proof.Machine.execHomeRangeExceeded a s
  | .overcurrent x => Sys2Proof.Machine.execOvercurrent x s
  | .vbusUv mv10 => Sys2Proof.Machine.execVbusUv mv10 s
  | .islandPowered mv10 => Sys2Proof.Machine.execIslandPowered mv10 s
  | .vbusOv mv10 => Sys2Proof.Machine.execVbusOv mv10 s
  | .movedUnpowered x => Sys2Proof.Machine.execMovedUnpowered x s
  | .tabData q v => Sys2Proof.Machine.execTabData q v s
  | .efpEnable q p v => Sys2Proof.Machine.execEfpEnable q p v s
  | .efpDisable q p v => Sys2Proof.Machine.execEfpDisable q p v s
  | .diag q p v => Sys2Proof.Machine.execDiag q p v s
  | .diagComplete p r cur near => Sys2Proof.Machine.execDiagComplete p r cur near s
  | .rearm q p v => Sys2Proof.Machine.execRearm q p v s
  | .governorTrip p ua mv => Sys2Proof.Machine.execGovernorTrip p ua mv s
  | .conversion p raw open_ cj => Sys2Proof.Machine.execConversion p raw open_ cj s
  | .dryTransition p mv ua => Sys2Proof.Machine.execDryTransition p mv ua s
  | .patrolScrub errs => Sys2Proof.Machine.execPatrolScrub errs s
  | .refresh k hot => Sys2Proof.Machine.execRefresh k hot s
  | .dqsCheck k drift => Sys2Proof.Machine.execDqsCheck k drift s
  | .fullRetraining => Sys2Proof.Machine.execFullRetraining s
  | .rhThrottle k bank acts => Sys2Proof.Machine.execRhThrottle k bank acts s
  | .crucibleScrub w => Sys2Proof.Machine.execCrucibleScrub w s
  | .ringEnable q r => Sys2Proof.Machine.execRingEnable q r s
  | .ringDisable q r => Sys2Proof.Machine.execRingDisable q r s
  | .sqTail q r v => Sys2Proof.Machine.execSqTail q r v s
  | .cqHead q r v => Sys2Proof.Machine.execCqHead q r v s
  | .recCons q r v => Sys2Proof.Machine.execRecCons q r v s
  | .descriptorFetch r errs => Sys2Proof.Machine.execDescriptorFetch r errs s
  | .writeBack r => Sys2Proof.Machine.execWriteBack r s
  | .msixMessage v => Sys2Proof.Machine.execMsixMessage v s
  | .hostTmo id => Sys2Proof.Machine.execHostTmo id s
  | .hostReadCompletion id res errs => Sys2Proof.Machine.execHostReadCompletion id res errs s
  | .regWrite r errs => Sys2Proof.Machine.execRegWrite r errs s
  | .assay r ref errs => Sys2Proof.Machine.execAssay r ref errs s
  | .klpPass r errs => Sys2Proof.Machine.execKlpPass r errs s
  | .noReply h => Sys2Proof.Machine.execNoReply h s
  | .axMove r => Sys2Proof.Machine.execAxMove r s
  | .axCmd r => Sys2Proof.Machine.execAxCmd r s
  | .frameBuf r => Sys2Proof.Machine.execFrameBuf r s
  | .netTx r errs => Sys2Proof.Machine.execNetTx r errs s
  | .netRx r => Sys2Proof.Machine.execNetRx r s
  | .functionLevelReset x => Sys2Proof.Machine.execFunctionLevelReset x s
  | .receiveFrame p bytes edges => Sys2Proof.Machine.execReceiveFrame p bytes edges s
  | .frameTransmitted p edges => Sys2Proof.Machine.execFrameTransmitted p edges s
  | .linkLost p => Sys2Proof.Machine.execLinkLost p s
  | .txtsPop q p => Sys2Proof.Machine.execTxtsPop q p s
  | .timeSet q d v => Sys2Proof.Machine.execTimeSet q d v s
  | .domStep q d v => Sys2Proof.Machine.execDomStep q d v s
  | .domEnable q d v => Sys2Proof.Machine.execDomEnable q d v s
  | .domUpdate q d v => Sys2Proof.Machine.execDomUpdate q d v s
  | .domLoss q d => Sys2Proof.Machine.execDomLoss q d s
  | .holdover d => Sys2Proof.Machine.execHoldover d s
  | .domainLost d => Sys2Proof.Machine.execDomainLost d s
  | .domSel q v => Sys2Proof.Machine.execDomSel q v s
  | .ppsOutPulse edges => Sys2Proof.Machine.execPpsOutPulse edges s
  | .ppsIn edges => Sys2Proof.Machine.execPpsIn edges s
  | .powerOnReset bootsel spans => Sys2Proof.Machine.execPowerOnReset bootsel spans s
  | .pfail => Sys2Proof.Machine.execPfail s
  | .moduleReset cause bootsel => Sys2Proof.Machine.execModuleReset cause bootsel s
  | .svcModule q => Sys2Proof.Machine.execSvcModule q s
  | .blockReset q v => Sys2Proof.Machine.execBlockReset q v s
  | .dramTrained ok0 ok1 => Sys2Proof.Machine.execDramTrained ok0 ok1 s
  | .imageCheck norErr errs => Sys2Proof.Machine.execImageCheck norErr errs s
  | .bootGo q v => Sys2Proof.Machine.execBootGo q v s
  | .mailboxTimeout => Sys2Proof.Machine.execMailboxTimeout s
  | .otpMinVer q => Sys2Proof.Machine.execOtpMinVer q s
  | .otpRevoke q k => Sys2Proof.Machine.execOtpRevoke q k s
  | .otpProgramKey q k => Sys2Proof.Machine.execOtpProgramKey q k s
  | .otpCommandDone => Sys2Proof.Machine.execOtpCommandDone s
  | .svcLock q v => Sys2Proof.Machine.execSvcLock q v s
  | .pairFault p cause => Sys2Proof.Machine.execPairFault p cause s
  | .pairRun q v => Sys2Proof.Machine.execPairRun q v s
  | .pairHalt q v => Sys2Proof.Machine.execPairHalt q v s
  | .h2fSend q v => Sys2Proof.Machine.execH2fSend q v s
  | .h2fAck q v => Sys2Proof.Machine.execH2fAck q v s
  | .f2hSend q v => Sys2Proof.Machine.execF2hSend q v s
  | .f2hAck q v => Sys2Proof.Machine.execF2hAck q v s
  | .norErase q => Sys2Proof.Machine.execNorErase q s
  | .norProgram q => Sys2Proof.Machine.execNorProgram q s
  | .norOperationDone ok => Sys2Proof.Machine.execNorOperationDone ok s
  | .dspEnable q n v => Sys2Proof.Machine.execDspEnable q n v s
  | .sinkDetect n res => Sys2Proof.Machine.execSinkDetect n res s
  | .hpdIrq n status => Sys2Proof.Machine.execHpdIrq n status s
  | .unplug n => Sys2Proof.Machine.execUnplug n s
  | .dspRetry q n v => Sys2Proof.Machine.execDspRetry q n v s
  | .trainingComplete n ok => Sys2Proof.Machine.execTrainingComplete n ok s
  | .dspCommit q n => Sys2Proof.Machine.execDspCommit q n s
  | .verticalBlanking n errs => Sys2Proof.Machine.execVerticalBlanking n errs s
  | .underrun n x y => Sys2Proof.Machine.execUnderrun n x y s
  | .coalWindowEnd edges => Sys2Proof.Machine.execCoalWindowEnd edges s
  | .intakeLost => Sys2Proof.Machine.execIntakeLost s
  | .flush w => Sys2Proof.Machine.execFlush w s
  | .norPageProgrammed res => Sys2Proof.Machine.execNorPageProgrammed res s
  | .norSectorErased ok => Sys2Proof.Machine.execNorSectorErased ok s
  | .logUe x => Sys2Proof.Machine.execLogUe x s
  | .norEn q v => Sys2Proof.Machine.execNorEn q v s
  | .lgPop q => Sys2Proof.Machine.execLgPop q s
  | .rdIdx q v => Sys2Proof.Machine.execRdIdx q v s
  | .rdLoaded => Sys2Proof.Machine.execRdLoaded s
  | .clrRam q v => Sys2Proof.Machine.execClrRam q v s
  | .clrNor q v => Sys2Proof.Machine.execClrNor q v s
  | .snap q v => Sys2Proof.Machine.execSnap q v s
  | .freeze q v => Sys2Proof.Machine.execFreeze q v s
  | .counterWrap b x => Sys2Proof.Machine.execCounterWrap b x s
  | .assayPhaseDone sum => Sys2Proof.Machine.execAssayPhaseDone sum s
  | .assayAbort q => Sys2Proof.Machine.execAssayAbort q s
  | .railSample r mv => Sys2Proof.Machine.execRailSample r mv s
  | .railFault => Sys2Proof.Machine.execRailFault s
  | .tempConversion vs => Sys2Proof.Machine.execTempConversion vs s
  | .thermalEvaluation => Sys2Proof.Machine.execThermalEvaluation s
  | .ulCrc h rd gs => Sys2Proof.Machine.execUlCrc h rd gs s
  | .prbsLock l bs => Sys2Proof.Machine.execPrbsLock l bs s
  | .prbsLockLoss l bs => Sys2Proof.Machine.execPrbsLockLoss l bs s
  | .linkUp p speed => Sys2Proof.Machine.execLinkUp p speed s
  | .outPeriodStart p => Sys2Proof.Machine.execOutPeriodStart p s
  | .rhWindowEnd k => Sys2Proof.Machine.execRhWindowEnd k s
  | .serviceClusterAccess p x errs => Sys2Proof.Machine.execServiceClusterAccess p x errs s
  | .fullRetrainingDone counts => Sys2Proof.Machine.execFullRetrainingDone counts s

end Sys2Proof.Machine
end

