-- ==== Sys2Proof/Machine/Step.lean ====
section
/-! DEFINITION. One step: the command at the front of the queue runs; with an empty queue one edge of the reference clock passes. -/

namespace Sys2Proof.Machine

/-- A step. DESIGN CHOICE (log entry 1): on an empty queue one edge of the reference clock passes and the clocks advance;
every tick, timer and packet is a command, and takes no time. -/
def step (s : State) : Host.Outcome State Fault Refusal :=
  match s.pending with
  | [] => .next { s with chip := s.chip.idle }
  | i :: rest => exec i { s with pending := rest }

/-- The command that a word spells, put at the front of the queue; where the word spells none, nothing changes. -/
def State.withFetchWord (s : State) (nbits w : Nat) : State :=
  match decodeTableWord nbits w with
  | some i => { s with pending := i :: s.pending }
  | none => s

end Sys2Proof.Machine
end

