-- ==== Sys2Proof/WellFormed.lean ====
section
/-! DEFINITION. Which commands are well formed: what the outside world can send. The rows of reads and writes of RC
registers, pairs and coefficients name such a register; packets, messages, tables and instants lie in the ranges that
their rules give. -/

namespace Sys2Proof

open Sys2Proof.Machine

/-- A property of the register at an aligned offset. -/
def onReg (off : Offset) (f : RegRow → Bool) : Bool := off.toNat % 4 == 0 && (rowOf off.toNat).any f

/-- Errors of the DRAM devices: within the DRAM, one error for a symbol, and none that is no error (R299, R300). -/
def errsOk : List DramErr → Bool
  | [] => true
  | x :: xs => decide (x.beat < 2 ^ 32) && x.xor != 0 && xs.all (fun y => y.beat != x.beat || y.pos != x.pos) && errsOk xs

/-- A word of Crucible read with an error (R311, R312). -/
def crbReadOk (x : CrbRead) : Bool := decide (x.word < 48 * 2 ^ 17) && x.found != .ok

/-- What reaches the device at a boundary: supply and errors in range, and the unit at which the power stage ended. -/
def tickInOk (i : TickIn) : Bool :=
  decide (i.vbus < 2 ^ 16) && decide (i.occ < 2 ^ 16) && i.crb.all crbReadOk && errsOk i.errs

/-- An access of a lockstep pair: some bytes of device DRAM, of the NOR window or one PMC register (R295, R372). -/
def accessOk : SvcAccess → Bool
  | .load a n => decide (0 < n) && decide (a + n ≤ 2 ^ 35)
  | .store a bs => !bs.isEmpty && decide (a + bs.length ≤ 2 ^ 35)
  | .norLoad o n => decide (0 < n) && decide (o + n ≤ 2 ^ 26)
  | .pmcLoad off _ => decide (off < 0x10000) && off % 4 == 0
  | .spadLoad o n errs => decide (0 < n) && decide (o + n ≤ 21 * 2 ^ 19) && errs.all crbReadOk
  | .spadStore o bs => !bs.isEmpty && decide (o + bs.length ≤ 21 * 2 ^ 19)

/-- A well-formed command. -/
def Instr.wf : Instr → Bool
  | .registerWrite _ _ _ _ => true
  | .refusedRead _ off be => off.toNat % 4 != 0 || be != 15
  | .rcRead _ off => onReg off fun r => r.rc != 0
  | .pairLoRead _ off => onReg off fun r => match memberOf r.name with | .first _ => true | _ => false
  | .pairHiRead _ off => onReg off fun r => match memberOf r.name with | .rest _ => true | _ => false
  | .pairLoWrite _ off _ => onReg off fun r => isStaged r.name
  | .pairHiWrite _ off _ => onReg off fun r => !isStaged r.name && memberOf r.name != .single
  | .tickBoundary i => tickInOk i
  | .deadlineMiss _ => true
  | .regrid _ => true
  | .regridGapEnd i => tickInOk i
  | .commitReq _ _ => true
  | .tickOutPulse => true
  | .layerStart => true
  | .layerEnd => true
  | .nop _ => true
  | .chain _ errs => errsOk errs
  | .copy _ errs => errsOk errs
  | .load _ errs => errsOk errs
  | .loadCheckComplete _ errs => errsOk errs
  | .start _ => true
  | .abort _ => true
  | .release _ => true
  | .slotReady _ b errs => decide (b < 2 ^ 32) && errsOk errs
  | .bar2Write x bs errs => !bs.isEmpty && decide (x.toNat + bs.length ≤ 2 ^ 32) && errsOk errs
  | .bar2Read x n errs => decide (0 < n) && decide (x.toNat + n ≤ 2 ^ 32) && errsOk errs
  | .latticeLoad _ => true
  | .latticeLoadComplete _ errs => errsOk errs
  | .register _ errs => errsOk errs
  | .registrationDone _ => true
  | .forced b => decide (b < 2 ^ 32)
  | .priGain _ => true
  | .priLoss _ => true
  | .loopClose _ _ => true
  | .loopOpen _ _ => true
  | .fbOpenloop _ => true
  | .gated _ => true
  | .fbRecover _ => true
  | .failOut _ => true
  | .axisFbFault _ _ => true
  | .coefficientWrite _ off _ => onReg off fun r => isCoefficient r.name
  | .onInput _ => true
  | .onPeriod _ => true
  | .temperFinalise => true
  | .temperReady => true
  | .emissionReq _ _ => true
  | .emrelDelayElapsed => true
  | .estop _ _ => true
  | .estopDisc => true
  | .estopLatchClear _ _ => true
  | .wdogArm _ _ => true
  | .wdogKick _ _ => true
  | .wdogExp => true
  | .tickmonExp => true
  | .wdogExpClear _ _ => true
  | .laserStop _ => true
  | .camEnable _ _ _ => true
  | .camDisable _ _ _ => true
  | .identComplete _ res => res.all fun bs => decide (bs.length ≤ 8)
  | .frameStart _ _ _ _ => true
  | .frameEnd _ _ => true
  | .longPacket _ _ bs _ => decide (bs.length < 2 ^ 16)
  | .foreignPacket x => decide (x.bytes.length < 2 ^ 16)
  | .frameTmo _ => true
  | .featureRecord _ => true
  | .expCommit _ _ _ => true
  | .cciTransferStart _ => true
  | .cciTransferComplete _ _ => true
  | .laneEnable _ _ _ => true
  | .laneDisable _ _ _ => true
  | .retrain _ _ _ => true
  | .trainingSet _ _ _ n => decide (n < 2 ^ 32)
  | .cap _ _ r => r.length == 32
  | .fc _ _ _ => true
  | .prs _ _ _ _ _ => true
  | .probeTimeout _ => true
  | .remeas _ => true
  | .status _ _ _ _ _ _ => true
  | .sample _ _ _ _ pds => decide (pds.length ≤ 4) && pds.all fun p => p.length == 8 && p.all (· < 2 ^ 16)
  | .passReply _ _ bs => decide (bs.length ≤ 252)
  | .idleAck _ _ => true
  | .headFault _ _ bs => decide (bs.length ≤ 252)
  | .messageResend _ => true
  | .trainTmo _ => true
  | .autoRetry _ => true
  | .exitFail _ => true
  | .los _ _ => true
  | .ulTimeout _ => true
  | .idle _ _ _ => true
  | .wake _ _ _ => true
  | .injCrc _ _ _ => true
  | .injBit _ _ _ => true
  | .eyeScanStart _ _ _ => true
  | .eyeScanDone _ _ => true
  | .axEnable _ _ => true
  | .axDisable _ _ => true
  | .axStop _ _ => true
  | .quickStop _ _ => true
  | .axHome _ _ => true
  | .clrFault _ _ => true
  | .setPos _ _ => true
  | .acceptPos _ _ => true
  | .windingMeasurement _ _ => true
  | .rampComplete _ => true
  | .still _ => true
  | .axPush _ _ => true
  | .limit _ => true
  | .homeLatch _ => true
  | .debounceEnd _ => true
  | .homeRangeExceeded _ => true
  | .overcurrent _ => true
  | .vbusUv v => decide (v < 2 ^ 16)
  | .islandPowered v => decide (v < 2 ^ 16)
  | .vbusOv v => decide (v < 2 ^ 16)
  | .movedUnpowered _ => true
  | .tabData _ _ => true
  | .efpEnable _ _ _ => true
  | .efpDisable _ _ _ => true
  | .diag _ _ _ => true
  | .diagComplete _ _ _ _ => true
  | .rearm _ _ _ => true
  | .governorTrip _ ua mv => ua.length == mv.length
  | .conversion _ _ _ _ => true
  | .dryTransition _ _ _ => true
  | .patrolScrub errs => errsOk errs
  | .refresh _ _ => true
  | .dqsCheck _ _ => true
  | .fullRetraining => true
  | .rhThrottle _ _ _ => true
  | .crucibleScrub _ => true
  | .ringEnable _ _ => true
  | .ringDisable _ _ => true
  | .sqTail _ _ _ => true
  | .cqHead _ _ _ => true
  | .recCons _ _ _ => true
  | .descriptorFetch _ errs => errsOk errs
  | .writeBack _ => true
  | .msixMessage _ => true
  | .hostTmo _ => true
  | .hostReadCompletion _ _ errs => errsOk errs
  | .regWrite _ errs => errsOk errs
  | .assay _ ref errs => decide (ref < 2 ^ 32) && errsOk errs
  | .klpPass _ errs => errsOk errs
  | .noReply _ => true
  | .axMove _ => true
  | .axCmd _ => true
  | .frameBuf _ => true
  | .netTx _ errs => errsOk errs
  | .netRx _ => true
  | .functionLevelReset _ => true
  | .receiveFrame _ _ _ => true
  | .frameTransmitted _ _ => true
  | .linkLost _ => true
  | .txtsPop _ _ => true
  | .timeSet _ _ _ => true
  | .domStep _ _ _ => true
  | .domEnable _ _ _ => true
  | .domUpdate _ _ _ => true
  | .domLoss _ _ => true
  | .holdover _ => true
  | .domainLost _ => true
  | .domSel _ _ => true
  | .ppsOutPulse _ => true
  | .ppsIn _ => true
  | .powerOnReset _ _ => true
  | .pfail => true
  | .moduleReset _ _ => true
  | .svcModule _ => true
  | .blockReset _ _ => true
  | .dramTrained _ _ => true
  | .imageCheck _ errs => errsOk errs
  | .bootGo _ _ => true
  | .mailboxTimeout => true
  | .otpMinVer _ => true
  | .otpRevoke _ _ => true
  | .otpProgramKey _ _ => true
  | .otpCommandDone => true
  | .svcLock _ _ => true
  | .pairFault _ _ => true
  | .pairRun _ _ => true
  | .pairHalt _ _ => true
  | .h2fSend _ _ => true
  | .h2fAck _ _ => true
  | .f2hSend _ _ => true
  | .f2hAck _ _ => true
  | .norErase _ => true
  | .norProgram _ => true
  | .norOperationDone _ => true
  | .dspEnable _ _ _ => true
  | .sinkDetect _ res => res.all fun x => x.1.length == 16 && x.2.length % 128 == 0 && decide (x.2.length ≤ 512)
  | .hpdIrq _ _ => true
  | .unplug _ => true
  | .dspRetry _ _ _ => true
  | .trainingComplete _ _ => true
  | .dspCommit _ _ => true
  | .verticalBlanking _ errs => errsOk errs
  | .underrun _ x y => decide (x < 2 ^ 13) && decide (y < 2 ^ 13)
  | .coalWindowEnd _ => true
  | .intakeLost => true
  | .flush _ => true
  | .norPageProgrammed _ => true
  | .norSectorErased _ => true
  | .logUe _ => true
  | .norEn _ _ => true
  | .lgPop _ => true
  | .rdIdx _ _ => true
  | .rdLoaded => true
  | .clrRam _ _ => true
  | .clrNor _ _ => true
  | .snap _ _ => true
  | .freeze _ _ => true
  | .counterWrap _ _ => true
  | .assayPhaseDone _ => true
  | .assayAbort _ => true
  | .railSample _ mv => decide (mv < 2 ^ 16)
  | .railFault => true
  | .tempConversion vs => vs.length == 12
  | .thermalEvaluation => true
  | .ulCrc _ _ _ => true
  | .prbsLock _ _ => true
  | .prbsLockLoss _ _ => true
  | .linkUp _ _ => true
  | .outPeriodStart _ => true
  | .rhWindowEnd _ => true
  | .serviceClusterAccess _ x errs => accessOk x && errsOk errs
  | .fullRetrainingDone counts => counts.length == 10

end Sys2Proof
end

