-- ==== Sys2Proof/Safety.lean ====
section
/-! DEFINITION. The terms in which claims speak of runs: a state between commands, a register write that every check
lets pass, a command that answers a next state, and what may never be undone. -/

namespace Sys2Proof.Machine

/-- A state between commands in which no event waits in the intake: no store is under way and nothing is lost. -/
def State.settled (s : State) : Bool :=
  s.chip.outbox.isEmpty && s.chip.derr.isEmpty && s.chip.evr.intake.isEmpty && s.chip.evr.lostPend == 0

/-- A register write that every check of R12 lets pass, at an offset that a row of the register map hits. -/
def Chip.writable (c : Chip) (q : Requester) (a : Nat) (v : Word) : Bool :=
  match rowOf a with
  | some r => (c.seenBy q).writeReason q r a v == 0
  | none => false

/-- The state after a command whose effect leaves the module as `d`: its stores are in memory. -/
def State.after (s : State) (d : Chip) : State :=
  { s with mem := d.outbox.foldl MemWrite.apply s.mem, chip := { d with outbox := [], derr := [] } }

/-- A command answers the state in which the module is `d`, exactly: everything that `d` does not name is as before. -/
def Does (i : Instr) (s : State) (d : Chip) : Prop := exec i s = .next (s.after d)

/-! ### Commands that raise events -/

/-- The windows of EVR, HST and DRC, whose registers the delivery of a record may change. -/
def recorderReg (a : Nat) : Bool :=
  (0xC0000 ≤ a && a < 0xC8000) || (0xD0000 ≤ a && a < 0xE0000) || (0x130000 ≤ a && a < 0x140000)

/-- What the recorder leaves alone, beside the registers outside its windows. -/
def Chip.unrecorded (c : Chip) : Chip :=
  { c with regs := [], outbox := [], derr := [], pmcPend := [], evr := Evr.reset, hst := Hst.reset,
           svc := { c.svc with lines := Svc.reset.lines } }

/-- `d` differs from `c` at most where the recorder may change it. -/
structure Recorded (c d : Chip) : Prop where
  rest : d.unrecorded = c.unrecorded
  rd : ∀ a, recorderReg a = false → d.rd a = c.rd a

/-- A command answers a state in which the module is `d` but for what the recorder changes as it passes on the events
that the command raises; with no EVENT ring enabled, memory holds the command's own stores and nothing else. -/
def Logs (i : Instr) (s : State) (d : Chip) : Prop :=
  ∃ t, exec i s = .next t ∧ Recorded d t.chip ∧ t.pending = s.pending ∧ t.fuses = s.fuses ∧
    ((∀ r : Fin 256, d.isEventRing r = false) → t.mem = (s.after d).mem)

/-- A command answers a next state of which `p` holds. -/
def Runs (i : Instr) (s : State) (p : State → Prop) : Prop := ∃ t, exec i s = .next t ∧ p t

/-- Memory, the OTP and the queue are as before. -/
def State.sameMem (s t : State) : Prop := t.mem = s.mem ∧ t.fuses = s.fuses ∧ t.pending = s.pending

/-- The module `d` is `c` with one register holding `v`, and nothing else changed. -/
def Chip.SetsReg (c d : Chip) (a : Nat) (v : Word) : Prop :=
  { d with regs := c.regs } = c ∧ d.rd a = v ∧ ∀ b, b ≠ a → d.rd b = c.rd b

/-- A command that answers a state in which the module of `s`, as requester `q`'s access finds it, has one register
holding `v`; memory, OTP, queue and every other part of the module are as before. -/
def SetsOnly (i : Instr) (s : State) (q : Requester) (a : Nat) (v : Word) : Prop :=
  ∃ t, exec i s = .next t ∧ t = { s with chip := t.chip } ∧ (s.chip.seenBy q).SetsReg t.chip a v

/-- The blocks whose registers all act as plain storage when written: GLB, SCN, SLD, DRC, CRB and MON. -/
def plainBlock (a : Nat) : Bool := [0, 2, 3, 7, 8, 18].contains (blockOf a)

/-- An aligned offset of the register map that is no doorbell and no MSI-X table entry. -/
def plainReg (a : Nat) : Bool := a % 4 == 0 && (decide (a < 0xD6000) || (decide (0xD7008 ≤ a) && decide (a < 0x800000)))

/-- What a write leaves in a register whose bits the codes of R11 govern: RW bits as written, W1C bits cleared where
1 is written, every other bit as it was. -/
def RegRow.written (r : RegRow) (old v : Word) : Word :=
  ((old &&& ~~~(BitVec.ofNat 32 r.rw)) ||| (v &&& BitVec.ofNat 32 r.rw)) &&& ~~~(v &&& BitVec.ofNat 32 r.w1c)

/-! ### Descriptors and completions -/

/-- Ring `r` of host memory is enabled, runs no chain and has a free completion slot, no completion held back or waiting for
an earlier entry's; no EVENT ring is enabled. -/
def Chip.serves (c : Chip) (r : Fin 256) : Prop :=
  (c.ring r).state = .enabled ∧ (c.ring r).chain = none ∧ (c.ring r).held = [] ∧ (c.ring r).wait = [] ∧
    (c.ring r).cqUsed < c.ringSize r ∧ c.ringLoc r = false ∧ ∀ k : Fin 256, c.isEventRing k = false

/-- Descriptor `d` with opcode `op` stands alone in hand on ring `r`, whose turn it is (R332). -/
def Chip.holds (c : Chip) (r : Fin 256) (d : Desc) (op : Nat) : Prop :=
  c.serves r ∧ c.nextRing = some r ∧ (c.ring r).fetched = [d] ∧ (c.ring r).cur = none ∧ d.irq = false ∧ d.op = op

/-- Descriptor `d` is in progress on ring `r` and waits in `w`, with no entry behind it. -/
def Chip.works (c : Chip) (r : Fin 256) (d : Desc) (w : Work) : Prop :=
  c.serves r ∧ (c.ring r).fetched = [] ∧ (c.ring r).cur = some ⟨d, w⟩ ∧ d.irq = false

/-- From `s` to `t` the engine asks for one more host-memory read: it is outstanding under the next number or, while the
most are, waits (R333). -/
def Asks (s t : State) (x : HostRead) : Prop :=
  let h := s.chip.hst
  if h.reads.length < readLimit then
    t.chip.hst.reads = h.reads ++ [{ x with id := h.readId }] ∧ t.chip.hst.readWait = h.readWait
  else t.chip.hst.reads = h.reads ∧ t.chip.hst.readWait = h.readWait ++ [x]

/-- From `s` to `t` the read with a number is outstanding no longer, and the oldest that waited, if any, is issued in its
place (R333). -/
def Answers (s t : State) (id : Nat) : Prop :=
  let left := s.chip.hst.reads.filter (·.id != id)
  match s.chip.hst.readWait with
  | x :: xs =>
    if left.length < readLimit then
      t.chip.hst.reads = left ++ [{ x with id := s.chip.hst.readId }] ∧ t.chip.hst.readWait = xs
    else t.chip.hst.reads = left ∧ t.chip.hst.readWait = x :: xs
  | [] => t.chip.hst.reads = left ∧ t.chip.hst.readWait = []

/-- The slot of the next completion of ring `r`. -/
def Chip.nextSlot (c : Chip) (r : Fin 256) : Nat := c.ringCq r + 16 * ((c.ring r).cqTail.toNat % c.ringSize r)

/-- From `s` to `t` ring `r` posts one completion, the last for its index, over host memory `m`, and nothing is in
progress on it; an INFO field that is `none` may hold anything. -/
def Posts (s t : State) (r : Fin 256) (idx status : Nat) (info0 info1 : Option Nat) (m : Memory := s.mem.host) : Prop :=
  t.chip.ring r = { s.chip.ring r with fetched := [], cur := none, cqTail := (s.chip.ring r).cqTail + 1, wbPend := true } ∧
  ∃ i0 i1, (∀ x, info0 = some x → i0 = x) ∧ (∀ x, info1 = some x → i1 = x) ∧
    t.mem.host = Memory.writes dramDefault m (s.chip.nextSlot r)
      (complBytes ⟨idx, status, false, true, info0, info1⟩ (phaseOf (s.chip.ring r).cqTail.toNat (s.chip.ringLog2 r)) i0 i1)

/-- The descriptor in hand stays in progress in `w`. -/
def Begins (s t : State) (r : Fin 256) (d : Desc) (w : Work) : Prop :=
  t.chip.ring r = { s.chip.ring r with fetched := [], cur := some ⟨d, w⟩ }

/-! ### Parts of the state -/

/-- What a command's effect reads beside the module. -/
def State.env (s : State) : Env := ⟨s.mem, s.fuses⟩

/-- The OTP only ever gains (R376): a programmed key slot keeps its key, a revoked one stays revoked, and the
minimum version never falls. -/
def Fuses.grows (f g : Fuses) : Prop :=
  (∀ k : Fin 4, ∀ x, f.keys[k] = some x → g.keys[k] = some x) ∧
  (∀ k : Fin 4, f.revoked.getLsbD k = true → g.revoked.getLsbD k = true) ∧ f.minVer ≤ g.minVer

end Sys2Proof.Machine
end

