-- ==== Sys2Proof/Certificates/Slice0/Obligations.lean ====
section
/-! DEFINITION. The statements for the provers. In them `Does` says exactly which state a command answers, `Logs` says
it up to what the event recorder changes as it passes on the events raised, and `SetsOnly` and `Runs` say it by what
the next state holds. `settled` states are those between commands with no event waiting; `writable` says that every
check of R12 lets a register write pass. -/

section

open Sys2Proof Sys2Proof.Machine

/-! ### The machine as a whole -/

/-- A step takes the command at the front of the queue and runs it with the queue's rest; on an empty queue at most one edge
of the reference clock passes, and the clocks advance by it, which is the model's choice (log entry 1). -/
def Obligations.StepRunsFrontCommand : Prop :=
  (∀ (i : Instr) (rest : List Instr) (s : State), step { s with pending := i :: rest } = exec i { s with pending := rest }) ∧
  ∀ s : State, s.pending = [] → ∃ k, k ≤ 1 ∧ step s = .next { s with chip := s.chip.advance k } ∧
    (s.chip.ttu.inTick = false → k = 1)

/-- Every command completes: whatever the command and the state, TICK_BOUNDARY, LAYER_START and every other row alike, it
answers a next state; its effect leaves the queue alone, reaches memory by stores alone, and changes the OTP only where an
OTP command ends. So the queue is first in, first out: a step removes its front and leaves the rest in order. -/
def Obligations.StepKeepsQueueOrder : Prop :=
  (∀ (i : Instr) (s : State), ∃ t, exec i s = .next t ∧ t.pending = s.pending ∧
    (∃ ws : List MemWrite, t.mem = ws.foldl MemWrite.apply s.mem) ∧ (i ≠ .otpCommandDone → t.fuses = s.fuses) ∧
    (s.chip.outbox = [] → t.chip.outbox = []) ∧ (s.chip.derr = [] → t.chip.derr = [])) ∧
  ∀ s : State, ∃ t, step s = .next t ∧ t.pending = s.pending.tail

/-- Reset leaves memory in canonical form with nothing listed, no command waiting, no event waiting and no release. -/
def Obligations.ResetIsClean : Prop :=
  State.reset.mem.wf = true ∧ State.reset.pending = [] ∧ State.reset.settled = true ∧
  State.reset.chip.mpc.emrel = false ∧ State.reset.chip.svc.boot = .dramInit ∧ State.reset.chip.svc.locks = 0

/-- Every step keeps the canonical form of device DRAM, host memory, the NOR and the service scratchpad. -/
def Obligations.StepKeepsMemoryForm : Prop :=
  ∀ s t : State, s.mem.wf = true → step s = .next t → t.mem.wf = true

/-- The OTP only ever gains (R376), and it changes only where an OTP command finishes. -/
def Obligations.StepOnlyAddsToOtp : Prop :=
  ∀ s t : State, step s = .next t → s.fuses.grows t.fuses ∧
    (t.fuses ≠ s.fuses → ∃ rest, s.pending = .otpCommandDone :: rest)

/-! ### Registers (R12 to R17) -/

/-- An accepted write of a register that stands alone replaces its RW bits, clears its W1C bits where 1 is written
and changes nothing else (R11). -/
def Obligations.AcceptedWriteFollowsAccessCodes : Prop :=
  ∀ (s : State) (q : Requester) (off : Offset) (v : Word) (r : RegRow), s.settled = true → plainReg off.toNat = true →
    rowOf off.toNat = some r → memberOf r.name = .single → plainBlock off.toNat = true →
    s.chip.writable q off.toNat v = true →
    SetsOnly (.registerWrite q off 15 v) s q off.toNat (r.written (s.chip.rd off.toNat) v)

/-- A misaligned or partial write, a misaligned or partial read and a write of an offset that names no register change
nothing but the record of them and, for a write in SLD, CFG_REJ (R173); the read answers 0. With no event in hand and coalescing on, the record that opens is
REG_DISCARD with the offset, the requester and the reason (R12, R403). -/
def Obligations.RefusedAccessIsReportedOnly : Prop :=
  ∀ (s : State) (q : Requester) (off : Offset) (be : BitVec 4) (v : Word), s.settled = true →
    let c := s.chip.seenBy q
    let w := if ownerOf off.toNat = blkSLD then c.sticky Reg.SLD_FLAGS 0x40 else c
    let note (k : Nat) (w : Word) (t : State) : Prop :=
      s.chip.evr.opens = [] → s.chip.evr.ramFailed = false → 0 < s.chip.fld Reg.EVR_COAL_CFG 15 0 →
        t.chip.evr.opens = [⟨⟨ownerOf off.toNat, 0x001, 0, false, sevWARN, s.chip.now, BitVec.ofNat 32 off.toNat,
          BitVec.ofNat 32 (reqCode q + 256 * k), BitVec.ofNat 32 w.toNat⟩, 1,
          s.chip.now + s.chip.fld Reg.EVR_COAL_CFG 15 0 * 1000⟩]
    (off.toNat % 4 ≠ 0 ∨ be ≠ 15 →
      Logs (.registerWrite q off be v) s w ∧ Logs (.refusedRead q off be) s { c with rdata := 0 } ∧
      Runs (.registerWrite q off be v) s (note 5 v) ∧ Runs (.refusedRead q off be) s (note 5 0)) ∧
    (plainReg off.toNat = true → ¬ (0xD7000 ≤ off.toNat ∧ off.toNat < 0xD7008) → rowOf off.toNat = none →
      Logs (.registerWrite q off 15 v) s w ∧ Runs (.registerWrite q off 15 v) s (note 1 v))

/-- A read of an RC register answers its value and clears its RC bits, and nothing else changes (R14). -/
def Obligations.RcReadAnswersAndClears : Prop :=
  ∀ (s : State) (q : Requester) (off : Offset) (r : RegRow), s.settled = true → plainReg off.toNat = true →
    rowOf off.toNat = some r → r.rc ≠ 0 → (s.chip.seenBy q).absent r off.toNat = false → s.chip.jtagLocked q = false →
    Runs (.rcRead q off) s fun t =>
      t = { s with chip := t.chip } ∧ t.chip.rdata = (s.chip.seenBy q).live s.env r off.toNat ∧
      t.chip.rd off.toNat = s.chip.rd off.toNat &&& ~~~(BitVec.ofNat 32 r.rc) ∧
      (∀ b, b ≠ off.toNat → t.chip.rd b = s.chip.rd b) ∧
      { t.chip with regs := s.chip.regs, rdata := s.chip.rdata } = s.chip.seenBy q

/-- The _LO and _HI members of a pair (R17). A read of _LO answers it and latches _HI for the requester; a read of _HI
answers the latched value once, and the current one while no view is open. A write of _LO is staged for the requester
and changes no register; a write of _HI applies both halves, with the half staged or else the one in force. -/
def Obligations.PairsLatchAndStage : Prop :=
  ∀ (s : State) (q : Requester) (lo : Offset) (rl rh : RegRow) (v : Word), s.settled = true → plainReg lo.toNat = true →
    plainReg (lo.toNat + 4) = true → lo.toNat + 4 < 2 ^ 24 →
    rowOf lo.toNat = some rl → rowOf (lo.toNat + 4) = some rh → memberOf rl.name = .first 2 → memberOf rh.name = .rest 1 →
    let a := lo.toNat
    let hi : Offset := lo + 4
    let c := s.chip.seenBy q
    (c.absent rl a = false → s.chip.jtagLocked q = false →
      Runs (.pairLoRead q lo) s fun t => t.chip.rdata = c.live s.env rl a ∧
        t.chip.servedBy q a (a + 4) = some (c.live s.env rh (a + 4)) ∧ t.chip.regs = s.chip.regs ∧ s.sameMem t) ∧
    (c.absent rh (a + 4) = false → s.chip.jtagLocked q = false →
      Runs (.pairHiRead q hi) s fun t => t.chip.rdata = (s.chip.servedBy q a (a + 4)).getD (c.live s.env rh (a + 4)) ∧
        t.chip.regs = s.chip.regs ∧ s.sameMem t) ∧
    (isStaged rl.name = true → s.chip.writable q a v = true →
      Runs (.pairLoWrite q lo v) s fun t => t.chip.stagedAt q a = some v ∧ t.chip.servedBy q a (a + 4) = none ∧
        t.chip.regs = s.chip.regs ∧ s.sameMem t) ∧
    (pairHiNames.contains rh.name = true → s.chip.writable q (a + 4) v = true →
      Runs (.pairHiWrite q hi v) s fun t => t.chip.rd (a + 4) = rh.written (s.chip.rd (a + 4)) v ∧
        t.chip.rd a = (match s.chip.stagedAt q a with
          | some x => rl.written (s.chip.rd a) x
          | none => s.chip.rd a) ∧
        t.chip.stagedAt q a = none ∧ (∀ b, b ≠ a → b ≠ a + 4 → t.chip.rd b = s.chip.rd b) ∧ s.sameMem t)


/-! ### Ticks, commits and clocks (R39 to R62, R350 to R363) -/

/-- COMMIT_REQ sets the pending bits written and keeps those already pending (R54); REGRID captures the shadow period
and epoch while none is pending and R44 lets it, and is merged while one is (R44). -/
def Obligations.CommitAndRegridRequests : Prop :=
  (∀ (s : State) (q : Requester) (v : Word), s.settled = true → s.chip.writable q Reg.TTU_COMMIT_REQ v = true →
    SetsOnly (.commitReq q v) s q Reg.TTU_COMMIT_REQ (s.chip.rd Reg.TTU_COMMIT_REQ ||| (v &&& 0xF))) ∧
  ∀ (s : State) (q : Requester), s.settled = true → s.chip.writable q Reg.TTU_TICK_CTRL 1 = true →
    (s.chip.ttu.regrid.isSome = true → Does (.regrid q) s (s.chip.seenBy q)) ∧
    (s.chip.ttu.regrid = none → (s.chip.hst.leases.toList.all fun l => decide (l.state = .free)) = true →
      (∀ a : Fin 8, s.chip.axis[a].busy = false) →
      (s.chip.rdn Reg.TTU_EPOCH_SEC_LO + 2 ^ 32 * s.chip.fld Reg.TTU_EPOCH_SEC_HI 15 0) * 1000000000 +
        s.chip.fld Reg.TTU_EPOCH_NS 29 0 ≤ s.chip.now →
      Runs (.regrid q) s fun t => t.chip.ttu.regrid = some ⟨s.chip.fld Reg.TTU_TICK_PERIOD 13 0,
          s.chip.rdn Reg.TTU_EPOCH_SEC_LO + 2 ^ 32 * s.chip.fld Reg.TTU_EPOCH_SEC_HI 15 0, s.chip.fld Reg.TTU_EPOCH_NS 29 0⟩ ∧
        t.chip.rd Reg.TTU_TICK_PERIOD_ACT = s.chip.rd Reg.TTU_TICK_PERIOD_ACT ∧ t.chip.ttu.index = s.chip.ttu.index)

/-- TICK_BOUNDARY completes in every state. In a tick, or before the first one, it starts the tick with the next index, 0 being
the first, while no regrid is pending, with no miss yet; the edges of the tick that had not passed have then passed, N of them
before the first regrid (R37); with a regrid pending the gap begins, with the captured period and epoch in force; in the gap it
does nothing. REGRID_GAP_END completes too: the end of the gap starts the first tick of the new grid, whose boundary is the first
at or after 40 µs, and with no gap it does nothing (R39, R45).
Which boundary starts tick 0 (log entry 31), that a regrid boundary starts no tick (log entry 32) and what the two commands do
out of place (log entry 1) are the model's reading. -/
def Obligations.BoundariesNumberTicks : Prop :=
  ∀ (s : State) (i : TickIn),
    (∃ t, exec (.tickBoundary i) s = .next t ∧
      (s.chip.ttu.gap = false → s.chip.ttu.regrid = none →
        t.chip.ttu.index = (if s.chip.ttu.inTick then s.chip.ttu.index + 1 else 0) ∧ t.chip.ttu.inTick = true ∧
        t.chip.ttu.gap = false ∧ t.chip.ttu.regrid = none ∧ t.chip.ttu.miss = ⟨0, none, 0, 0, 0⟩ ∧
        (s.chip.ttu.inTick = true → t.chip.ttu.since = 0) ∧
        (s.chip.ttu.inTick = true → s.chip.ttu.anchored = false → s.chip.ttu.frac = 0 → s.chip.ttu.since ≤ s.chip.N →
          t.chip.ttu.up = s.chip.ttu.up + (s.chip.N - s.chip.ttu.since) ∧
          t.chip.ttu.lcl = s.chip.ttu.lcl + (s.chip.N - s.chip.ttu.since) * s.chip.inc)) ∧
      (∀ r, s.chip.ttu.gap = false → s.chip.ttu.regrid = some r →
        t.chip.ttu.gap = true ∧ t.chip.ttu.inTick = false ∧ t.chip.ttu.regrid = some r ∧
        t.chip.rd Reg.TTU_TICK_PERIOD_ACT = BitVec.ofNat 32 r.n ∧ t.chip.rd Reg.TTU_EPOCH_NS_ACT = BitVec.ofNat 32 r.ns) ∧
      (s.settled = true → s.chip.ttu.gap = true → t = s)) ∧
    ∃ t, exec (.regridGapEnd i) s = .next t ∧
      (s.chip.ttu.gap = true → t.chip.ttu.gap = false ∧ t.chip.ttu.inTick = true ∧ t.chip.ttu.regrid = none ∧
        t.chip.ttu.anchored = true ∧ t.chip.ttu.index = s.chip.firstOfGrid) ∧
      (s.settled = true → s.chip.ttu.gap = false → t = s)

/-- A deadline miss joins the misses of the tick and sets their stages in TTU_MISS_STATUS, which keeps those it holds
(R48); heads that the variant lacks miss nothing. -/
def Obligations.DeadlineMissesAreKept : Prop :=
  ∀ (s : State) (m : MissSet), s.settled = true → s.chip.ttu.inTick = true →
    Runs (.deadlineMiss m) s fun t =>
      let on := BitVec.ofNat 64 (2 ^ s.chip.heads - 1)
      t.chip.ttu.miss = ⟨s.chip.ttu.miss.prop ||| (m.prop &&& on), s.chip.ttu.miss.arb.orElse fun _ => m.arb,
        s.chip.ttu.miss.fin ||| (m.fin &&& on), s.chip.ttu.miss.pwr ||| (m.pwr &&& on), s.chip.ttu.miss.axl ||| m.axl⟩ ∧
      t.chip.rd Reg.TTU_MISS_STATUS = s.chip.rd Reg.TTU_MISS_STATUS ||| BitVec.ofNat 32 t.chip.ttu.miss.stages ∧
      { t.chip.ttu with miss := s.chip.ttu.miss } = s.chip.ttu ∧ t.chip.hd = s.chip.hd ∧ t.chip.scn = s.chip.scn

/-- A domain follows the table of R355: ENABLE starts it in ACQUIRE and its clearing turns it OFF; a good update counts
and locks at LOCK_CNT; an update beyond UNLOCK_NS unlocks; LOSS and the lapse of UPD_MS bring HOLDOVER, and HOLD_S in
it bring LOST. TTU_DOM_ERR reports the last update. The other domain stays as it is. -/
def Obligations.DomainsFollowTheTable : Prop :=
  ∀ (s : State) (d : Fin 2) (q : Requester) (v : Word), s.settled = true →
    let st := s.chip.ttu.domState[d]
    let g := s.chip.ttu.good[d]
    let err := v.toInt
    let good := decide (err.natAbs ≤ s.chip.fld (Reg.TTU_DOM_LIM d) 15 0)
    let judged (n : Nat) : DomState × Nat :=
      if good then (if s.chip.fld (Reg.TTU_DOM_TIME d) 31 24 ≤ min (n + 1) 255 then .locked else .acquire, min (n + 1) 255)
      else (.acquire, 0)
    let goes (i : Instr) (x : DomState × Nat) (bits : Nat) : Prop := Runs i s fun t =>
      t.chip.ttu.domState[d] = x.1 ∧ t.chip.ttu.good[d] = x.2 ∧
      t.chip.rd (Reg.TTU_DOM_STATUS d) = s.chip.rd (Reg.TTU_DOM_STATUS d) ||| BitVec.ofNat 32 bits ∧
      (∀ k, k ≠ d → t.chip.ttu.domState[k] = s.chip.ttu.domState[k] ∧ t.chip.ttu.good[k] = s.chip.ttu.good[k]) ∧
      t.chip.ttu.dom = s.chip.ttu.dom ∧ t.chip.ttu.lcl = s.chip.ttu.lcl ∧ s.sameMem t
    (s.chip.writable q (Reg.TTU_DOM_CTRL d) v = true →
      (v.getLsbD 0 = false → goes (.domEnable q d v) (.off, g) 0) ∧
      (v.getLsbD 0 = true → v.getLsbD 1 = false → goes (.domEnable q d v) (if st = .off then (.acquire, 0) else (st, g)) 0)) ∧
    (s.chip.writable q (Reg.TTU_DOM_CTRL d) 3 = true → st ≠ .off →
      goes (.domLoss q d) (if st = .locked then .holdover else st, g) (if st = .locked then 0x20000 else 0)) ∧
    (s.chip.writable q (Reg.TTU_DOM_UPDATE d) v = true →
      goes (.domUpdate q d v)
        (match st with
          | .off => (.off, g)
          | .acquire => judged g
          | .locked => if err.natAbs ≤ s.chip.fld (Reg.TTU_DOM_LIM d) 31 16 then (.locked, g) else (.acquire, 0)
          | .holdover => judged 0
          | .lost => judged 0)
        (if st = .locked ∧ s.chip.fld (Reg.TTU_DOM_LIM d) 31 16 < err.natAbs then 0x10000 else 0) ∧
      Runs (.domUpdate q d v) s fun t => t.chip.rd (Reg.TTU_DOM_ERR d) = v) ∧
    goes (.holdover d) (if st = .locked then .holdover else st, g) (if st = .locked then 0x20000 else 0) ∧
    goes (.domainLost d) (if st = .holdover then .lost else st, g) (if st = .holdover then 0x40000 else 0)

/-- DOM_STEP adds its signed nanoseconds to the domain's clock; a write of a seconds _HI register sets its triple at one
edge, with the values staged or else the current ones, and clears the fraction; both set STEP_ACTIVE on the active domain.
DOM_SEL asks for a domain and sets automatic switching. No other clock moves (R353, R354, R356). -/
def Obligations.ClocksAreSetAndStepped : Prop :=
  ∀ (s : State) (q : Requester) (d : Fin 2) (v : Word), s.settled = true →
    let lead (cur : Nat) (lo ns : Nat) : Nat :=
      ((((s.chip.stagedAt q lo).map (·.toNat)).getD (secOf cur % 2 ^ 32) + 2 ^ 32 * (v.toNat % 2 ^ 16)) * 1000000000 +
        ((s.chip.stagedAt q ns).map fun x => x.toNat % 2 ^ 30).getD (cur % 1000000000)) * 2 ^ 32
    let stepped (t : State) : Prop := s.chip.ttu.act = d →
      t.chip.rd Reg.TTU_TIME_STATUS = s.chip.rd Reg.TTU_TIME_STATUS ||| 0x400
    (s.chip.writable q (Reg.TTU_DOM_STEP d) v = true → Runs (.domStep q d v) s fun t =>
      t.chip.ttu.dom[d] = clockMod ((s.chip.ttu.dom[d] : Int) + v.toInt * 2 ^ 32) ∧
      (∀ k, k ≠ d → t.chip.ttu.dom[k] = s.chip.ttu.dom[k]) ∧ t.chip.ttu.lcl = s.chip.ttu.lcl ∧ stepped t ∧ s.sameMem t) ∧
    (s.chip.writable q (Reg.TTU_DOM_SEC_HI d) v = true → Runs (.timeSet q (some d) v) s fun t =>
      t.chip.ttu.dom[d] = lead (clockNs s.chip.ttu.dom[d]) (Reg.TTU_DOM_SEC_LO d) (Reg.TTU_DOM_NS d) ∧
      (∀ k, k ≠ d → t.chip.ttu.dom[k] = s.chip.ttu.dom[k]) ∧ t.chip.ttu.lcl = s.chip.ttu.lcl ∧ stepped t ∧ s.sameMem t) ∧
    (s.chip.writable q Reg.TTU_LCL_SEC_HI v = true → Runs (.timeSet q none v) s fun t =>
      t.chip.ttu.lcl = lead (clockNs s.chip.ttu.lcl) Reg.TTU_LCL_SEC_LO Reg.TTU_LCL_NS ∧
      t.chip.ttu.dom = s.chip.ttu.dom ∧ s.sameMem t) ∧
    (s.chip.writable q Reg.TTU_DOM_SEL v = true → Runs (.domSel q v) s fun t =>
      t.chip.rd Reg.TTU_DOM_SEL = v &&& 3 ∧ t.chip.ttu.act = s.chip.ttu.act ∧
      t.chip.ttu.selPend = (let k : Fin 2 := if v.getLsbD 0 then 1 else 0
        if k = s.chip.ttu.act then none else some k) ∧ t.chip.ttu.dom = s.chip.ttu.dom ∧ s.sameMem t)

/-- TICK_OUT rises for the next boundary where a pulse belongs to it (R62); PPS_OUT rises for a whole second that the
selected time, less ADVANCE, has reached (R361); a PPS_IN edge is stamped with the local clock and counted modulo 2^16
while the input is enabled, and says so where the last stamp was not read (R362). -/
def Obligations.PulsesFollowTheClocks : Prop :=
  ∀ (s : State) (edges : Nat), s.settled = true →
    (∀ n, s.chip.nextTick = some n → s.chip.pulseDue n = true → Does .tickOutPulse s
      (s.chip.onTtu fun x => { x with tickOut := some ⟨n, bitsOf s.chip.ttu.outDiv.toNat 23 16,
        pulseWidth s.chip.N (bitsOf s.chip.ttu.outCfg.toNat 21 8)⟩ })) ∧
    (let c := s.chip.wait edges
     c.ppsTime.isSome = true → s.chip.ttu.ppsSec < c.ppsReached → s.chip.ttu.ppsTill ≤ c.ttu.up →
      Does (.ppsOutPulse edges) s (c.onTtu fun x => { x with
        ppsSec := c.ppsReached
        ppsTill := c.ttu.up + s.chip.fld Reg.TTU_PPSOUT_CFG 17 8 * 800000 })) ∧
    (s.chip.bit Reg.TTU_PPSIN_CFG 0 = true → Runs (.ppsIn edges) s fun t =>
      let x := clockNs (s.chip.wait edges).ttu.lcl
      t.chip.rdPair Reg.TTU_PPSIN_SEC_LO = secOf x ∧ t.chip.rd Reg.TTU_PPSIN_NS = BitVec.ofNat 32 (x % 1000000000) ∧
      t.chip.fld Reg.TTU_PPSIN_STATUS 15 0 = (s.chip.fld Reg.TTU_PPSIN_STATUS 15 0 + 1) % 2 ^ 16 ∧
      t.chip.bit Reg.TTU_PPSIN_STATUS 16 = (s.chip.bit Reg.TTU_PPSIN_STATUS 16 || s.chip.ttu.ppsInUnread) ∧
      t.chip.ttu.ppsInUnread = true ∧ t.chip.ttu.lcl = (s.chip.wait edges).ttu.lcl ∧
      t.chip.ttu.dom = (s.chip.wait edges).ttu.dom ∧ s.sameMem t)

/-! ### Event log, performance counters, Assay and monitors (R401 to R444) -/

/-- LG_POP removes the oldest last-gasp entry (R415). RD_IDX asks for a record, and VALID falls; RD_LOADED shows the
record of that number from the RAM ring, or the NOR slot, or STALE with zeros where the ring does not hold it (R419). -/
def Obligations.LogIsReadByIndex : Prop :=
  ∀ (s : State) (q : Requester) (v : Word), s.settled = true →
    (s.chip.writable q Reg.EVR_LG_POP 1 = true →
      Does (.lgPop q) s ((s.chip.seenBy q).onEvr fun x => { x with lg := x.lg.tail })) ∧
    (s.chip.writable q Reg.EVR_RD_IDX v = true →
      Does (.rdIdx q v) s (((s.chip.seenBy q).wr Reg.EVR_RD_IDX v).onEvr fun x => { x with
        rdPend := true, rdNor := s.chip.bit Reg.EVR_RD_CTRL 0, rdValid := false })) ∧
    (s.chip.evr.rdPend = true → Runs .rdLoaded s fun t =>
      t = { s with chip := { s.chip with evr := t.chip.evr } } ∧ t.chip.evr.rdPend = false ∧ t.chip.evr.rdValid = true ∧
      (s.chip.evr.rdNor = false → ∀ x, (s.chip.evr.ram.find? fun r => r.num % 2 ^ 32 == s.chip.rdn Reg.EVR_RD_IDX) = some x →
        t.chip.evr.rdRec = recordBytes x ∧ t.chip.evr.rdStale = false) ∧
      (s.chip.evr.rdNor = false → (∀ r ∈ s.chip.evr.ram, r.num % 2 ^ 32 ≠ s.chip.rdn Reg.EVR_RD_IDX) →
        t.chip.evr.rdRec = List.replicate 32 0 ∧ t.chip.evr.rdStale = true) ∧
      (s.chip.evr.rdNor = true → t.chip.evr.rdStale = false ∧ ∀ k, k < 32 → t.chip.evr.rdRec[k]? =
        some (Memory.read norDefault s.mem.nor (logBase + 32 * (s.chip.rdn Reg.EVR_RD_IDX % 262144) + k))))

/-- An ended coalescing window commits its record to the RAM ring with the next absolute number (R407, R408). An event
that finds the intake full is counted and flagged, and an INTAKE_LOST record opens (R406). A word of the RAM ring
with one bit in error is corrected; one with more loses its record and writes LOG_UE to the last-gasp file (R28, R416). -/
def Obligations.RecordsReachTheRings : Prop :=
  ∀ (s : State), s.settled = true → s.chip.evr.ramFailed = false → (∀ r, s.chip.isEventRing r = false) →
    (∀ (edges : Nat) (o : OpenRec), s.chip.evr.opens = [o] → o.till ≤ (s.chip.wait edges).now →
      s.chip.norEn = false → s.chip.evr.clrRam = false → s.chip.evr.ram.length < 4096 →
      Runs (.coalWindowEnd edges) s fun t => t.chip.evr.opens = [] ∧
        t.chip.evr.ram = s.chip.evr.ram ++ [⟨o.ev, o.rep, s.chip.evr.next, false⟩] ∧
        t.chip.evr.next = s.chip.evr.next + 1 ∧ s.sameMem t) ∧
    (s.chip.evr.opens = [] → 0 < s.chip.fld Reg.EVR_COAL_CFG 15 0 → Runs .intakeLost s fun t =>
      t.chip.rdn Reg.EVR_LOST_CNT = min (s.chip.rdn Reg.EVR_LOST_CNT + 1) (2 ^ 32 - 1) ∧
      t.chip.bit Reg.EVR_STATUS 10 = true ∧ t.chip.evr.lostPend = 0 ∧
      t.chip.evr.opens = [⟨⟨blkEVR, 0x012, 0, false, sevERROR, s.chip.now, 0, 1, 0⟩, 1,
        s.chip.now + s.chip.fld Reg.EVR_COAL_CFG 15 0 * 1000⟩] ∧ s.sameMem t) ∧
    (∀ num bits : Nat, bits < 2 → Does (.logUe ⟨num, bits⟩) s s.chip) ∧
    (∀ num bits, 2 ≤ bits → (s.chip.evr.ram.any fun r => r.num == num) = true → s.chip.evr.norFailed = false → s.chip.evr.lg.length < 16 →
      s.chip.norEn = false → s.chip.evr.clrRam = false →
      Runs (.logUe ⟨num, bits⟩) s fun t => t.chip.evr.ram = s.chip.evr.ram.filter (fun r => r.num != num) ∧
        t.chip.bit Reg.EVR_STATUS 8 = true ∧
        t.chip.evr.lg = s.chip.evr.lg ++ [⟨⟨blkEVR, 0x010, 0, false, sevCRITICAL, s.chip.now,
          BitVec.ofNat 32 (num % 4096), BitVec.ofNat 32 num, 0⟩, 1, s.chip.evr.next, true⟩] ∧ s.sameMem t)

/-- A flush, by a write with NOR_EN set or because of age, begins the program of the next page (R411); a programmed page
stands in NOR from the write position, which moves past it (R410, R412); an erased sector reads as ones (R410). Writing
NOR_EN after a failure erases the next sector (R417); CLR_RAM with nothing left to write empties the RAM ring, and
CLR_NOR starts again from sector 0 (R420). -/
def Obligations.NorLogIsWrittenAndCleared : Prop :=
  ∀ (s : State) (q : Requester) (v : Word), s.settled = true → s.chip.evr.ramFailed = false →
    (∀ r : Fin 256, s.chip.isEventRing r = false) →
    (s.chip.evr.opens = [] → s.chip.evr.pfFlush = false → s.chip.evr.norFailed = false → s.chip.evr.clrNor = false → s.chip.evr.flushing = false →
      s.chip.evr.prog = none → s.chip.evr.recovering = false → s.chip.evr.nextPage ≠ [] → s.chip.evr.pending ≠ [] →
      (v.getLsbD 0 = true → v.getLsbD 1 = false → v.getLsbD 2 = false → v.getLsbD 3 = false →
        s.chip.writable q Reg.EVR_CTRL (v ||| 2) = true →
        Runs (.flush (some (q, v))) s fun t =>
          t.chip.evr.flushing = true ∧ t.chip.evr.prog = some s.chip.evr.nextPage ∧ s.sameMem t) ∧
      (s.chip.norEn = true → Runs (.flush none) s fun t =>
          t.chip.evr.flushing = true ∧ t.chip.evr.prog = some s.chip.evr.nextPage ∧ s.sameMem t)) ∧
    (∀ page, s.chip.evr.prog = some page → s.chip.evr.clrNor = false → Runs (.norPageProgrammed 0) s fun t =>
      t.chip.evr.pos = (s.chip.evr.pos + page.length) % 262144 ∧
      t.mem.dram = s.mem.dram ∧ t.mem.host = s.mem.host ∧ t.mem.nor =
        Memory.writes norDefault s.mem.nor (logBase + 32 * s.chip.evr.pos) (page.flatMap fun x => recordBytes x.1)) ∧
    (∀ k, s.chip.evr.erase = some (.ahead k) → k < 128 → s.chip.evr.clrNor = false →
      s.chip.evr.pfFlush = false → Runs (.norSectorErased true) s fun t =>
      t.chip.evr.isErased k = true ∧ t.mem = { s.mem with nor := Memory.clear s.mem.nor (logBase + 65536 * k) 65536 }) ∧
    (s.chip.evr.norFailed = true → s.chip.evr.recovering = false → s.chip.evr.flushing = false → v.getLsbD 1 = false → v.getLsbD 2 = false →
      v.getLsbD 3 = false → s.chip.writable q Reg.EVR_CTRL (v ||| 1) = true → Runs (.norEn q v) s fun t =>
        t.chip.evr.recovering = true ∧ t.chip.evr.erase = some (.recover ((s.chip.evr.pos / 2048 + 1) % 128)) ∧
        t.chip.norEn = true ∧ s.sameMem t) ∧
    (v.getLsbD 0 = true → v.getLsbD 1 = false → v.getLsbD 3 = false → s.chip.evr.norFailed = false →
      s.chip.evr.opens = [] → s.chip.evr.lg = [] → s.chip.evr.pending = [] → s.chip.evr.prog = none →
      s.chip.evr.pfFlush = false → s.chip.writable q Reg.EVR_CTRL (v ||| 4) = true → Runs (.clrRam q v) s fun t =>
        t.chip.evr.ram = [] ∧ t.chip.evr.oldest = s.chip.evr.next ∧ t.chip.evr.clrRam = false ∧ s.sameMem t) ∧
    (v.getLsbD 1 = false → v.getLsbD 2 = false → s.chip.evr.norFailed = false → s.chip.evr.erase = none →
      s.chip.evr.prog = none → s.chip.writable q Reg.EVR_CTRL (v ||| 8) = true → Runs (.clrNor q v) s fun t =>
        t.chip.evr.clrNor = true ∧ t.chip.evr.pos = 0 ∧ t.chip.evr.erased = 0 ∧ t.chip.evr.erase = some (.all 0) ∧
        s.sameMem t)

/-- An ASSAY descriptor whose parameter block passes R430, while no run is in progress, REFCAL_V is within 2 % and the
first channel may be measured, starts a run on that channel at its first phase; a phase that ends yields its mean code in
1/16 and goes on to the next, with new trims after the second (R432, R433); ABORT ends the run after the phase (R436). -/
def Obligations.AssayRunsInPhases : Prop :=
  ∀ (s : State), s.settled = true →
    (∀ (r : Fin 256) (ref : Nat) (d : Desc) (x : AsyRun) (ch : Nat) (rest : List Nat),
      (s.chip.ring r).hand = some d → s.chip.nextRing = some r → d.op = 0x23 → d.clean [(8, 15)] = true →
      leAt d.bytes 8 8 < 2 ^ 35 → firstRefused (mayRead reqHST) (leAt d.bytes 8 8) 64 = none →
      asyParams ((s.chip.dramRead s.env reqHST (leAt d.bytes 8 8) 64).2.bytes) = some x →
      firstRefused (mayWrite reqHST) x.addr (32 + 32 * (asyChans x.mask).length) = none →
      (∀ a, x.addr ≤ a → a < x.addr + (32 + 32 * (asyChans x.mask).length) → s.chip.guardOf a = none) →
      s.chip.asy = none → 100 * (max ref x.refUv - min ref x.refUv) ≤ 2 * x.refUv → x.left = ch :: rest →
      s.chip.asyReady ch = true →
      Runs (.assay r ref []) s fun t => ∃ y, t.chip.asy = some y ∧ y.mask = x.mask ∧ y.refUv = x.refUv ∧
        y.tick = s.chip.ttu.index ∧ y.chan = ch ∧ y.left = rest ∧ y.phase = 1 ∧ y.old = s.chip.rd (Reg.ASY_TRIM ch) ∧
        ((t.chip.ring r).cur.map (·.desc)) = some d) ∧
    (∀ (x : AsyRun) (sum : Int), s.chip.asy = some x → x.abort = false →
      let m := rndDiv (16 * sum) ((2 ^ x.avg : Nat) : Int)
      (x.phase = 1 → Does (.assayPhaseDone sum) s { s.chip with asy := some { x with m0 := m, phase := 2 } }) ∧
      (x.phase = 2 → x.trim = true → Runs (.assayPhaseDone sum) s fun t =>
        (∃ b, t.chip.asy = some { x with m1 := m, phase := 3, clamped := b }) ∧
        t.chip.rd (Reg.ASY_TRIM x.chan) = BitVec.ofNat 32 (trimWord
          (clampInt (-2048) 2047 (ofsTrim x.old.toNat - rndDiv x.m0 2))
          (clampInt (-2048) 2047 (gainTrim x.old.toNat -
            rndDiv ((m - x.m0 - asyExpected x.chan x.refUv) * 1000000) (asyExpected x.chan x.refUv))))) ∧
      (x.phase = 3 → Does (.assayPhaseDone sum) s { s.chip with asy := some { x with m0b := m, phase := 4 } })) ∧
    ∀ q, s.chip.writable q Reg.ASY_CTRL 1 = true →
      Does (.assayAbort q) s { s.chip.seenBy q with asy := s.chip.asy.map fun x => { x with abort := true } }

/-- SNAP is pending until the next boundary, and FREEZE is as written, to act there (R424). A counter that the
occurrences waiting make wrap holds their sum modulo 2^48 and sets its PMC_OVF bit (R421). A rail's sample is its reading,
and sets RAIL_LOW or RAIL_HIGH once for each excursion (R439); sites are converted to readings, valid from −40 °C to 150 °C
(R441); the thermal level is the one its table gives for TMAX (R442). -/
def Obligations.CountersAndMonitorsReport : Prop :=
  ∀ (s : State) (q : Requester) (v : Word), s.settled = true →
    (s.chip.writable q Reg.PMC_CTRL (v ||| 2) = true →
      SetsOnly (.snap q v) s q Reg.PMC_CTRL ((s.chip.rd Reg.PMC_CTRL &&& ~~~(1 : Word)) ||| ((v ||| 2) &&& 3))) ∧
    (s.chip.writable q Reg.PMC_CTRL v = true →
      SetsOnly (.freeze q v) s q Reg.PMC_CTRL ((s.chip.rd Reg.PMC_CTRL &&& ~~~(1 : Word)) ||| (v &&& 3))) ∧
    (∀ (b : Fin 19) (i : Fin 16) (k : Counter), s.chip.counters = [k] → k.blk = b.val → k.num = i.val → s.chip.frozen = false →
      s.chip.rdPair (Reg.PMC_CNT_LO b i) < 2 ^ 48 →
      2 ^ 48 ≤ s.chip.rdPair (Reg.PMC_CNT_LO b i) + s.chip.waitingFor k →
      Runs (.counterWrap b i) s fun t =>
        t.chip.rdPair (Reg.PMC_CNT_LO b i) = (s.chip.rdPair (Reg.PMC_CNT_LO b i) + s.chip.waitingFor k) % 2 ^ 48 ∧
        t.chip.bit (Reg.PMC_OVF b) i = true) ∧
    (∀ (r : Fin 8) (mv : Nat), s.chip.bit (Reg.MON_RAIL r) 16 = false → Runs (.railSample r mv) s fun t =>
      t.chip.fld (Reg.MON_RAIL r) 15 0 = min mv 0xFFFF ∧
      (min mv 0xFFFF < s.chip.fld (Reg.MON_RAIL_THR r) 15 0 → s.chip.mon.lowArmed.getLsbD r = true →
        t.chip.bit Reg.MON_FLAGS 0 = true) ∧
      (s.chip.fld (Reg.MON_RAIL_THR r) 31 16 < min mv 0xFFFF → s.chip.mon.highArmed.getLsbD r = true →
        t.chip.bit Reg.MON_FLAGS 1 = true) ∧
      (s.chip.fld (Reg.MON_RAIL_THR r) 15 0 ≤ min mv 0xFFFF → min mv 0xFFFF ≤ s.chip.fld (Reg.MON_RAIL_THR r) 31 16 →
        t.chip.rd Reg.MON_FLAGS = s.chip.rd Reg.MON_FLAGS)) ∧
    (∀ vs : List (Option Int), Runs (.tempConversion vs) s fun t => ∀ k : Fin 12, ∀ x : Int, vs[k.val]? = some (some x) →
      -640 ≤ x → x ≤ 2400 → t.chip.rd (Reg.MON_TEMP k) = BitVec.ofNat 32 (unsOf 16 x + 2 ^ 16)) ∧
    (Runs .thermalEvaluation s fun t =>
      t.chip.fld Reg.MON_STATUS 2 0 = s.chip.thermNext (signOf 16 (s.chip.fld Reg.MON_STATUS 31 16)) (s.chip.fld Reg.MON_STATUS 2 0))

/-- A rail outside its operating range sets RAIL_FAULT and does what PFAIL_N does, whatever the samples read and whether
an Assay runs (R440), while no power-fail sequence runs; during one it ends the sequence in its reset at once (R451). -/
def Obligations.RailFaultStartsPowerFail : Prop :=
  ∀ s : State, (s.chip.svc.pfail = true → exec .railFault s = exec (.moduleReset .powerFail 0) s) ∧
    (s.chip.svc.pfail = false → exec .railFault s = exec .pfail { s with chip := s.chip.sticky Reg.MON_FLAGS 0x4 }) ∧
    (s.chip.svc.pfail = false →
      Runs .railFault s fun t => t.chip.bit Reg.MON_FLAGS 2 = true ∧ t.chip.svc.pfail = true)

/-! ### Melt-pool control (R174 to R198) -/

/-- OPEN and CLOSE wait for the next boundary, and a CLOSE taken by an OPEN loop starts it from its held output with its
histories 0 (R183, R184). A coefficient of an OPEN loop is replaced; one of any other loop keeps its value, and
BUSY_CLOSED is set (R184). -/
def Obligations.LoopCommandsAndCoefficients : Prop :=
  ∀ (s : State) (q : Requester) (m : Fin 128) (v : Word), s.settled = true →
    let started (l : Loop) : Loop := { l with
      state := .closed, count := 0, good := 0, h1 := (0, 0, 0, 0), h2 := (0, 0, 0, 0), xprev := 0, uprev := l.out
      limHi := false, limLo := false, fresh := true }
    (s.chip.writable q (Reg.MPC_LOOP_CMD m) 2 = true →
      Does (.loopClose q m) s ((s.chip.seenBy q).onLoop m fun l => { l with cmd := 2 })) ∧
    (s.chip.writable q (Reg.MPC_LOOP_CMD m) 1 = true →
      Does (.loopOpen q m) s ((s.chip.seenBy q).onLoop m fun l => { l with cmd := 1 })) ∧
    (∀ l : Loop, (l.cmd = 2 → l.state = LoopState.open → l.take = (started { l with cmd := 0 }, false)) ∧
      (l.cmd = 2 → l.state = .gated → l.take = ({ l with cmd := 0 }, true)) ∧
      (l.cmd = 1 → l.take.1.state = LoopState.open ∧ l.take.2 = false)) ∧
    ∀ (off : Offset) (r : RegRow), plainReg off.toNat = true → rowOf off.toNat = some r → isCoefficient r.name = true →
      r.inst off.toNat = m →
      (s.chip.writable q off.toNat v = true →
        SetsOnly (.coefficientWrite q off v) s q off.toNat (r.written (s.chip.rd off.toNat) v)) ∧
      (s.chip.mpc.loops[m].state ≠ LoopState.open → (s.chip.seenBy q).writeReason q r off.toNat v = 3 →
        Logs (.coefficientWrite q off v) s ((s.chip.seenBy q).sticky (Reg.MPC_LOOP_FLAGS m) 0x10))

/-- The transitions that a count brings (R183, R185, R186). FB_RECOVER closes a loop in FB_HOLD or FB_OPEN after RECOVER
good ticks, whose run only a bad tick ends; FB_OPENLOOP takes one in FB_HOLD for HOLD_H to FB_OPEN with output 0; GATED takes a laser loop in FB_OPEN for
LOST_L to GATED, and its head's claims are offered again, the head excluded; FAIL_OUT writes a level 1 loop's FAIL_OUT
to its destination.
That level 1's RECOVER count opens at least one boundary is the model's choice (log
entry 13). -/
def Obligations.LoopCountsBringTransitions : Prop :=
  ∀ (s : State) (m : Fin 128), s.settled = true →
    let l := s.chip.mpc.loops[m]
    ((l.state = .fbHold ∨ l.state = .fbOpen) → s.chip.recover m ≤ l.good →
      Does (.fbRecover m) s (s.chip.onLoop m fun l => { l with
        state := .closed, count := 0, good := 0, h1 := (0, 0, 0, 0), h2 := (0, 0, 0, 0), xprev := 0, uprev := l.out
        limHi := false, limLo := false, fresh := true, period := s.chip.fld (Reg.MPC_L1_TRIG m) 31 8 })) ∧
    (l.state = .fbHold → l.good < s.chip.recover m → s.chip.holdH m ≤ l.count →
      Logs (.fbOpenloop m) s ((s.chip.onLoop m fun l => { l with
        state := .fbOpen, count := 0, out := 0, uprev := 0, failed := false }).sticky (Reg.MPC_LOOP_FLAGS m) 0x40)) ∧
    (∀ h : Fin 64, m = laserLoop h → l.state = .fbOpen → l.good < s.chip.recover m → s.chip.lostL m ≤ l.count →
      (s.chip.scn.layer = none →
        Logs (.gated h) s ((s.chip.onLoop m fun _ => { l with state := .gated, count := 0, good := 0 }).sticky
          (Reg.MPC_LOOP_FLAGS m) 0x80)) ∧
      Runs (.gated h) s fun t => t.chip.mpc.loops[m].state = .gated ∧
        t.chip.scn.layer = s.chip.scn.layer.map fun y => { y with shared := y.shared.map fun x =>
          if x.state = (ShState.claimed h.val) then
            { x with state := .offered 0, excluded := x.excluded ||| (1#64 <<< h.val), notBefore := s.chip.ttu.index + 1 }
          else x }) ∧
    (80 ≤ m.val → l.state = .fbOpen → l.failed = false → l.good < s.chip.recover m →
      let d := s.chip.onLoop m fun _ => { l with failed := true }
      (s.chip.fld (Reg.MPC_L1_DEST m) 3 0 = 0 → Does (.failOut m) s d) ∧
      (∀ h : Fin 64, s.chip.fld (Reg.MPC_L1_DEST m) 3 0 = 1 → s.chip.fld (Reg.MPC_L1_DEST m) 11 4 = h → s.chip.loopF32 m = false →
        Does (.failOut m) s (d.onHeadMpc h fun x => { x with trimNext := some (sat16 (s.chip.rdInt (Reg.MPC_L1_FAIL_OUT m))) })) ∧
      (∀ k, s.chip.fld (Reg.MPC_L1_DEST m) 3 0 = 3 → s.chip.fld (Reg.MPC_L1_DEST m) 11 4 = k → 80 ≤ k → k < 128 →
        Does (.failOut m) s (d.wr (Reg.MPC_L1_SETPOINT k) (s.chip.rd (Reg.MPC_L1_FAIL_OUT m)))))

/-- A trigger that waits runs one iteration of a CLOSED level 1 loop on its newest source value; its output is shown in
MPC_L1_OUT and the iteration counted (R188). A loop in another state only drops the trigger. -/
def Obligations.LevelOneLoopsIterate : Prop :=
  ∀ (s : State) (m : Fin 128) (k : Nat) (i : Instr), s.settled = true → 80 ≤ m.val →
    (i = .onInput m ∧ k = 1 ∨ i = .onPeriod m ∧ k = 2) → s.chip.mpc.loops[m].trig = k →
    let l := { s.chip.mpc.loops[m] with trig := 0 }
    (l.state ≠ .closed → Does i s (s.chip.onLoop m fun _ => l)) ∧
    (l.state = .closed → s.chip.fld (Reg.MPC_L1_DEST m) 3 0 = 0 → (∀ n : Fin 128, s.chip.feeds n 3 m = false) →
      let x := iterate (s.chip.loopSet m) l l.src (s.chip.rdInt (Reg.MPC_L1_SETPOINT m))
      Runs i s fun t => t.chip.mpc = (s.chip.onLoop m fun _ => x.1).mpc ∧
        t.chip.rd (Reg.MPC_L1_OUT m) = BitVec.ofInt 32 x.1.out ∧
        t.chip.rdn (Reg.MPC_L1_ITER m) = min (s.chip.rdn (Reg.MPC_L1_ITER m) + 1) (2 ^ 32 - 1) ∧
        t.chip.rd (Reg.MPC_LOOP_FLAGS m) = s.chip.rd (Reg.MPC_LOOP_FLAGS m) ||| BitVec.ofNat 32 x.2 ∧
        (∀ a, a ≠ Reg.MPC_L1_OUT m → a ≠ Reg.MPC_L1_ITER m → a ≠ Reg.MPC_LOOP_FLAGS m → t.chip.rd a = s.chip.rd a) ∧
        s.sameMem t)

/-- TMP_GRACE ticks after the end boundary learning is finalised, and its completion gives each cell its new code: the
old code scaled by GAIN times the mean error where the cell has MIN_CNT records, held within TMP_BOUNDS (R191). -/
def Obligations.TemperLearnsCodes : Prop :=
  ∀ (s : State), s.settled = true →
    let x := s.chip.mpc.temper
    (∀ u, x.phase = .grace → x.until_ = some u → u + s.chip.fld Reg.MPC_TMP_GRACE 15 0 ≤ s.chip.ttu.index →
      Does .temperFinalise s (s.chip.onTemper fun y => { y with
        phase := .finalising, prev := some (x.from_, u + s.chip.fld Reg.MPC_TMP_GRACE 15 0) })) ∧
    (∀ g, x.phase = .finalising → x.learnGrid = some g →
      (x.written = true → Does .temperReady s (s.chip.onTemper fun y => { y with
        phase := .idle, ready := true, buf := !y.buf, old := [], lost := [] })) ∧
      (x.written = false → g.nx * g.ny ≤ 2 ^ 22 → (∀ i : Fin 16, (s.chip.hst.leases[i]).state = .free) → Runs .temperReady s fun t =>
        t = { s with chip := { s.chip with mpc := t.chip.mpc }, mem := { s.mem with dram := t.mem.dram } } ∧
        t.chip.mpc = { s.chip.mpc with temper := { x with
          phase := .idle, ready := true, buf := !x.buf, old := [], lost := [], written := true } } ∧
        (∀ a, (a < mapBase (!x.buf) ∨ mapBase (!x.buf) + 2 * (g.nx * g.ny) ≤ a) →
          Memory.read dramDefault t.mem.dram a = Memory.read dramDefault s.mem.dram a) ∧
        ∀ k, k < g.nx * g.ny →
          let bytes (a n : Nat) : List Byte := (List.range n).map fun i => Memory.read dramDefault s.mem.dram (a + i)
          let old := if x.lost.contains k then 0x8000
            else if x.carry then clampCode (leNat (bytes (mapBase x.buf + 2 * k) 2)) else (findKey k x.old).getD 0x8000
          let sum := leSAt (bytes (accAddr k) 4) 0 4
          let cnt := leNat (bytes (accAddr k + 4) 2)
          let gain := s.chip.fld Reg.MPC_TMP_CFG 15 0
          leNat ((List.range 2).map fun i => Memory.read dramDefault t.mem.dram (mapBase (!x.buf) + 2 * k + i)) =
            (clampInt (s.chip.fld Reg.MPC_TMP_BOUNDS 15 0) (s.chip.fld Reg.MPC_TMP_BOUNDS 31 16)
              (if s.chip.fld Reg.MPC_TMP_CFG 31 16 ≤ cnt ∧ 0 < cnt then
                rndShift (old * (32768 + rndShift (gain * sat16 (rndDiv sum cnt)) 15)) 15 else old)).toNat))

/-- Emission is released only with both ESTOP inputs healthy and the watchdog armed: every step keeps this (R193,
R194). -/
def Obligations.StepKeepsEmissionGuarded : Prop :=
  let guarded (s : State) : Prop := s.chip.mpc.emrel = true →
    s.chip.mpc.estopA = true ∧ s.chip.mpc.estopB = true ∧ s.chip.mpc.armed = true
  guarded State.reset ∧ ∀ s t : State, guarded s → step s = .next t → guarded t

/-- A write of MPC_EMREL_CTRL replaces REQ and the delay; clearing REQ under a release begins the de-assertion three
boundaries after the next. The delay's end enables power. ARM arms the watchdog, whose kicks alternate; a laser stop
clears REQ and aborts the layer (R193, R195, R196). -/
def Obligations.ReleaseIsRequestedAndStopped : Prop :=
  ∀ (s : State) (q : Requester) (v : Word), s.settled = true →
    (s.chip.writable q Reg.MPC_EMREL_CTRL v = true →
      let d := (s.chip.seenBy q).wr Reg.MPC_EMREL_CTRL (v &&& 0xFF01)
      ((s.chip.emReq = false ∨ v.getLsbD 0 = true ∨ s.chip.mpc.emrel = false ∨ s.chip.mpc.emrelOff.isSome = true) →
        Does (.emissionReq q v) s d) ∧
      (s.chip.emReq = true → v.getLsbD 0 = false → s.chip.mpc.emrel = true → s.chip.mpc.emrelOff = none →
        Does (.emissionReq q v) s (d.onMpc fun m => { m with emrelOff := some 4 }))) ∧
    (s.chip.mpc.emrel = true → s.chip.mpc.emrelOff = none →
      Does .emrelDelayElapsed s (s.chip.onMpc fun m => { m with delayDone := true })) ∧
    (s.chip.writable q Reg.MPC_WDOG_CFG (v ||| 0x80000000) = true →
      Does (.wdogArm q v) s (((s.chip.seenBy q).wr Reg.MPC_WDOG_CFG ((v ||| 0x80000000) &&& 0x800003FF)).onMpc fun m =>
        { m with armed := true, kickA := true })) ∧
    (s.chip.writable q Reg.MPC_WDOG_KICK v = true → s.chip.mpc.armed = true → s.chip.wdogExpired = false →
      v = (if s.chip.mpc.kickA then 0x0000A55A else 0x00005AA5) →
      Does (.wdogKick q v) s ((s.chip.seenBy q).onMpc fun m => { m with kickA := !m.kickA })) ∧
    (s.chip.writable q Reg.MPC_LASER_STOP 1 = true → s.chip.scn.armed = none →
      Does (.laserStop q) s ((((s.chip.seenBy q).wr Reg.MPC_EMREL_CTRL (s.chip.rd Reg.MPC_EMREL_CTRL &&& ~~~1)).abortLayer).onMpc
        fun m => { m with stopping := true, stopWait := true }))

/-- An ESTOP input that leaves its healthy level, a watchdog expiry or wrong kick, and a tick-monitor expiry de-assert
the release, set their latch, clear REQ and abort the layer; ESTOP_DISC latches a disagreement. The latches of the
inputs clear only while both are healthy, and clearing WDOG_EXP restarts the watchdog (R194, R195). -/
def Obligations.EmissionStopsAndLatches : Prop :=
  ∀ (s : State) (q : Requester) (v : Word) (a b : Bool), s.settled = true →
    let stopped (c : Chip) (latch : Nat) : Chip :=
      (((c.onMpc fun m => { m with emrel := false, delayDone := false, emrelOff := none, pwrTick := false }).clearBits
          Reg.MPC_EMREL_CTRL 1).sticky Reg.MPC_SAFETY_STATUS latch).abortLayer
    let left := (s.chip.mpc.estopA = true ∧ a = false) ∨ (s.chip.mpc.estopB = true ∧ b = false)
    let pins := s.chip.onMpc fun m => { m with estopA := a, estopB := b }
    (¬ left → Does (.estop a b) s pins) ∧
    (left → Runs (.estop a b) s fun t => t.chip.mpc.emrel = false ∧ t.chip.mpc.pwrTick = false ∧ t.chip.mpc.estopA = a ∧
      t.chip.mpc.estopB = b) ∧
    (s.chip.scn.armed = none → (s.chip.bit Reg.HVI_GLB_CFG 0 = false ∨ ∀ x : Fin 8, (s.chip.axis[x]).underway = false) →
      (left → Logs (.estop a b) s (stopped pins 0x100)) ∧
      (s.chip.mpc.armed = true → Logs .tickmonExp s (stopped s.chip 0x800)) ∧
      (s.chip.mpc.armed = true → s.chip.wdogExpired = false → Logs .wdogExp s (stopped s.chip 0x400) ∧
        (s.chip.writable q Reg.MPC_WDOG_KICK v = true → v ≠ (if s.chip.mpc.kickA then 0x0000A55A else 0x00005AA5) →
          Logs (.wdogKick q v) s (stopped (s.chip.seenBy q) 0x400)))) ∧
    (s.chip.mpc.estopA ≠ s.chip.mpc.estopB → Logs .estopDisc s (s.chip.sticky Reg.MPC_SAFETY_STATUS 0x200)) ∧
    (let kept : Word := if s.chip.mpc.estopA && s.chip.mpc.estopB then 0 else 0x300
     (v.getLsbD 10 = false → s.chip.writable q Reg.MPC_SAFETY_STATUS v = true →
       SetsOnly (.estopLatchClear q v) s q Reg.MPC_SAFETY_STATUS
         (s.chip.rd Reg.MPC_SAFETY_STATUS &&& ~~~(v &&& 0x1F00 &&& ~~~kept))) ∧
     (s.chip.wdogExpired = true → s.chip.writable q Reg.MPC_SAFETY_STATUS (v ||| 0x400) = true →
       Does (.wdogExpClear q v) s (((s.chip.seenBy q).wr Reg.MPC_SAFETY_STATUS
         (s.chip.rd Reg.MPC_SAFETY_STATUS &&& ~~~((v ||| 0x400) &&& 0x1F00 &&& ~~~kept))).onMpc fun m => { m with kickA := true })))

/-! ### Ingots, layers, lattices and arbitration (R82 to R92, R129 to R173) -/

/-- LOAD with a good header and a free lease entry takes the entry, LOADING over the guarded range; a misplaced base fails
with RANGE and changes no lease. When its checks pass the entry is LOADED with the Ingot and the load completes OK with
the entry and LAYER_NO; a failed header check frees the entry and completes with its code (R82 to R85). -/
def Obligations.LoadsTakeALease : Prop :=
  ∀ (s : State) (r : Fin 256) (d : Desc), s.settled = true →
    let base := leAt d.bytes 8 8
    let h := (s.chip.dramRead s.env reqHST base 256).2
    let g := headerIngot base h.bytes
    let len := roundUp 4096 g.len
    (s.chip.holds r d 0x10 → d.clean [(8, 15)] = true → base < 2 ^ 35 →
      (base % 4096 ≠ 0 → Runs (.load r []) s fun t => Posts s t r d.idx 0x03 none none ∧
        t.chip.hst.leases = s.chip.hst.leases ∧ t.mem.dram = s.mem.dram) ∧
      (base % 4096 = 0 → inHostData base 256 = true → h.ok = true → magicCode h.bytes = 0 → g.rangeBad = false →
        ∀ i, s.chip.freeLease = some i →
        (∀ k : Fin 16, s.chip.hst.leases[k].state = .free ∨ meets (base, len) (s.chip.hst.leases[k].base, s.chip.hst.leases[k].len) = false) →
        Runs (.load r []) s fun t => Begins s t r d (.load i h.bytes) ∧ s.sameMem t ∧
          t.chip.hst.leases = upd s.chip.hst.leases i fun _ => { Lease.reset with
            state := .loading, base := base, len := len, layerNo := g.layerNo })) ∧
    ∀ (i : Fin 16) (bs : List Byte), s.chip.works r d (.load i bs) →
      let l := s.chip.hst.leases[i]
      let g := headerIngot l.base bs
      (∀ x, s.chip.headerCode g bs = 0 → (s.chip.bodyCheck s.env g l.written).2 = .ok x →
        Runs (.loadCheckComplete r []) s fun t => Posts s t r d.idx 0 (some i.val) (some x.layerNo) ∧
          t.chip.hst.leases = upd s.chip.hst.leases i fun l => { l with state := .loaded, ingot := some x }) ∧
      (s.chip.headerCode g bs ≠ 0 → Runs (.loadCheckComplete r []) s fun t =>
        Posts s t r d.idx (s.chip.headerCode g bs) none none ∧
        t.chip.hst.leases = upd s.chip.hst.leases i fun _ => Lease.reset)

/-- START of a LOADED Ingot arms it for its start tick of R43 and stays owed; one whose tick is not ahead completes
MISSED_START. ABORT of the running layer completes ABORTED, marks the layer and withholds every shared Billet that has not
ended, so that no head keeps a claim; RELEASE frees a LOADED entry, and is
deferred for a RUNNING one (R84, R85, R86, R338). -/
def Obligations.StartsAbortsAndReleases : Prop :=
  ∀ (s : State) (r : Fin 256) (d : Desc) (i : Fin 16), s.settled = true → leAt d.bytes 4 1 = i →
    let l := s.chip.hst.leases[i]
    let ns := leAt d.bytes 16 4
    let rep := leAt d.bytes 24 8
    let k := divup (((leAt d.bytes 8 6 * 1000000000 + ns : Nat) - (s.chip.epochNs : Int)) * 4) (5 * (s.chip.N : Int))
    (s.chip.holds r d 0x11 → d.clean [(4, 4), (8, 13), (16, 19), (24, 31)] = true → ns ≤ 999999999 → rep % 64 = 0 → rep ≠ 0 →
      l.state = .loaded → ∀ g, l.ingot = some g → s.chip.scn.armed = none →
      (k ≤ s.chip.ttu.index → Runs (.start r) s fun t => Posts s t r d.idx 0x4A (some i.val) (some s.chip.ttu.index) ∧
        t.chip.hst.leases = s.chip.hst.leases ∧ t.chip.scn = s.chip.scn) ∧
      ((s.chip.ttu.index : Int) < k → Runs (.start r) s fun t =>
        t.chip.hst.leases = (upd s.chip.hst.leases i fun l => { l with
          state := .armed, start := some ⟨some ⟨r, d.idx, d.irq⟩, rep, k.toNat⟩ }) ∧
        (t.chip.scn.armed.map (·.1)) = some i ∧ t.chip.scn.layer = s.chip.scn.layer ∧
        t.chip.ring r = { s.chip.ring r with fetched := [], owedLate := (s.chip.ring r).owedLate + 1 } ∧ s.sameMem t)) ∧
    (s.chip.holds r d 0x12 → d.clean [(4, 4)] = true → l.state = .running → ∀ y, s.chip.scn.layer = some y → y.abortAt = none →
      Runs (.abort r) s fun t => Posts s t r d.idx 0x4D (some i.val) (some s.chip.ttu.index) ∧
        t.chip.scn.layer = some { y with
          abortAt := some s.chip.ttu.index
          withheld := y.withheld + (y.shared.filter fun x => !x.state.ended).length
          shared := y.shared.map fun x => if x.state.ended then x else { x with state := .withheld }
          stage := { y.stage with pool := [] } } ∧
        (∀ h : Fin 64, t.chip.hd[h].claims = []) ∧ t.chip.hst.leases = s.chip.hst.leases) ∧
    (s.chip.holds r d 0x13 → d.clean [(4, 4)] = true →
      (l.state = .loaded → Runs (.release r) s fun t => Posts s t r d.idx 0 (some i.val) none ∧
        t.chip.hst.leases = (upd s.chip.hst.leases i fun _ => Lease.reset) ∧ t.chip.scn = s.chip.scn) ∧
      (l.state = .running → l.relPend = false → Runs (.release r) s fun t =>
        t.chip.hst.leases = (upd s.chip.hst.leases i fun l => { l with relPend := true, relRef := some ⟨r, d.idx, d.irq⟩ }) ∧
        (t.chip.ring r).owedLate = (s.chip.ring r).owedLate + 1 ∧ t.chip.scn = s.chip.scn))

/-- At its start tick, with TICK_LOCK and no layer, the ARMED Ingot's layer begins; otherwise its START misses and the
entry is LOADED again. At its end boundary a layer ends: no head holds work of it and its laser is off, its entry is
LOADED, its report is written and its START completes with LAYER_NO and the first tick (R85, R87, R338). The records of a
staged Billet, of the running layer or of the ARMED Ingot, reach its slot (R91). -/
def Obligations.LayersStartStageAndEnd : Prop :=
  ∀ (s : State) (i : Fin 16), s.settled = true →
    let l := s.chip.hst.leases[i]
    (∀ g x ing, s.chip.scn.armed = some (i, g) → l.start = some x → l.ingot = some ing → s.chip.ttu.inTick = true →
      s.chip.scn.layer = none →
      (x.tick = s.chip.ttu.index → s.chip.ttu.lock = true → Runs .layerStart s fun t =>
        t.chip.hst.leases[i].state = .running ∧ t.chip.scn.armed = none ∧ t.chip.scn.layerNo = ing.layerNo ∧
        t.chip.scn.tick0 = s.chip.ttu.index ∧ ∃ y, t.chip.scn.layer = some y ∧ y.lease = i ∧ y.ingot = ing ∧
          y.first = s.chip.ttu.index ∧ y.exposed = 0 ∧ y.abortAt = none ∧ y.endAt = none) ∧
      (x.tick < s.chip.ttu.index → x.ref = none → l.relPend = false → Runs .layerStart s fun t =>
        t.chip.hst.leases = (upd s.chip.hst.leases i fun l => { l with state := .loaded, start := none }) ∧
        t.chip.scn = { s.chip.scn with armed := none } ∧ s.sameMem t)) ∧
    (∀ y n, s.chip.scn.layer = some y → y.lease = i → y.endAt = some n → n ≤ s.chip.ttu.index → l.relPend = false →
      (Runs .layerEnd s fun t => t.chip.scn.layer = none ∧ t.chip.hst.leases[i].state = .loaded ∧
        t.chip.hst.leases[i].start = none ∧ ∀ h : Fin 64, t.chip.hd[h].cur = none ∧ t.chip.hd[h].laser = false) ∧
      ∀ x (r : Fin 256) idx, l.start = some x → x.ref = some ⟨r, idx, false⟩ → s.chip.serves r → (s.chip.ring r).fetched = [] →
        (s.chip.ring r).cur = none → Runs .layerEnd s fun t => ∃ u : State, u.chip = s.chip.onRing r (fun g => { g with
          owedLate := g.owedLate - 1 }) ∧ Posts u t r idx y.withholdRest.status (some y.ingot.layerNo) (some y.first)
          (Memory.writes dramDefault s.mem.host x.report (layerReport i y.withholdRest))) ∧
    (∀ y b x bs, s.chip.scn.layer = some y → y.lease = i → y.ingot.dir[b]? = some x → y.stage.awaits b = true →
      s.chip.visitFree i y.lostHeads b = true → (s.chip.stageRead s.env y.ingot x).2 = .ok bs →
      Runs (.slotReady i b []) s fun t =>
        t.chip.scn = { s.chip.scn with layer := some { y with stage := y.stage.fill b bs } } ∧ t.chip.hd = s.chip.hd ∧
        t.chip.hst.leases = s.chip.hst.leases ∧ s.sameMem t) ∧
    ∀ g ing b x bs, s.chip.scn.layer = none → s.chip.scn.armed = some (i, g) → l.ingot = some ing → ing.dir[b]? = some x →
      g.awaits b = true → s.chip.visitFree i 0 b = true → (s.chip.stageRead s.env ing x).2 = .ok bs →
      Runs (.slotReady i b []) s fun t =>
        t.chip.scn = { s.chip.scn with armed := some (i, g.fill b bs) } ∧ t.chip.hd = s.chip.hd ∧
        t.chip.hst.leases = s.chip.hst.leases ∧ s.sameMem t

/-- LATTICE_LOAD into a bank that may be loaded makes it LOADING and EMPTY of data, and its completion READY with the
image or EMPTY, one that a reset of SCN has ended staying EMPTY with ABORTED (log entry 17); a busy bank is refused. REGISTER starts a run as an armed layer of its own; its end releases it, writes
the result record and completes (R141, R144, R147 to R149). The figures that the run itself draws are free (log
entries 4 and 18). -/
def Obligations.LatticesAndRegistrations : Prop :=
  ∀ (s : State) (r : Fin 256) (d : Desc), s.settled = true →
    (∀ (h : Fin 64) (b : Fin 2), leAt d.bytes 4 1 = h → leAt d.bytes 5 1 = b → s.chip.headOn h = true →
      (s.chip.holds r d 0x21 → d.clean [(4, 5), (8, 15)] = true →
        (s.chip.bankBusy h b = true → Runs (.latticeLoad r) s fun t => Posts s t r d.idx 0x02 none none ∧ t.chip.hd = s.chip.hd) ∧
        (s.chip.bankBusy h b = false → leAt d.bytes 8 8 % 32 = 0 → leAt d.bytes 8 8 + imageLen ≤ 2 ^ 35 →
          let c := (((s.chip.takeTurn r).onRing r fun g => { g with fetched := [], cur := some ⟨d, .lattice h b⟩ }).onHead h
            fun x => { x with banks := upd x.banks b fun _ => ⟨.loading, []⟩ })
          Does (.latticeLoad r) s { c with scn := { s.chip.scn with
            loads := s.chip.scn.loads ++ [⟨r, h, b, leAt d.bytes 8 8, true, true⟩] } }))) ∧
    (∀ k : LatLoad, s.chip.scn.loads.find? (·.ring == r.val) = some k →
      let left (t : State) : Prop := t.chip.scn = { s.chip.scn with loads := s.chip.scn.loads.erase k }
      let ends (b : Bank) : Vector Head 64 := (s.chip.onHead k.head fun y => { y with banks := upd y.banks k.bank fun _ => b }).hd
      let x := (s.chip.dramRead s.env reqLattice k.addr imageLen).2
      let code := if k.live then (if x.ok then imageCode x.bytes else 0x04) else 0x4D
      firstRefused (mayRead reqLattice) k.addr imageLen = none → Runs (.latticeLoadComplete r []) s fun t => left t ∧
        t.chip.hd = (if k.live = false then s.chip.hd else if code = 0 then ends ⟨.ready, x.bytes⟩ else ends ⟨.empty, []⟩) ∧
        (k.owned = true → s.chip.works r d (.lattice k.head k.bank) → Posts s t r d.idx code none none)) ∧
    (∀ p i n fs,
      let a := leAt d.bytes 8 8
      let blk := (s.chip.dramRead s.env reqHST a 64).2
      let hdr := (s.chip.dramRead s.env reqHST p.table 32).2
      let ents := (s.chip.dramRead s.env reqHST (p.table + 32) (32 * n)).2
      s.chip.holds r d 0x22 → d.clean [(8, 15)] = true → a < 2 ^ 35 → firstRefused (mayRead reqHST) a 64 = none →
      blk.ok = true → regParams blk.bytes = some p → firstRefused (mayWrite reqHST) p.result 32 = none →
      (∀ y, p.result ≤ y → y < p.result + 32 → s.chip.guardOf y = none) → s.chip.scn.armed = none → s.chip.scn.layer = none →
      s.chip.ttu.lock = true → s.chip.reg = none → s.chip.freeLease = some i →
      firstRefused (mayRead reqHST) p.table 32 = none → hdr.ok = true → tableCount hdr.bytes = some n →
      firstRefused (mayRead reqHST) (p.table + 32) (32 * n) = none → ents.ok = true → tableEntries hdr.bytes ents.bytes = some fs →
      (∀ k : Fin 64, p.heads.getLsbD k = true → s.chip.hd[k].bank.isReady = true) →
      Runs (.register r []) s fun t => (∃ x, t.chip.reg = some x ∧ x.ring = r ∧ x.lease = i ∧ x.result = p.result ∧
          x.heads = p.heads ∧ x.target = p.goal ∧ x.fids = fs ∧ x.visits = s.chip.visits p fs ∧ x.ended = none) ∧
        t.chip.hst.leases[i].state = .armed ∧ t.chip.hst.leases[i].own = true ∧ (t.chip.scn.armed.map (·.1)) = some i ∧
        Begins s t r d .registration) ∧
    ∀ x st (ms : RegFindings), s.chip.works r d .registration → s.chip.reg = some x → x.ring = r → x.ended = some st → st ≠ 0x4D →
      s.chip.hst.leases[x.lease].own = true → s.chip.hst.leases[x.lease].state = .loaded →
      let good := (Chip.measures x ms x.visits.zipIdx s.chip).1.filter fun y => y.2.good
      let sq := pairSquares good
      let rms := if sq.isEmpty then 0 else min (rootRound sq.sum sq.length) 0xFFFFFFFF
      Runs (.registrationDone ms) s fun t => t.chip.reg = none ∧ t.chip.hst.leases[x.lease] = Lease.reset ∧
        Posts s t r d.idx (if sq.isEmpty then 0x05 else 0) (some rms) (some x.result)

/-- A forced Billet that stands first in the order of R157 is granted to one of its eligible candidates, and both the
grant and the force are counted; a head that has aged gains PRI with the stamp of the last tick, and loses it when its
time is over (R157, R158, R168). -/
def Obligations.ArbitrationGrantsAndAges : Prop :=
  ∀ (s : State), s.settled = true →
    (∀ l age x rest (h : Fin 64), s.chip.scn.layer = some l → s.chip.resolveOrder l = (age, x) :: rest →
      s.chip.forceTicks ≤ age → l.abortAt = none → s.chip.ttu.inTick = true → s.chip.ttu.miss.arb = none →
      h ∈ l.candidates x.billet → s.chip.eligible l x h = true → Runs (.forced x.billet) s fun t =>
        ∃ k ∈ l.candidates x.billet, s.chip.eligible l x k = true ∧
          t.chip.scn = { s.chip.scn with layer := some { l with shared := l.shared.map fun y =>
            if y.billet = x.billet then { y with state := .claimed k } else y } } ∧
          t.chip.hd[k].claims = s.chip.hd[k].claims ++ [(x.billet, s.chip.ttu.index)] ∧
          (∀ j, j ≠ k → t.chip.hd[j].claims = s.chip.hd[j].claims) ∧
          t.chip.rdn Reg.SLD_GRANT_CNT = min (s.chip.rdn Reg.SLD_GRANT_CNT + 1) (2 ^ 32 - 1) ∧
          t.chip.rdn Reg.SLD_FORCE_CNT = min (s.chip.rdn Reg.SLD_FORCE_CNT + 1) (2 ^ 32 - 1) ∧
          t.chip.bit Reg.SLD_FLAGS 0 = true ∧ s.sameMem t) ∧
    ∀ h : Fin 64, (s.chip.hd[h].gainDue = true → Runs (.priGain h) s fun t =>
        t.chip.hd = (s.chip.onHead h fun x => { x with
          pri := true, stamp := s.chip.scn.lastTick, runCnt := 0, gainDue := false }).hd ∧ s.sameMem t) ∧
      (s.chip.hd[h].lossDue = true → Does (.priLoss h) s (s.chip.onHead h fun x => { x with pri := false, lossDue := false }))

/-! ### Camera pipelines (R199 to R226) -/

/-- ENABLE takes a pipeline with a valid configuration from OFF to IDENT, with generation 0 in force; an invalid one
clears ENABLE again and sets CFG_ERR. Clearing ENABLE turns it OFF and drops the frame in hand (R203). The identity read
ends in IDLE with a frame gap open, or, where the read fails or the identity differs, in OFF with ID_ERR (R220). -/
def Obligations.PipelinesStartAndIdentify : Prop :=
  ∀ (s : State) (q : Requester) (p : Fin 16) (v : Word), s.settled = true →
    let k := s.chip.cam[p]
    let stored (w : Word) : Chip :=
      (s.chip.seenBy q).wr (Reg.CAM_CTRL p) ((s.chip.rd (Reg.CAM_CTRL p) &&& ~~~0xFFF7) ||| (w &&& 0xFFF7))
    (s.chip.writable q (Reg.CAM_CTRL p) (v ||| 1) = true → k.state = .off →
      ((stored (v ||| 1)).camValid p = true → Does (.camEnable q p v) s ((stored (v ||| 1)).onCam p fun k => { k with
        state := .ident, gap := false, gen := 0, genNs := s.chip.fld (Reg.CAM_EXP_NS p) 24 0, waiting := []
        uncertain := false, fsAt := none, period := none
        cci := if k.xfer.isSome then k.cci else s.chip.cciIdentity p })) ∧
      ((stored (v ||| 1)).camValid p = false → Runs (.camEnable q p v) s fun t =>
        t.chip.cam = s.chip.cam ∧ t.chip.bit (Reg.CAM_CTRL p) 0 = false ∧ t.chip.bit (Reg.CAM_FLAGS p) 0 = true)) ∧
    (s.chip.writable q (Reg.CAM_CTRL p) (v &&& 0xFFFFFFFE) = true → k.state ≠ .off → k.pend = none →
      Does (.camDisable q p v) s ((stored (v &&& 0xFFFFFFFE)).onCam p fun k => { k with
        state := .off, gap := false, frame := none })) ∧
    (k.state = .ident →
      let n := s.chip.fld (Reg.CAM_ID_CFG p) 19 16
      (n = 0 → ∀ res, Does (.identComplete p res) s (s.chip.onCam p fun k => { k with
        state := .idle, idOk := true, gap := true, cci := [] })) ∧
      (n ≠ 0 → Runs (.identComplete p none) s fun t => t.chip.cam[p].state = .off ∧ t.chip.cam[p].idOk = false ∧
        t.chip.bit (Reg.CAM_CTRL p) 0 = false ∧ t.chip.bit (Reg.CAM_FLAGS p) 1 = true) ∧
      (0 < n → n ≤ 8 → ∀ bs, Runs (.identComplete p (some bs)) s fun t =>
        t.chip.rdPair (Reg.CAM_ID_LO p) % 2 ^ (8 * n) = leAt bs 0 n ∧
        (if s.chip.bit (Reg.CAM_ID_CFG p) 20 = true ∧ leAt bs 0 n ≠ s.chip.rdPair (Reg.CAM_ID_EXP_LO p) % 2 ^ (8 * n) then
          t.chip.cam[p].state = .off ∧ t.chip.bit (Reg.CAM_FLAGS p) 1 = true
        else t.chip.cam[p].state = .idle ∧ t.chip.cam[p].idOk = true ∧ t.chip.cam[p].gap = true)))

/-- What a received header means is in its bits once its ECC has corrected them: a correction is counted, a header that cannot
be corrected drops its packet with ECC_UE, and one outside the binding with FOREIGN (R199 to R202, R204). FS opens a frame with
the next sequence number, in IDLE or, with FS_NO_FE, over a frame that it closes; FE and the frame time-out close it into IDLE
with a frame gap, its missing lines counted short (R203, R205). A bound packet adds a line: its pixels, or pad where its CRC
fails; the first embedded line is kept (R204).
The ECC, the CRC and the packing of RAW samples are the family's (log entry 15). -/
def Obligations.FramesOpenFillAndClose : Prop :=
  ∀ (s : State) (p : Fin 16) (h : BitVec 32) (bs : List Byte) (crc : BitVec 16), s.settled = true →
    let k := s.chip.cam[p]
    let received : List Instr := [.frameEnd p h, .longPacket p (some h) bs crc, .foreignPacket ⟨p, h, bs, crc⟩,
      .frameStart p (h.extractLsb' 0 8) (h.extractLsb' 8 16) (h.extractLsb' 24 8)]
    let dropped (c : Chip) (bit : Nat) : Chip := (c.sticky (Reg.CAM_FLAGS p) bit).bump (Reg.CAM_PKT_DROP_CNT p)
    ((k.state = .idle ∨ k.state = .inFrame) →
      (eccCheck h.toNat = none → ∀ i ∈ received, Does i s (dropped s.chip 0x10)) ∧
      Does (.longPacket p none bs crc) s (dropped s.chip 0x4)) ∧
    ∀ x fixed, eccCheck h.toNat = some (x, fixed) →
      let c := if fixed then s.chip.bump (Reg.CAM_ECC_FIX_CNT p) else s.chip
      let dt := bitsOf x 5 0
      let wc := bitsOf x 23 8
      (k.state ≠ .off → s.chip.isBound p x = false → ∀ i ∈ received,
        Does i s ((s.chip.sticky (Reg.CAM_FLAGS p) 0x8).bump (Reg.CAM_FOREIGN_CNT p))) ∧
      (s.chip.isBound p x = true →
        (dt = 0 → (k.state = .idle ∨ (k.state = .inFrame ∧ k.frame.isSome = true)) →
          Runs (.frameStart p (h.extractLsb' 0 8) (h.extractLsb' 8 16) (h.extractLsb' 24 8)) s fun t =>
            t.chip.cam[p].state = .inFrame ∧ t.chip.cam[p].gap = false ∧ t.chip.cam[p].seq = k.seq + 1 ∧
            t.chip.rdn (Reg.CAM_FRAME_SEQ p) = (k.seq + 1) % 2 ^ 32 ∧
            (∃ f, t.chip.cam[p].frame = some f ∧ f.seq = k.seq + 1 ∧ f.fn = wc ∧ f.lines = [] ∧ f.lastPkt = s.chip.ttu.index ∧
              f.cfg.width = s.chip.fld (Reg.CAM_GEOM p) 12 0 ∧ f.cfg.thresh = s.chip.fld (Reg.CAM_PIX_CFG p) 29 16) ∧
            (k.state = .inFrame → t.chip.bit (Reg.CAM_FLAGS p) 10 = true) ∧
            (∀ y, y ≠ p → t.chip.cam[y] = s.chip.cam[y]) ∧ (k.state = .idle → s.sameMem t)) ∧
        (dt = 1 → k.state = .idle → Does (.frameEnd p h) s (dropped c 0x20)) ∧
        ∀ f, k.state = .inFrame → k.frame = some f →
          let short := decide (f.lines.length < f.cfg.height)
          let closed (c : Chip) (forced : Bool) : Chip :=
            let d := c.onCam p fun k => { k with
              state := .idle, gap := true, frame := none
              closed := k.closed ++ [{ f with short := f.short || short || forced, closeTick := s.chip.ttu.index, buf := none }] }
            if short then (d.sticky (Reg.CAM_FLAGS p) 0x100).bump (Reg.CAM_FRAME_FIX_CNT p) else d
          let got (g : CamFrame) : Chip := c.onCam p fun k => { k with frame := some { g with lastPkt := s.chip.ttu.index } }
          let good := decide ((bs.take wc).length = wc ∧ csiCrc (bs.take wc) = crc.toNat)
          (dt = 1 → s.chip.fld (Reg.CAM_CTRL p) 2 1 ≠ 1 → Logs (.frameEnd p h) s (closed c false)) ∧
          (s.chip.fld (Reg.CAM_CTRL p) 2 1 ≠ 1 → s.chip.fld (Reg.CAM_FRAME_CFG p) 31 16 ≠ 0 →
            f.lastPkt + s.chip.fld (Reg.CAM_FRAME_CFG p) 31 16 ≤ s.chip.ttu.index →
            Logs (.frameTmo p) s ((closed s.chip true).sticky (Reg.CAM_FLAGS p) 0x800)) ∧
          (shortType dt = false → dt ≠ 0x12 → f.lines.length < f.cfg.height →
            (good = true → ∀ px, unpackLine f.cfg.dt (bs.take wc) = some px → px.length = f.cfg.width →
              Logs (.longPacket p (some h) bs crc) s (got { f with lines := f.lines ++ [px] })) ∧
            (good = false → Logs (.longPacket p (some h) bs crc) s
              (((got { f with lines := f.lines ++ [[]], damaged := true }).sticky (Reg.CAM_FLAGS p) 0x40).bump
                (Reg.CAM_LINE_ERR_CNT p)))) ∧
          (dt = 0x12 → Does (.longPacket p (some h) bs crc) s (got { f with emb := some (f.emb.getD ((bs.take wc).take 32)) })))

/-- COMMIT makes a pending generation of the exposure registers with the next number, superseding one that waits (R216).
Its transfer begins in a frame gap, each write a transaction on the camera control bus (R215); completed, the generation applies K_LAT frames after the next to open; failed, it is
lost, no byte following the first that is not acknowledged, and frames are uncertain (R217, R219). A closed frame's feature records are counted, one at least, and what they teach the Temper unit goes to its accumulators (R191, R212, R213). -/
def Obligations.ExposuresAndFeatureRecords : Prop :=
  ∀ (s : State) (q : Requester) (p : Fin 16) (v : Word), s.settled = true →
    let k := s.chip.cam[p]
    let num := if k.lastGen = 65535 then 1 else k.lastGen + 1
    let g : ExpGen := ⟨num, s.chip.fld (Reg.CAM_EXP_NS p) 24 0,
      (List.range (v.toNat % 16)).map fun i => s.chip.rdn (Reg.CAM_EXP_WR p i)⟩
    (s.chip.writable q (Reg.CAM_EXP_CTRL p) (v ||| 0x80000000) = true →
      let d := (s.chip.seenBy q).wr (Reg.CAM_EXP_CTRL p) ((s.chip.rd (Reg.CAM_EXP_CTRL p) &&& ~~~0xF) ||| (v &&& 0xF))
      (k.pend = none → Does (.expCommit q p v) s (d.onCam p fun k => { k with pend := some g, lastGen := num })) ∧
      (∀ old, k.pend = some old → Does (.expCommit q p v) s ((d.sticky (Reg.CAM_FLAGS p) 0x2000).onCam p fun k => { k with
        pend := some g, lastGen := num, lastRes := 2, resGen := old.num }))) ∧
    (∀ x, k.pend = some x → k.state = .idle → k.gap = true → k.xfer = none → x.writes ≠ [] →
      Does (.cciTransferStart p) s (s.chip.onCam p fun k => { k with
        pend := none, xfer := some x, cci := x.writes.flatMap fun w => cciSend (s.chip.cciBytes p w) })) ∧
    (∀ x, k.xfer = some x →
      Does (.cciTransferComplete p none) s (s.chip.onCam p fun k => { k with
        xfer := none, waiting := k.waiting ++ [⟨x.num, x.expNs, k.seq + 1 + s.chip.fld (Reg.CAM_CCI_CFG p) 13 12, true⟩] }) ∧
      ∀ i : CciFail, Logs (.cciTransferComplete p (some i)) s ((s.chip.onCam p fun k => { k with
        xfer := none, lastRes := 3, resGen := x.num, uncertain := true
        cci := ((x.writes.take i.write).flatMap fun w => cciSend (s.chip.cciBytes p w)) ++
          cciSend ((s.chip.cciBytes p (x.writes.getD i.write 0)).take (i.acked + 1))
        waiting := k.waiting.map fun w => { w with clean := false } }).sticky (Reg.CAM_FLAGS p) 0x1000)) ∧
    (∀ f rest, k.closed = f :: rest → f.buf = none → s.chip.camRing 4 p = none → Runs (.featureRecord p) s fun t =>
      t.chip.cam[p].closed = rest ∧
      t.chip.rdn (Reg.CAM_FEAT_CNT p) = min (s.chip.rdn (Reg.CAM_FEAT_CNT p) + max 1 (min 8 f.blobs.1.length)) (2 ^ 32 - 1) ∧
      (∀ x, x ≠ p → t.chip.cam[x] = s.chip.cam[x]) ∧ t.mem.host = s.mem.host ∧ t.mem.nor = s.mem.nor ∧
      ∀ a, (∀ m, s.chip.mpc.temper.learnGrid = some m → a < accAddr 0 ∨ accAddr (m.nx * m.ny) ≤ a) →
        Memory.read dramDefault t.mem.dram a = Memory.read dramDefault s.mem.dram a)

/-! ### Head lanes (R227 to R258) -/

/-- Training (R232 to R235): ENABLE sends TS1 from OFF, RETRAIN and an automatic retry from DOWN; sixteen sets with the
lane's number and its complement are answered with TS2, and eight TS2 take the lane to CAPX with 128 credits granted; an accepted capability
record is kept and answered with CONFIG; its acknowledgement starts the probes, each answer or time-out the next, and the
sixty-fourth value gives the delay and SYNC. -/
def Obligations.LanesTrain : Prop :=
  ∀ (s : State) (q : Requester) (h : Fin 64) (v : Word), s.settled = true → s.chip.headOn h = true →
    let l := headLane h
    let k := s.chip.lane[l]
    let trains (c : Chip) : Chip := c.onLane l fun k => ({ k.clear with state := .align } : Lane).sends h .ts1
    let name : Byte × Byte := (BitVec.ofNat 8 h, ~~~(BitVec.ofNat 8 h))
    (s.chip.writable q (Reg.LNK_CTRL l) (v ||| 1) = true → k.state = .off →
      Does (.laneEnable q l v) s (trains ((s.chip.seenBy q).wr (Reg.LNK_CTRL l) 1))) ∧
    (s.chip.writable q (Reg.LNK_CTRL l) (v ||| 2) = true → v.getLsbD 0 = true → k.state = .down →
      Does (.retrain q l v) s (trains ((s.chip.seenBy q).wr (Reg.LNK_CTRL l) 1))) ∧
    (k.state = .down → s.chip.bit Reg.LNK_GLB_CFG 16 = true → s.chip.fld (Reg.LNK_PRBS_CFG l) 2 0 = 0 →
      Does (.autoRetry h) s (trains s.chip)) ∧
    (k.state = .align → k.sendTs2 = false → ∀ ts2 sent, sent < 16 →
      let heard : Lane := { k with
        tsOwn := true, tsRun := k.tsRun + 1, ts2Run := if ts2 then k.ts2Run + 1 else 0, rx := { k.rx with aligned := true } }
      Does (.trainingSet h ts2 name sent) s (s.chip.onLane l fun _ =>
        if 16 ≤ k.tsRun + 1 then ({ heard with sendTs2 := true } : Lane).sends h .ts2 else heard)) ∧
    (∀ ts2 sent (lane : Byte × Byte), lane.2 ≠ ~~~lane.1 → Does (.trainingSet h ts2 lane sent) s s.chip) ∧
    (k.state = .align → k.sendTs2 = true → 7 ≤ k.ts2Run → ∀ sent, 16 ≤ sent →
      Runs (.trainingSet h true name sent) s fun t => t.chip.lane[l].state = .capx ∧ t.chip.lane[l].grant = 128 ∧
        (∃ a, t.chip.lane[l].sent = k.sent ++ [.fc a 128]) ∧ (∀ x, x ≠ l → t.chip.lane[x] = s.chip.lane[x]) ∧
        t.chip.regs = s.chip.regs ∧ s.sameMem t) ∧
    (∀ (seq : BitVec 8) (r : List Byte), k.state = .capx → k.dup 2 seq.toNat = false → capOk r = true →
      leAt r 14 2 ≤ s.chip.N → k.msg = none → k.msgs = [] → 9 ≤ k.credit → Runs (.cap h seq r) s fun t =>
        (∀ j, j < 8 → t.chip.rd (Reg.LNK_CAP h j) = BitVec.ofNat 32 (leAt r (4 * j) 4)) ∧ t.chip.lane[l].state = .capx ∧
        t.chip.lane[l].pdMask = s.chip.fld (Reg.LNK_CFG h) 3 0 &&& (2 ^ leAt r 13 1 - 1) ∧
        t.chip.mpc.heads[h].pd = leAt r 13 1 ∧ (∃ m, t.chip.lane[l].msg = some m ∧ m.op = 1 ∧ m.seq = k.seq ∧ m.resends = 0) ∧
        (∀ x, x ≠ l → t.chip.lane[x] = s.chip.lane[x]) ∧ s.sameMem t) ∧
    (∀ (crd : BitVec 8) m, k.state = .capx → k.msg = some m → m.op = 1 → m.seq < 256 → k.msgs = [] →
      Does (.fc h (BitVec.ofNat 8 m.seq) (crd, fcCheck (BitVec.ofNat 8 m.seq) crd)) s (s.chip.onLane l fun k => ({ k with
        fcSeen := true, crd := crd.toNat, tickPkt := k.tickPkt.map fun p => { p with acked := p.acked || p.seq == m.seq }
        msg := none, state := .measure, probe := some ⟨[], 0, k.probeId⟩, probeId := (k.probeId + 1) % 128 } : Lane).sends h
          (.probe k.probeId))) ∧
    (∀ p, k.state = .measure → k.probe = some p → p.id < 128 →
      let next (p : ProbeRun) : Chip := s.chip.onLane l fun k => ({ k with
        probe := some { p with id := k.probeId }, probeId := (k.probeId + 1) % 128 } : Lane).sends h (.probe k.probeId)
      let id := BitVec.ofNat 7 p.id
      (∀ (th : BitVec 24) (m : Nat), th.toNat ≤ 2000000 → p.values.length < 63 → p.missed ≤ 8 →
        Does (.prs h (prsCheck id th) id th m) s (next { p with values := p.values ++ [(m : Int) - th.toNat] })) ∧
      (p.missed < 8 → p.values.length ≠ 64 → Does (.probeTimeout h) s (next { p with missed := p.missed + 1 })) ∧
      (∀ (th : BitVec 24) (m : Nat), th.toNat ≤ 2000000 → p.values.length = 63 →
        let d := delayOf (p.values ++ [(m : Int) - th.toNat])
        d ≤ 250 * (s.chip.N : Int) - 50000 → s.chip.fld (Reg.LNK_CAP h 3) 31 16 ≤ s.chip.N →
        Runs (.prs h (prsCheck id th) id th m) s fun t => t.chip.lane[l].state = .sync ∧ t.chip.lane[l].d = d ∧
          t.chip.lane[l].probe = none ∧ t.chip.lane[l].retx = decide (125 * (s.chip.N : Int) - 50000 < d) ∧
          t.chip.rd (Reg.LNK_DELAY h) = BitVec.ofNat 32 (unsOf 24 d) ∧
          t.chip.rd (Reg.LNK_ADV h) = BitVec.ofNat 32 (unsOf 16 (rndDiv d 125)) ∧ s.sameMem t)) ∧
    (k.state = .active → s.chip.fld (Reg.LNK_CFG h) 31 24 ≠ 0 → k.probe = none →
      Does (.remeas h) s (s.chip.onLane l fun k => ({ k with
        probe := some ⟨[], 0, k.probeId⟩, probeId := (k.probeId + 1) % 128 } : Lane).sends h (.probe k.probeId)))

/-- A lane in service (R239 to R249): a new STATUS is acknowledged by its credit and, with SYNC, takes the lane to ACTIVE;
a new SAMPLE gives MPC its photodiode sets; HEAD_FAULT is acknowledged and logged; a message unacknowledged is resent; an
FC with a good check byte grants credit; IDLE queues its message, whose acknowledgement takes the lane to IDLE with its head
down, and WAKE begins the exit with XIT, STB and IDL. -/
def Obligations.LanesCarryTraffic : Prop :=
  ∀ (s : State) (q : Requester) (h : Fin 64) (v : Word) (seq tidx : BitVec 8), s.settled = true → s.chip.headOn h = true →
    let l := headLane h
    let k := s.chip.lane[l]
    let taken (f : Lane → Lane) (ty : Fin 3) (cost ack : Nat) : Chip := s.chip.onLane l fun k => (f { k with
      up := upd k.up ty fun _ => some seq.toNat, quiet := 0, grant := (k.grant + cost) % 256, ack := ack }).sends h
        (.fc ack ((k.grant + cost) % 256))
    (∀ (ex ey : BitVec 24), k.dup 1 seq.toNat = false →
      (k.state = .active → 0 < s.chip.fld (Reg.LNK_CFG h) 11 8 →
        Logs (.status h seq tidx ex ey 2) s (taken (fun k => { k with
          hstat := 2, coast := 0, coastTick := (resolveTick s.chip.ttu.index tidx.toNat).getD s.chip.ttu.index }) 1 1 k.ack)) ∧
      (k.state = .sync → Runs (.status h seq tidx ex ey 2) s fun t => t.chip.lane[l].state = .active ∧
        t.chip.lane[l].tickFrom = s.chip.ttu.index + 1 ∧ t.chip.hd = s.chip.hd ∧ t.chip.regs = s.chip.regs ∧
        (∀ x, x ≠ l → t.chip.lane[x] = s.chip.lane[x]) ∧ s.sameMem t)) ∧
    (∀ (pds : List (List Nat)) a, k.state = .active → k.dup 0 seq.toNat = false → pds.length = (maskBits k.pdMask).length →
      (∀ x ∈ pds, x.length = 8) → resolveTick s.chip.ttu.index tidx.toNat = some a →
      (∀ x ∈ s.chip.mpc.heads[h].sets ++ s.chip.mpc.heads[h].newSets, x.tick ≠ a) →
      Runs (.sample h seq tidx false pds) s fun t =>
        (∃ y, t.chip.mpc.heads[h].newSets = s.chip.mpc.heads[h].newSets ++ [y] ∧ y.tick = a ∧
          ∀ j i, (maskBits k.pdMask)[j]? = some i → y.pds[i]? = some ((pds.getD j []).map (· % 65536))) ∧
        t.chip.lane = (taken id 0 ((22 + 16 * pds.length) / 16) seq.toNat).lane ∧ t.chip.mpc.loops = s.chip.mpc.loops ∧
        t.chip.regs = s.chip.regs ∧ s.sameMem t) ∧
    (∀ bs : List Byte, k.state = .active → k.dup 2 seq.toNat = false →
      Logs (.headFault h seq bs) s (taken id 2 ((23 + bs.length) / 16) seq.toNat)) ∧
    (∀ m, k.msg = some m → m.resends < 3 → (23 + m.payload.length) / 16 + 8 ≤ k.credit → s.chip.bit (Reg.LNK_INJECT l) 0 = false →
      Does (.messageResend h) s (s.chip.onLane l fun k => ({ k with
        msg := some { m with resends := m.resends + 1 }, used := (k.used + (23 + m.payload.length) / 16) % 256 } : Lane).sends h
          (.packet (messageBytes m ++ leBytes 2 (crc16 (messageBytes m)))))) ∧
    (∀ ack crd : BitVec 8, k.state = .active → k.msg = none → k.msgs = [] →
      Does (.fc h ack (crd, fcCheck ack crd)) s (s.chip.onLane l fun k => { k with
        fcSeen := true, crd := crd.toNat
        tickPkt := k.tickPkt.map fun p => { p with acked := p.acked || p.seq == ack.toNat } })) ∧
    (∀ (ack : Byte) (crd : Byte × Byte), crd.2 ≠ fcCheck ack crd.1 → Does (.fc h ack crd) s s.chip) ∧
    (s.chip.writable q (Reg.LNK_CTRL l) (v ||| 4) = true → v.getLsbD 0 = true → v.getLsbD 1 = false → k.state = .active →
      k.idleReq = false → ∀ m, k.msg = some m → m.cut = false →
      Does (.idle q l v) s (((s.chip.seenBy q).wr (Reg.LNK_CTRL l) 1).onLane l fun k => { k with
        idleReq := true, msgs := k.msgs ++ [(4, [])] })) ∧
    (k.state = .active → k.idleReq = true → k.dup 2 seq.toNat = false → Runs (.idleAck h seq) s fun t =>
      t.chip.lane[l].state = .idle ∧ t.chip.lane[l].idleReq = false ∧ t.chip.lane[l].msgs = [] ∧ t.chip.hd[h].down = true ∧
      (∀ x, x ≠ l → t.chip.lane[x] = s.chip.lane[x])) ∧
    (s.chip.writable q (Reg.LNK_CTRL l) (v ||| 8) = true → v.getLsbD 0 = true → k.state = .idle → k.idleRegrid = none →
      Does (.wake q l v) s (((s.chip.seenBy q).wr (Reg.LNK_CTRL l) 1).onLane l fun k =>
        ((({ k with state := .exit, rx := .reset } : Lane).sends h .exitBurst).sends h .shortTraining).sends h .fill))

/-- What takes a lane out of service (R232, R235, R251): the lane goes DOWN with its cause, which is counted, and from
SYNC, ACTIVE or EXIT sets LINK_DOWN; from ACTIVE its head becomes link-down. ENABLE 0 turns it OFF with cause SW. -/
def Obligations.LanesGoDown : Prop :=
  ∀ (s : State) (q : Requester) (h : Fin 64) (v : Word), s.settled = true → s.chip.headOn h = true →
    let l := headLane h
    let k := s.chip.lane[l]
    let ends (i : Instr) (x : LaneState) (cause : Nat) : Prop := Runs i s fun t =>
      t.chip.lane[l].state = x ∧ t.chip.fld (Reg.LNK_DOWN_CAUSE h) 7 0 = cause ∧
      (k.state = .sync ∨ k.state = .active ∨ k.state = .exit → t.chip.bit (Reg.LNK_FLAGS h) 8 = true) ∧
      (k.state = .active → t.chip.hd[h].down = true) ∧ ∀ x, x ≠ l → t.chip.lane[x] = s.chip.lane[x]
    (s.chip.writable q (Reg.LNK_CTRL l) (v &&& 0xFFFFFFFE) = true → k.state ≠ .off → ends (.laneDisable q l v) .off 0x01) ∧
    (s.chip.writable q (Reg.LNK_CTRL l) (v ||| 2) = true → v.getLsbD 0 = true → k.state = .active →
      ends (.retrain q l v) .down 0x01) ∧
    (k.state = .align → ends (.trainTmo h) .down (if k.tsOther = true ∧ k.tsOwn = false then 0x0D else 0x02)) ∧
    (k.state = .capx ∨ k.state = .measure ∨ k.state = .sync → ends (.trainTmo h) .down 0x02) ∧
    (∀ p, k.state = .measure → k.probe = some p → p.missed = 8 → p.values.length ≠ 64 → ends (.probeTimeout h) .down 0x05) ∧
    (k.state = .sync ∨ k.state = .active → ends (.los h .signal) .down 0x07 ∧ ends (.los h .unlock) .down 0x07 ∧
      ∀ bs, (k.rx.take false bs).excess = true → ends (.los h (.bits bs)) .down 0x07) ∧
    (k.state = .active → s.chip.fld (Reg.LNK_CFG h) 19 16 ≤ k.quiet → ends (.ulTimeout h) .down 0x08) ∧
    (∀ (seq tidx : BitVec 8) (ex ey : BitVec 24), k.state = .active → k.dup 1 seq.toNat = false →
      ends (.status h seq tidx ex ey 0x82) .down 0x09) ∧
    (k.state = .exit → ends (.exitFail h) .down 0x0C)

/-- Injected errors wait for their packet or flip one bit of a running PRBS; an eye scan runs until its count is shown; a
PRBS generator sends its pattern, and the checker shows its lock and counts errors while it holds (R253 to R255). Of the code
groups of an uplink packet, those that no packet makes are discarded and counted, one that EDB ends has only its credits
granted again, and those of a good STATUS are that STATUS (R239, R242, R251). -/
def Obligations.LanesAreTested : Prop :=
  ∀ (s : State) (q : Requester) (l : Fin 76) (v : Word), s.settled = true →
    let inj (w : Word) : Word := ((s.chip.rd (Reg.LNK_INJECT l) &&& ~~~0x1F06) ||| (w &&& 0x1F06)) ||| (w &&& 1)
    (s.chip.writable q (Reg.LNK_INJECT l) (v ||| 1) = true → v.getLsbD 3 = false →
      SetsOnly (.injCrc q l v) s q (Reg.LNK_INJECT l) (inj (v ||| 1))) ∧
    (s.chip.writable q (Reg.LNK_INJECT l) (v ||| 8) = true → s.chip.fld (Reg.LNK_PRBS_CFG l) 2 0 ≠ 0 →
      s.chip.bit (Reg.LNK_PRBS_CFG l) 3 = true → s.chip.lane[l].quiescent = true → Runs (.injBit q l v) s fun t =>
        t.chip.rd (Reg.LNK_INJECT l) = inj (v ||| 8) ∧ t.chip.lane = (s.chip.onLane l fun k => { k with
          prbs := { k.prbs with flips := k.prbs.flips + 1 } }).lane ∧
        (∀ a, a ≠ Reg.LNK_INJECT l → t.chip.rd a = s.chip.rd a) ∧ s.sameMem t) ∧
    (s.chip.writable q (Reg.LNK_EYE_CFG l) (v ||| 0x40000000) = true → Runs (.eyeScanStart q l v) s fun t =>
      t.chip.rd (Reg.LNK_EYE_CFG l) = ((s.chip.rd (Reg.LNK_EYE_CFG l) &&& ~~~0x1F7F7F) ||| (v &&& 0x1F7F7F)) &&& ~~~0x80000000 ∧
      t.chip.lane = (s.chip.onLane l fun k => { k with eye := true }).lane ∧
      (∀ a, a ≠ Reg.LNK_EYE_CFG l → t.chip.rd a = s.chip.rd a) ∧ s.sameMem t) ∧
    (∀ n, s.chip.lane[l].eye = true → Runs (.eyeScanDone l n) s fun t =>
      t.chip.rd (Reg.LNK_EYE_ERR l) = n ∧ t.chip.bit (Reg.LNK_EYE_CFG l) 31 = true ∧
      t.chip.lane = (s.chip.onLane l fun k => { k with eye := false }).lane ∧
      (∀ a, a ≠ Reg.LNK_EYE_CFG l → a ≠ Reg.LNK_EYE_ERR l → t.chip.rd a = s.chip.rd a) ∧ s.sameMem t) ∧
    (∀ bs, s.chip.lane[l].quiescent = true → s.chip.fld (Reg.LNK_PRBS_CFG l) 2 0 ≠ 0 → ∀ i ∈ [Instr.prbsLock l bs, .prbsLockLoss l bs],
      let mode := s.chip.fld (Reg.LNK_PRBS_CFG l) 2 0
      let x := s.chip.lane[l].prbs
      (s.chip.bit (Reg.LNK_PRBS_CFG l) 4 = true →
        let r := bs.foldl (Prbs.check mode) (s.chip.bit (Reg.LNK_PRBS_CFG l) 8, { x with errs := 0 })
        Runs i s fun t => t.chip.rdn (Reg.LNK_PRBS_ERR l) = min (s.chip.rdn (Reg.LNK_PRBS_ERR l) + r.2.errs) (2 ^ 32 - 1) ∧
          t.chip.bit (Reg.LNK_PRBS_CFG l) 8 = r.1 ∧ (∀ y, y ≠ l → t.chip.lane[y] = s.chip.lane[y]) ∧
          (∀ a, a ≠ Reg.LNK_PRBS_CFG l → a ≠ Reg.LNK_PRBS_ERR l → t.chip.rd a = s.chip.rd a) ∧ s.sameMem t) ∧
      (s.chip.bit (Reg.LNK_PRBS_CFG l) 3 = true → s.chip.fld (Reg.LNK_INJECT l) 12 8 = 0 → x.flips = 0 →
        Runs i s fun t => t.chip.lane[l].sent = [.raw (bs.foldl (fun (y : List Bool × Nat) _ =>
          (y.1 ++ [prbsNext mode y.2], prbsPush mode y.2 (prbsNext mode y.2))) ([], x.gen)).1])) ∧
    ∀ (h : Fin 64) (rd : Bool) (gs : List (BitVec 10)), l = headLane h → s.chip.headOn h = true → s.chip.lane[l].state.hears = true →
      let ss := decodeAll rd (gs.map (·.toNat))
      let spent := (gs.length + 15) / 16
      (∀ x ∈ ss, x.isSome = true) →
      (packetBody (ss.filterMap id) = none →
        Logs (.ulCrc h rd gs) s (((s.chip.bump (Reg.LNK_UL_CRC_CNT h)).sticky (Reg.LNK_FLAGS h) 0x2).regrant h spent)) ∧
      (∀ bs, packetBody (ss.filterMap id) = some (bs, true) → Does (.ulCrc h rd gs) s (s.chip.onLane l fun k =>
        ({ k with grant := (k.grant + spent) % 256 } : Lane).sends h (.fc k.ack ((k.grant + spent) % 256)))) ∧
      ∀ bs, packetBody (ss.filterMap id) = some (bs, false) → bs.length = 14 → leAt bs 12 2 = crc16 (bs.take 12) →
        leAt bs 0 1 % 16 = 3 → exec (.ulCrc h rd gs) s = exec (.status h (BitVec.ofNat 8 (leAt bs 1 1)) (BitVec.ofNat 8 (leAt bs 2 1))
          (BitVec.ofNat 24 (leAt bs 3 3)) (BitVec.ofNat 24 (leAt bs 6 3)) (BitVec.ofNat 8 (leAt bs 9 1))) s

/-! ### Machine axes (R259 to R278) -/

/-- A write of HVI_AX_CTRL waits for the next boundary, where the axis takes it in a state that lists it and discards it
in any other: ENABLE measures the windings of a DISABLED axis with power and a valid configuration, DISABLE turns an axis
at rest off, STOP and QUICK_STOP slow a motion, HOME searches, CLR_FAULT clears, SET_POS and ACCEPT_POS fix the frame
(R261, R270, R272, R275). -/
def Obligations.AxisCommandsWaitForTheBoundary : Prop :=
  ∀ (s : State) (q : Requester) (a : Fin 8), s.settled = true →
    let waits (i : Instr) (n : Nat) : Prop := s.chip.writable q (Reg.HVI_AX_CTRL a) (BitVec.ofNat 32 n) = true →
      Does i s ((s.chip.seenBy q).onAxis a fun x => { x with cmd := n, cmdRing := none })
    waits (.axEnable q a) 1 ∧ waits (.axDisable q a) 2 ∧ waits (.axStop q a) 3 ∧ waits (.quickStop q a) 4 ∧
    waits (.axHome q a) 5 ∧ waits (.clrFault q a) 6 ∧ waits (.setPos q a) 7 ∧ waits (.acceptPos q a) 8 ∧
    ∀ c : Chip, let x := c.axis[a]
      (x.state = .disabled → c.island.powered = true → c.axValid a = true →
        c.axCommand a 1 = some (c.onAxis a fun x => { x with
          state := .measure, bridge := 1, wind := some ⟨0, false, .drive 0, 0, 0⟩
          duty := ((c.fld (Reg.HVI_AX_SENSE a) 31 16 : Nat), 0) })) ∧
      (x.state.enabled = true → x.doing = .rest → ∃ d, c.axCommand a 2 = some d ∧ d.axis[a].state = .disabled ∧
        d.axis[a].bridge = 0 ∧ d.axis[a].queue = []) ∧
      ((x.state = .moving ∨ x.state = .homing) → x.doing ≠ .rest → x.doing ≠ .eStop →
        (∃ d, c.axCommand a 3 = some d ∧ d.axis[a].doing = .decStop ∧ d.axis[a].queue = []) ∧
        ∃ d, c.axCommand a 4 = some d ∧ d.axis[a].doing = .eStop ∧ d.axis[a].queue = []) ∧
      (x.state = .ready → c.limitActive a (if c.bit (Reg.HVI_AX_HOME_CFG a) 6 then 1 else -1) = false →
        ∃ d, c.axCommand a 5 = some d ∧ d.axis[a].state = .homing ∧ d.axis[a].doing = .search ∧ d.axis[a].homeFrom = x.s) ∧
      (x.state = .fault → ∃ d, c.axCommand a 6 = some d ∧ d.axis[a].state = .disabled ∧ d.axis[a].bridge = 0) ∧
      ((x.state = .ready ∨ x.state = .still) →
        (∃ d, c.axCommand a 7 = some d ∧ asr d.axis[a].s 32 = c.rdInt (Reg.HVI_AX_HOME_OFS a) ∧ d.axis[a].homed = true) ∧
        c.axCommand a 8 = some (c.onAxis a fun x => { x with homed := true })) ∧
      (x.state = .disabled → ∀ n, 1 < n → c.axCommand a n = none)

/-- The transitions of an axis that a measurement, a count or an edge brings: a winding pulse ends at TEST_MA or faults the axis
after its time, and windings found good start the ramp; the ramp ends READY; rest for STILL_MS goes STILL; a limit stops it as an emergency; a homing
edge latches the position at its instant; the debounce window's end accepts or drops it; a range exceeded ends the search
(R261, R262, R271, R273 to R275). -/
def Obligations.AxesTakeDueTransitions : Prop :=
  ∀ (s : State) (a : Fin 8), s.settled = true →
    let x := s.chip.axis[a]
    (∀ w code, x.wind = some w →
      let test := s.chip.fld (Reg.HVI_AX_WIND_CFG a) 15 0
      let above (share : Nat) : Prop := share * s.chip.maMag a test ≤ 20 * codeMag code
      (∀ n, w.stage = .drive n →
        (above 20 → Does (.windingMeasurement a [code]) s (s.chip.windGo a { w with stage := .decay 1, t1 := w.t1 + n })) ∧
        (¬ above 20 → n * s.chip.N * 5 < 160000000 → Does (.windingMeasurement a [code]) s
          (s.chip.windGo a { w with stage := .drive (n + 1) })) ∧
        (¬ above 20 → 160000000 ≤ n * s.chip.N * 5 → Runs (.windingMeasurement a [code]) s fun t =>
          t.chip.axis[a].state = .fault ∧ t.chip.axis[a].bridge = 0 ∧ t.chip.fld (Reg.HVI_AX_FAULT a) 7 0 = 3 ∧
          t.chip.bit (Reg.HVI_AX_FLAGS a) 13 = true ∧ ∀ b, b ≠ a → t.chip.axis[b] = s.chip.axis[b])) ∧
      (w.stage = .wait → w.neg = false → ¬ above 1 → Does (.windingMeasurement a [code]) s
        (s.chip.windGo a { w with neg := true, stage := .drive 1 })) ∧
      (w.stage = .wait → w.neg = true → w.phase = 1 → ¬ above 1 →
        let r := windPhase s.chip.N (s.chip.fld Reg.HVI_ISL_STATUS 15 0 * 10) (s.chip.fld (Reg.HVI_AX_SENSE a) 31 16) test w.t1 w.t2
        let ok (r l : Nat) : Prop := 50 * s.chip.fld (Reg.HVI_AX_WIND_LIM a) 7 0 ≤ r ∧
          r ≤ 50 * s.chip.fld (Reg.HVI_AX_WIND_LIM a) 15 8 ∧ 100 * s.chip.fld (Reg.HVI_AX_WIND_LIM a) 23 16 ≤ l ∧
          l ≤ 100 * s.chip.fld (Reg.HVI_AX_WIND_LIM a) 31 24
        ok (s.chip.fld (Reg.HVI_AX_WIND_A a) 15 0) (s.chip.fld (Reg.HVI_AX_WIND_A a) 31 16) → ok (min r.1 0xFFFF) (min r.2 0xFFFF) →
        Runs (.windingMeasurement a [code]) s fun t =>
          t.chip.axis = (s.chip.onAxis a fun x => { x with
            state := .ramp, rampTick := 0, rampTo := .ready, bridge := 1, duty := (0, 0), wind := none }).axis ∧
          t.chip.rdn (Reg.HVI_AX_WIND_B a) = min r.1 0xFFFF + 2 ^ 16 * min r.2 0xFFFF ∧
          (∀ p : Fin 2, t.chip.mpc.loops[phaseLoop a p].cmd = 2) ∧ s.sameMem t)) ∧
    (x.state = .ramp → s.chip.actFld (Reg.HVI_AX_STILL a) 15 4 ≤ x.rampTick → x.rampTo ≠ .homing →
      Does (.rampComplete a) s (s.chip.onAxis a fun x => { x with state := .ready, restTicks := 0 })) ∧
    (x.state = .ready → x.queue = [] → s.chip.actFld (Reg.HVI_AX_STILL a) 31 16 * 4000000 ≤ x.restTicks * s.chip.N * 5 →
      Runs (.still a) s fun t => t.chip.axis[a].state = .still ∧ t.chip.axis[a].s = x.s ∧
        t.chip.axis[a].bridge = (if s.chip.actFld (Reg.HVI_AX_STILL a) 0 0 = 1 then 2 else 0) ∧
        (∀ p : Fin 2, t.chip.mpc.loops[phaseLoop a p].state = LoopState.open) ∧
        (∀ b, b ≠ a → t.chip.axis[b] = s.chip.axis[b]) ∧ t.chip.regs = s.chip.regs ∧ s.sameMem t) ∧
    (x.limitDue = true → x.doing ≠ .rest →
      Does (.limit a) s (s.chip.onAxis a fun x => { x with
        queue := [], latchDue := none, doing := .eStop, limitDue := false, latch := none
        after := match x.after with
          | .fault k => .fault k
          | _ => .fault (if x.state = .homing then 7 else 6) })) ∧
    (∀ u, x.latchDue = some (s.chip.ttu.index, u) →
      let k := s.chip.axNow a
      let m : Int := 2 * (s.chip.N : Int) * s.chip.N
      let pl := (k.s * m + 2 * s.chip.N * k.v * u + k.a * u * u).fdiv (m * 2 ^ 32)
      Does (.homeLatch a) s ((s.chip.onAxis a fun x => { x with
        latchDue := none
        latch := some ⟨pl, s.chip.ttu.index * s.chip.N + u,
          s.chip.ttu.index * s.chip.N + u + s.chip.fld (Reg.HVI_AX_DEB a) 7 0 * s.chip.N, 0, true⟩ }).wr
        (Reg.HVI_AX_LATCH a) (BitVec.ofInt 32 pl))) ∧
    (∀ k, x.searching = true → x.latch = some k → k.count ≤ s.chip.fld (Reg.HVI_AX_DEB a) 11 8 →
      k.till ≤ (s.chip.ttu.index + 1) * s.chip.N - 1 →
      (k.active = true → Does (.debounceEnd a) s (s.chip.onAxis a fun x => { x with
        doing := .decStop, after := .homed k.pl, latchDue := none, latch := none })) ∧
      (k.active = false → Does (.debounceEnd a) s ((s.chip.onAxis a fun x => { x with latch := none }).sticky
        (Reg.HVI_AX_FLAGS a) 0x40))) ∧
    (x.searching = true → s.chip.rdn (Reg.HVI_AX_HOME_RANGE a) * 2 ^ 32 ≤ (x.s - x.homeFrom).natAbs →
      Does (.homeRangeExceeded a) s (s.chip.onAxis a fun x => { x with
        doing := .decStop, after := .homeFail, latchDue := none, latch := none }))

/-- Faults and power (R260, R263, R265, R272): a current above OC_MA, in any state, a lost phase loop or an overvoltage faults an
axis with its bridge off and its cause counted; an undervoltage turns every bridge off and leaves enabled axes UNPOWERED, and
power back ramps them again; four samples above MOVE_DET_MA in a row are a motion, and the axis no longer homed. PUSH stages a move with its three shadows (R266), and TAB_DATA writes a
microstep entry and advances the address (R278). -/
def Obligations.AxesFaultAndLosePower : Prop :=
  ∀ (s : State) (q : Requester) (a : Fin 8) (v : Word), s.settled = true →
    let faulted (t : State) (b : Fin 8) (cause : Nat) : Prop := t.chip.axis[b].state = .fault ∧ t.chip.axis[b].bridge = 0 ∧
      t.chip.axis[b].doing = .rest ∧ t.chip.axis[b].queue = [] ∧ t.chip.fld (Reg.HVI_AX_FAULT b) 7 0 = cause ∧
      t.chip.fld (Reg.HVI_AX_FAULT b) 23 8 = min (s.chip.fld (Reg.HVI_AX_FAULT b) 23 8 + 1) 0xFFFF ∧
      t.chip.bit (Reg.HVI_AX_FLAGS b) 14 = true
    let others (t : State) : Prop := ∀ b, b ≠ a → t.chip.axis[b] = s.chip.axis[b]
    let off (x : Axis) : Axis := { x with bridge := 0, duty := (0, 0), refs := (0, 0), amp := 0, wind := none }
    (∀ ma, s.chip.fld (Reg.HVI_AX_PROT a) 15 0 < ma →
      (s.chip.axis[a].state ≠ .fault → Runs (.overcurrent ⟨a, ma⟩) s fun t => faulted t a 1 ∧ others t) ∧
      (s.chip.axis[a].state = .fault → Runs (.overcurrent ⟨a, ma⟩) s fun t => t.chip.axis[a] = off s.chip.axis[a] ∧ others t ∧
        t.chip.fld (Reg.HVI_AX_FAULT a) 7 0 = 1)) ∧
    (∀ ma, ma ≤ s.chip.fld (Reg.HVI_AX_PROT a) 15 0 → Does (.overcurrent ⟨a, ma⟩) s s.chip) ∧
    (∀ p : Fin 2, s.chip.axis[a].state.enabled = true → s.chip.mpc.loops[phaseLoop a p].state = .fbOpen →
      s.chip.mpc.loops[phaseLoop a p].good < s.chip.recover (phaseLoop a p) →
      s.chip.lostL (phaseLoop a p) ≤ s.chip.mpc.loops[phaseLoop a p].count →
      Runs (.axisFbFault a p) s fun t => faulted t a 5 ∧ others t) ∧
    (∀ mv, s.chip.fld Reg.HVI_ISL_CFG 31 16 < mv → Runs (.vbusOv mv) s fun t => t.chip.bit Reg.HVI_ISL_FLAGS 1 = true ∧
      ∀ b : Fin 8, if s.chip.axis[b].state.enabled then faulted t b 2 else t.chip.axis[b] = off s.chip.axis[b]) ∧
    (∀ mv, mv < s.chip.fld Reg.HVI_ISL_CFG 15 0 → s.chip.island.powered = true → Runs (.vbusUv mv) s fun t =>
      t.chip.island.powered = false ∧ t.chip.bit Reg.HVI_ISL_FLAGS 0 = true ∧ s.sameMem t ∧
      ∀ b : Fin 8, if s.chip.axis[b].state.enabled = true ∧ s.chip.axis[b].state ≠ .unpowered then
          t.chip.axis[b].state = .unpowered ∧ t.chip.axis[b].bridge = 0 ∧ t.chip.axis[b].queue = [] ∧
          t.chip.axis[b].staged = [] ∧ t.chip.bit (Reg.HVI_AX_FLAGS b) 10 = true
        else t.chip.axis[b] = off s.chip.axis[b]) ∧
    (∀ mv, s.chip.fld Reg.HVI_ISL_CFG 15 0 + 100 ≤ mv → s.chip.island.powered = false → Runs (.islandPowered mv) s fun t =>
      t.chip.island.powered = true ∧ s.sameMem t ∧ ∀ b : Fin 8, if s.chip.axis[b].state = .unpowered then
          t.chip.axis[b].state = .ramp ∧ t.chip.axis[b].rampTo = .ready
        else t.chip.axis[b] = s.chip.axis[b]) ∧
    (∀ (p : Fin 2) (codes : List Int),
      let count (n : Nat) (x : Axis) : Axis := { x with moved := if p = 0 then (n, x.moved.2) else (x.moved.1, n) }
      let above (k : Int) : Prop := s.chip.maMag a (s.chip.fld (Reg.HVI_AX_PROT a) 31 16) < codeMag k
      ((s.chip.axis[a].state = .still ∨ s.chip.axis[a].state = .unpowered) → codes.length = 4 → (∀ k ∈ codes, above k) →
        (if p = 0 then s.chip.axis[a].moved.1 else s.chip.axis[a].moved.2) = 0 → Logs (.movedUnpowered ⟨a, p, codes⟩) s
          ((s.chip.onAxis a fun x => { count 4 x with homed := false }).sticky (Reg.HVI_AX_FLAGS a) 0x100)) ∧
      ∀ k, ¬ above k → Does (.movedUnpowered ⟨a, p, [k]⟩) s (s.chip.onAxis a (count 0))) ∧
    (s.chip.writable q (Reg.HVI_MV_PUSH a) 1 = true → s.chip.movesRefused = false → s.chip.axis[a].staged.length < 8 →
      Does (.axPush q a) s ((s.chip.seenBy q).onAxis a fun x => { x with
        staged := x.staged ++ [⟨s.chip.rdInt (Reg.HVI_MV_TARGET a), s.chip.rdn (Reg.HVI_MV_SPEED a),
          s.chip.bit (Reg.HVI_MV_FLAGS a) 0, s.chip.bit (Reg.HVI_MV_FLAGS a) 1, none⟩] })) ∧
    (s.chip.writable q Reg.HVI_TAB_DATA v = true →
      let k := s.chip.fld Reg.HVI_TAB_ADDR 9 0
      Runs (.tabData q v) s fun t => t.chip.microstep k = signOf 16 (v.toNat % 2 ^ 16) ∧
        (∀ j, j < 1024 → j ≠ k → t.chip.microstep j = s.chip.microstep j) ∧
        t.chip.rdn Reg.HVI_TAB_ADDR = (k + 1) % 1024 ∧ (∀ b, b ≠ Reg.HVI_TAB_ADDR → t.chip.rd b = s.chip.rd b) ∧ s.sameMem t)

/-! ### Field ports (R279 to R292) -/

/-- ENABLE takes a port with a valid configuration from OFF to DIAG and refuses one without; clearing it turns the port
OFF; DIAG measures again from RUN; REARM leaves TRIPPED no sooner than 100 ms after the trip, and is else rejected. A loop
measurement shows its result and enters RUN, VALID unless OPEN or SHORT applies; the governor's samples trip the port where four
in a row exceed I_TRIP or U_TRIP, or a window E_LIM, and the trip is counted (R283, R284, R290). -/
def Obligations.PortsFollowTheirStates : Prop :=
  ∀ (s : State) (q : Requester) (p : Fin 24) (v : Word), s.settled = true →
    let x := s.chip.port[p]
    let others (t : State) : Prop := ∀ b, b ≠ p → t.chip.port[b] = s.chip.port[b]
    (s.chip.writable q (Reg.EFP_CTRL p) (v ||| 1) = true → x.state = .off →
      (s.chip.portValid p = true → Does (.efpEnable q p v) s ((((s.chip.seenBy q).wr (Reg.EFP_CTRL p) 1).setFld
        (Reg.EFP_DIAG p) 31 30 0).onPort p fun x => { x with state := .diag, valid := false, diagAt := s.chip.ttu.up })) ∧
      (s.chip.portValid p = false → Does (.efpEnable q p v) s (((s.chip.seenBy q).wr (Reg.EFP_CTRL p) 0).sticky
        (Reg.EFP_FLAGS p) 0x20))) ∧
    (s.chip.writable q (Reg.EFP_CTRL p) (v &&& 0xFFFFFFFE) = true → x.state ≠ .off → Runs (.efpDisable q p v) s fun t =>
      t.chip.port[p] = { x with state := .off, valid := false, stale := false, lost := true } ∧ others t ∧
      t.chip.rd (Reg.EFP_CTRL p) = 0 ∧ t.chip.rd (Reg.EFP_VALUE p) = 0 ∧
      (∀ a, a ≠ Reg.EFP_CTRL p → a ≠ Reg.EFP_VALUE p → blockOf a ≠ 13 → t.chip.rd a = s.chip.rd a) ∧ s.sameMem t) ∧
    (s.chip.writable q (Reg.EFP_CTRL p) (v ||| 2) = true → v.getLsbD 0 = true → x.state = .run →
      Does (.diag q p v) s ((s.chip.seenBy q).onPort p fun x => { x with
        state := .diag, valid := false, diagAt := s.chip.ttu.up })) ∧
    (s.chip.writable q (Reg.EFP_CTRL p) (v ||| 4) = true → v.getLsbD 0 = true → x.state = .tripped →
      (x.tripAt + 100 * edgesPerMs ≤ s.chip.ttu.up →
        Does (.rearm q p v) s ((s.chip.seenBy q).onPort p fun x => { x with
          state := .diag, valid := false, diagAt := s.chip.ttu.up })) ∧
      (s.chip.ttu.up < x.tripAt + 100 * edgesPerMs →
        Logs (.rearm q p v) s ((s.chip.seenBy q).sticky (Reg.EFP_FLAGS p) 0x40))) ∧
    (∀ (r cur : Nat) (near : Bool), x.state = .diag → Runs (.diagComplete p r cur near) s fun t =>
      let closed := contactClosed near r 10000
      let m := s.chip.fld (Reg.EFP_CFG p) 2 0
      let k := diagResult m r cur
      let bad := (k = 2 ∧ m ≠ 1) ∨ k = 3
      t.chip.rdn (Reg.EFP_DIAG p) = min r (2 ^ 24 - 1) + 2 ^ 30 * k ∧ t.chip.port[p].state = .run ∧
      t.chip.port[p].valid = decide ¬bad ∧ t.chip.port[p].lost = false ∧ others t ∧
      (m = 1 → t.chip.rdn (Reg.EFP_VALUE p) = b2n closed ∧ t.chip.port[p].raw = closed) ∧
      (bad → t.chip.bit (Reg.EFP_FLAGS p) (if k = 2 then 3 else 4) = true)) ∧
    ∀ ua mv : List Nat,
      let k := s.chip.govTrips p (ua.zip mv)
      (k = 0 → s.chip.asy = none → Does (.governorTrip p ua mv) s s.chip) ∧
      ((x.state = .diag ∨ x.state = .run) → k ≠ 0 → Runs (.governorTrip p ua mv) s fun t =>
        t.chip.port[p] = { x with state := .tripped, valid := false, tripAt := s.chip.ttu.up, lost := true } ∧ others t ∧
        t.chip.rdn (Reg.EFP_TRIP_CNT p) = min (s.chip.rdn (Reg.EFP_TRIP_CNT p) + 1) (2 ^ 32 - 1) ∧
        t.chip.rd (Reg.EFP_FLAGS p) = s.chip.rd (Reg.EFP_FLAGS p) ||| BitVec.ofNat 32 k) ∧
      (ua.length = 4 → mv.length = 4 → x.diagAt + 120 ≤ s.chip.ttu.up →
        ((∀ i ∈ ua, s.chip.fld (Reg.EFP_GOV_CFG p) 7 0 * 100 < i) ↔ k % 2 = 1) ∧
        ((∀ u ∈ mv, s.chip.fld (Reg.EFP_GOV_CFG p) 15 8 * 100 < u) ↔ k / 2 % 2 = 1))

/-- A current inside its range becomes EFP_VALUE, and one below 3.6 mA is OPEN; a contact that crosses its
threshold is counted and, while the port is valid, shown; the duty last written takes effect at the start of an output period (R279, R281, R282). -/
def Obligations.PortsConvertAndSwitch : Prop :=
  ∀ (s : State) (p : Fin 24), s.settled = true → s.chip.port[p].state = .run →
    let x := s.chip.port[p]
    let mode := s.chip.fld (Reg.EFP_CFG p) 2 0
    (∀ (raw : Int) (open_ : Bool) (cj : Option Int), x.valid = true → x.stale = false → mode = 2 →
      (3600 ≤ raw → raw ≤ 21000 → (∀ m : Fin 128, s.chip.feeds m 2 p = false) →
        Does (.conversion p raw open_ cj) s (s.chip.wr (Reg.EFP_VALUE p) (BitVec.ofInt 32 raw))) ∧
      (raw < 3600 → Logs (.conversion p raw open_ cj) s ((s.chip.onPort p fun x => { x with valid := false }).sticky
        (Reg.EFP_FLAGS p) 0x8))) ∧
    (∀ mv ua : Nat, mode = 1 →
      let closed := contactClosed x.raw mv ua
      (x.raw = closed → Does (.dryTransition p mv ua) s s.chip) ∧
      (x.raw ≠ closed → Runs (.dryTransition p mv ua) s fun t =>
      t.chip.port[p] = { x with raw := closed } ∧ (∀ b, b ≠ p → t.chip.port[b] = s.chip.port[b]) ∧
      t.chip.rdn (Reg.EFP_EDGE_CNT p) = min (s.chip.rdn (Reg.EFP_EDGE_CNT p) + 1) (2 ^ 32 - 1) ∧
      (x.valid = true → x.stale = false → t.chip.rdn (Reg.EFP_VALUE p) = b2n closed) ∧ s.sameMem t)) ∧
    (mode = 5 → Does (.outPeriodStart p) s (s.chip.onPort p fun x => { x with
      duty := if s.chip.bit (Reg.EFP_OUT p) 16 then x.dutyL1 else s.chip.fld (Reg.EFP_OUT p) 15 0 }))

/-! ### Memory (R93, R295 to R314, R320, R381) -/

/-- The outer code corrects any one symbol of a beat: the decoder finds its position and gives back the codeword of the
data (R299, R300). -/
def Obligations.OneSymbolErrorsAreCorrected : Prop :=
  ∀ (d : List Nat) (p x : Nat), d.length = 8 → (∀ b ∈ d, b < 256) → p < 10 → 0 < x → x < 256 →
    let word := d ++ [(checkSymbols d).1, (checkSymbols d).2]
    decodeBeat none word = (.ok, word) ∧ decodeBeat none (fixSymbol word p x) = (.ce p, word)

/-- BAR2 reaches device DRAM at BASE_GIB × 2^30 (R320). A write changes the bytes it names that no lease guards and no
other byte (R93); with no guard it does nothing else but note the loads it touches (R94). A read returns what memory
holds; one that reaches a byte outside its rights returns zeros (R298). Before DRAM training has ended both are refused
(R371). -/
def Obligations.BarTwoReachesMemory : Prop :=
  ∀ (s : State) (x : BitVec 32) (bs : List Byte) (n : Nat), s.settled = true →
    let a := s.chip.fld Reg.HST_BAR2_BASE 4 0 * 2 ^ 30 + x.toNat
    (s.chip.drc.initDone = false →
      (bs ≠ [] → Logs (.bar2Write x bs []) s s.chip.linkSeen) ∧
      (0 < n → Logs (.bar2Read x n []) s { s.chip.linkSeen with rbytes := List.replicate n 0, rbad := false })) ∧
    (s.chip.drc.initDone = true →
    (bs ≠ [] → (∀ k, k < bs.length → mayWrite reqBAR2 (a + k) = true) →
      ((∀ k, k < bs.length → s.chip.guardOf (a + k) = none) →
        Does (.bar2Write x bs []) s ((s.chip.linkSeen.noteLoading a bs.length).issue (.dram a bs))) ∧
      ((∀ r : Fin 256, s.chip.isEventRing r = false) → Runs (.bar2Write x bs []) s fun t =>
        t.mem.host = s.mem.host ∧ t.mem.nor = s.mem.nor ∧ ∀ y, Memory.read dramDefault t.mem.dram y =
          if a ≤ y ∧ y < a + bs.length ∧ s.chip.guardOf y = none then bs.getD (y - a) 0
          else Memory.read dramDefault s.mem.dram y)) ∧
    ((∃ k, k < bs.length ∧ mayWrite reqBAR2 (a + k) = false) → Logs (.bar2Write x bs []) s s.chip.linkSeen) ∧
    ((∀ k, k < n → mayRead reqBAR2 (a + k) = true) → Does (.bar2Read x n []) s { s.chip.linkSeen with
      rbytes := (List.range n).map fun k => Memory.read dramDefault s.mem.dram (a + k), rbad := false }) ∧
    ((∃ k, k < n ∧ mayRead reqBAR2 (a + k) = false) → Logs (.bar2Read x n []) s { s.chip.linkSeen with
      rbytes := List.replicate n 0, rbad := false }))

/-- Loads and stores of a running pair: a load returns memory, a store inside a window and outside every guard places its
bytes; a store outside the windows or on a guarded byte is an access fault and writes nothing; the NOR reads through its
window after boot, a user-mode load of a PMC register faults without PMC_USER_EN, and the service scratchpad of Crucible is
loaded and stored within its 10.5 MiB, where a load that meets an uncorrectable word faults (R93, R312, R313, R372, R381,
R426). -/
def Obligations.PairsLoadAndStore : Prop :=
  ∀ (s : State) (p : Fin 4) (a n : Nat) (bs : List Byte), s.settled = true → s.chip.svc.running.getLsbD p = true →
    let inside : Bool := !windowed a bs.length || s.chip.inWindow p a bs.length
    ((∀ k, k < n → mayRead (reqPair p) (a + k) = true) → Does (.serviceClusterAccess p (.load a n) []) s
      (s.chip.svcResult ((List.range n).map fun k => Memory.read dramDefault s.mem.dram (a + k)) false)) ∧
    (bs ≠ [] → inside = true → (∀ k, k < bs.length → mayWrite (reqPair p) (a + k) = true) →
      ((∀ k, k < bs.length → s.chip.guardOf (a + k) = none) → Does (.serviceClusterAccess p (.store a bs) []) s
        (((s.chip.noteLoading a bs.length).issue (.dram a bs)).svcResult [] false)) ∧
      ((∃ k, k < bs.length ∧ s.chip.guardOf (a + k) ≠ none) → Logs (.serviceClusterAccess p (.store a bs) []) s
        (s.chip.svcResult [] true))) ∧
    (inside = false → Does (.serviceClusterAccess p (.store a bs) []) s (s.chip.svcResult [] true)) ∧
    (s.chip.svc.boot = .fwRun → a + n ≤ 0x4000000 → Does (.serviceClusterAccess p (.norLoad a n) []) s
      (s.chip.svcResult ((List.range n).map fun k => Memory.read norDefault s.mem.nor (a + k)) false)) ∧
    (s.chip.bit Reg.PMC_USER_EN 0 = false → Does (.serviceClusterAccess p (.pmcLoad a true) []) s (s.chip.svcResult [] true)) ∧
    (Runs (.serviceClusterAccess p (.pmcLoad a false) []) s fun t =>
      t.chip.rdata = (s.chip.busRead s.env (.pair p) (0x140000 + a % 0x10000) 15).rdata ∧
      t.chip.rbytes = leBytes 4 t.chip.rdata.toNat ∧ t.chip.rbad = false) ∧
    (a + n ≤ 0xA80000 → Does (.serviceClusterAccess p (.spadLoad a n []) []) s
      (s.chip.svcResult ((List.range n).map fun k => Memory.read dramDefault s.mem.spad (a + k)) false)) ∧
    (0xA80000 < a + n → Does (.serviceClusterAccess p (.spadLoad a n []) []) s (s.chip.svcResult [] true)) ∧
    (∀ w, 0x2580000 ≤ 8 * w → w < 48 * 2 ^ 17 → Logs (.serviceClusterAccess p (.spadLoad a n [⟨w, .ue⟩]) []) s
      ((((s.chip.bump Reg.CRB_UE_CNT).wrn Reg.CRB_ERR_ADDR (8 * w + 2 ^ 26 * 7)).sticky Reg.CRB_FLAGS 2).svcResult [] true)) ∧
    (a + bs.length ≤ 0xA80000 → Does (.serviceClusterAccess p (.spadStore a bs) []) s
      ((s.chip.issue (.spad a bs)).svcResult [] false)) ∧
    (0xA80000 < a + bs.length → Does (.serviceClusterAccess p (.spadStore a bs) []) s (s.chip.svcResult [] true))

/-- Patrol scrub reads the next burst and goes round, counting passes, and writes a corrected burst back; refresh takes up the rate indication; an interval
check applies its drift or is deferred, and asks for a retraining past FULL_PS; a full retraining runs in a layer gap that
leaves room, one channel after the other; Crucible scrub goes round likewise and records what it finds (R305, R307 to R309,
R313, R314).
When the DQS check runs and how retraining is placed is the model's reading (log entries 67 and 100), and so is the place
of a history entry (log entry 27). -/
def Obligations.MemoriesAreLookedAfter : Prop :=
  ∀ (s : State) (k : Fin 2) (hot : Bool) (drift : Int) (counts : List Nat), s.settled = true →
    let d := s.chip.drc
    let x := d.chans[k]
    (∀ errs : List DramErr, s.chip.bit Reg.DRC_SCRUB_CFG 31 = true → d.initDone = true →
      let next (c : Chip) : Chip := c.onDrc fun d =>
        if d.scrubPos + 1 = 2 ^ 28 then { d with scrubPos := 0, scrubPasses := min (d.scrubPasses + 1) 0xFFFF }
        else { d with scrubPos := d.scrubPos + 1 }
      ((∀ y ∈ errs, y.beat / 16 ≠ d.scrubPos) → Does (.patrolScrub errs) s (next s.chip)) ∧
      (∀ ce bs, (∃ y ∈ errs, y.beat / 16 = d.scrubPos) →
        ({ s.chip with derr := errs } : Chip).decodeBurst s.env (128 * d.scrubPos) = (some (some ce), bs) →
        Logs (.patrolScrub errs) s (next (s.chip.issue (.dram (128 * d.scrubPos) bs))))) ∧
    (x.up = true →
      (let c := (s.chip.onChan k fun x => { x with hot := hot }).tally blkDRC 0x12 k 1
       Does (.refresh k hot) s (if hot then c.sticky Reg.DRC_FLAGS 0x100 else c)) ∧
      (let busy := s.chip.scn.layer.isSome
       let c := s.chip.onChan k fun x => { x with drift := satS 16 (x.drift + drift) }
       let ask (c : Chip) : Chip := c.onDrc fun d =>
         if d.training = some k.val ∨ d.trainLeft.contains k.val then d else { d with needed := true }
       let far : Prop := s.chip.fld Reg.DRC_TRAIN_CFG 15 8 < (satS 16 (x.drift + drift)).natAbs
       (busy = true → s.chip.fld Reg.DRC_TRAIN_CFG 7 0 < 110 →
         Does (.dqsCheck k drift) s (s.chip.sticky Reg.DRC_FLAGS 0x008)) ∧
       ((busy = false ∨ 110 ≤ s.chip.fld Reg.DRC_TRAIN_CFG 7 0) →
         (¬far → Does (.dqsCheck k drift) s c) ∧
         (far → Does (.dqsCheck k drift) s
           (if busy then (ask c).sticky Reg.DRC_FLAGS 0x010 else ask c))))) ∧
    (s.chip.layerGap = false → Does .fullRetraining s (s.chip.onDrc fun d => { d with heldOff := false })) ∧
    (d.needed = true → d.training = none → s.chip.layerGap = true →
      Does .fullRetraining s (s.chip.onDrc fun d =>
        if d.heldOff = true ∨ s.chip.startWithin 8000000 = true then { d with heldOff := true }
        else { d with training := some 0, trainLeft := [1], needed := false, heldOff := false })) ∧
    (d.training = some k.val → Logs (.fullRetrainingDone counts) s ((s.chip.onChan k fun x => { x with drift := 0 }).onDrc fun d =>
      match d.trainLeft with
      | j :: js => { d with training := some j, trainLeft := js }
      | [] => { d with training := none })) ∧
    (let next (c : Chip) : Chip := c.onDrc fun d =>
       if d.crbPos + 1 = 48 * 2 ^ 17 then { d with crbPos := 0, crbPasses := min (d.crbPasses + 1) 0xFFFF }
       else { d with crbPos := d.crbPos + 1 }
     let at_ := 8 * d.crbPos
     let info := at_ % 2 ^ 26 + 2 ^ 26 * (crbRegion at_).1
     let found (count flag : Nat) : Chip := ((s.chip.bump count).wrn Reg.CRB_ERR_ADDR info).sticky Reg.CRB_FLAGS flag
     Does (.crucibleScrub .ok) s (next s.chip) ∧
     Logs (.crucibleScrub .ce) s (next (found Reg.CRB_CE_CNT 1)) ∧
     ((crbRegion at_).1 ∈ [4, 5, 6, 7] → Logs (.crucibleScrub .ue) s (next (found Reg.CRB_UE_CNT 2))) ∧
     ((crbRegion at_).1 = 2 → Logs (.crucibleScrub .ue) s (next { found Reg.CRB_UE_CNT 2 with
       camShared := s.chip.camShared.loseEntry (at_ - 0x1480000) })) ∧
     (∀ p : Fin 16, (crbRegion at_).1 = 3 → (at_ - 0x1C80000) / 262144 = p.val →
       Logs (.crucibleScrub .ue) s (next ((found Reg.CRB_UE_CNT 2).onCam p fun k => { k with
         frame := k.frame.map fun f => { f with damaged := true }
         closed := k.closed.map fun f => { f with damaged := true } }))))

/-- A bank whose activations reach THRESH in a window throttles its top requester once, counted and recorded; the top is
the requester with the most activations, the lower ID on a tie, and never patrol scrub. The window's end lifts every
throttle (R310). -/
def Obligations.HammeredBanksAreThrottled : Prop :=
  ∀ (s : State) (k : Fin 2) (bank : Fin 32) (acts : List (Fin 32 × Nat)), s.settled = true →
    let total (q : Nat) : Nat := ((acts.filter fun y => y.1.val == q && q != reqScrub).map (·.2)).sum
    (∀ q, topRequester acts = some q → 0 < total q ∧ ∀ p, total p ≤ total q ∧ (p < q → total p < total q)) ∧
    (∀ q, s.chip.bit Reg.DRC_RH_CFG 31 = true → (s.chip.drc.chans[k]).up = true →
      s.chip.fld Reg.DRC_RH_CFG 15 0 ≤ ((acts.filter fun y => y.1.val != reqScrub).map (·.2)).sum →
      (∀ y ∈ (s.chip.drc.chans[k]).throttled, y.1 ≠ bank.val) → topRequester acts = some q →
      (∀ r : Fin 256, s.chip.isEventRing r = false) →
      Runs (.rhThrottle k bank acts) s fun t => s.sameMem t ∧
        t.chip.drc = (s.chip.onChan k fun x => { x with
          throttled := x.throttled ++ [(bank.val, q)]
          acts := (x.acts.filter fun y => y.1.1 != bank.val) ++ acts.map fun y => ((bank.val, y.1.val), y.2) }).drc ∧
        t.chip.rdn (Reg.DRC_CH_RH_CNT k) = min (s.chip.rdn (Reg.DRC_CH_RH_CNT k) + 1) (2 ^ 32 - 1) ∧
        t.chip.rdn (Reg.DRC_CH_RH_LAST k) = q + 2 ^ 8 * bank.val ∧ t.chip.bit Reg.DRC_FLAGS 5 = true) ∧
    Does (.rhWindowEnd k) s (s.chip.onChan k fun x => { x with acts := [], throttled := [] })

/-! ### Rings and descriptors (R317 to R344) -/

/-- ENABLE takes a ring whose configuration passes R323 from DISABLED to ENABLED with its indices at 0, and refuses any
other with the first condition failed. Clearing it ends what has not begun: the ring is DISABLED with nothing in progress
and DISABLING until then, and an entry not begun, a posted buffer that holds nothing yet among them, completes ABANDONED.
Doorbells set the index they name. A function reset
disables the host's rings, no other, returns BAR2_BASE to its reset value, and clears the MSI-X state and Bus Master Enable;
the other configuration accesses reset nothing (R317, R323 to R325, R344, R366).
When an enable is taken, how long DISABLING lasts and what of the configuration space is held is the model's reading (log
entries 23 and 103). -/
def Obligations.RingsRunAsTheHostAsks : Prop :=
  ∀ (s : State) (q : Requester) (r : Fin 256) (v : Word), s.settled = true →
    let g := s.chip.ring r
    let c := s.chip.seenBy q
    let x : BitVec 16 := v.extractLsb' 0 16
    let quiet : Prop := ∀ k : Fin 256, s.chip.isEventRing k = false
    let busy : Prop := g.cur.isSome = true ∨ g.chain.isSome = true ∨ (∃ y ∈ s.chip.hst.reads ++ s.chip.hst.readWait, y.ring = r.val) ∨ s.chip.frameOn r = true
    let rings : Prop := q = ownerReq (s.chip.ringOwner r) ∧ (s.chip.svc.boot = .fwRun ∨ q ≠ .host)
    (s.chip.writable q (Reg.HST_RING_CTRL r) 1 = true → g.state = .disabled →
      (s.chip.enableFails r = 0 →
        Does (.ringEnable q r) s (c.onRing r fun _ => { Ring.reset with
          state := .enabled, cursor := s.chip.evr.next, rejCause := g.rejCause })) ∧
      (s.chip.enableFails r ≠ 0 → quiet → Runs (.ringEnable q r) s fun t =>
        t.chip.ring r = { g with rejCause := s.chip.enableFails r } ∧ (∀ k, k ≠ r → t.chip.ring k = s.chip.ring k) ∧
        t.chip.bit (Reg.HST_RING_FLAGS r) 0 = true ∧ t.chip.bit Reg.HST_FLAGS 1 = true)) ∧
    (s.chip.writable q (Reg.HST_RING_CTRL r) 0 = true → g.on = true →
      (g.fetched = [] → g.wait = [] → Runs (.ringDisable q r) s fun t => s.sameMem t ∧ t.chip.regs = s.chip.regs ∧
        (∀ k, k ≠ r → t.chip.ring k = s.chip.ring k) ∧
        (busy → t.chip.ring r = { g with state := .disabling, bufs := [], held := [], owedLate := 0 }) ∧
        (¬busy → t.chip.ring r = { g with state := .disabled, bufs := [], held := [], owedLate := 0 })) ∧
      (∀ (idx : Nat) (irq : Bool), (∃ d : Desc, g.fetched = [d] ∧ g.wait = [] ∧ d.idx = idx ∧ d.irq = irq) ∨
          (∃ b : Buffer, g.fetched = [] ∧ g.bufs = [b] ∧ g.wait = [(b.idx, none)] ∧ b.idx = idx ∧ b.irq = irq) →
        irq = false → g.held = [] → g.cqUsed < s.chip.ringSize r → s.chip.ringLoc r = false →
        Runs (.ringDisable q r) s fun t => (t.chip.ring r).fetched = [] ∧ (t.chip.ring r).bufs = [] ∧ (t.chip.ring r).cqTail = g.cqTail + 1 ∧
          ∃ i0 i1, t.mem.host = Memory.writes dramDefault s.mem.host (s.chip.nextSlot r)
            (complBytes ⟨idx, 0x56, false, true, none, none⟩ (phaseOf g.cqTail.toNat (s.chip.ringLog2 r)) i0 i1))) ∧
    (rings → g.state = .enabled → v.toNat < 2 ^ 16 →
      (isStream (s.chip.ringType r) = false → (x - g.sqHead).toNat ≤ s.chip.ringSize r →
        Does (.sqTail q r v) s ((c.tally blkHST 0x11 r 1).onRing r fun g => { g with sqTail := x })) ∧
      ((x - g.cqHead).toNat ≤ g.cqUsed →
        (g.held = [] → Does (.cqHead q r v) s ((c.tally blkHST 0x11 r 1).onRing r fun g => { g with cqHead := x })) ∧
        (∀ k, g.held = [k] → k.irq = false → (g.cqTail - x).toNat < s.chip.ringSize r → quiet → Runs (.cqHead q r v) s fun t =>
          t.chip.ring r = { g with cqHead := x, held := [], cqTail := g.cqTail + 1, wbPend := true })) ∧
      ((x - g.recCons).toNat ≤ g.recUsed →
        s.chip.ringType r = 4 ∨ s.chip.ringType r = 5 ∧ s.chip.evr.oldest ≤ g.cursor ∧ (∀ y ∈ s.chip.evr.ram, y.num < g.cursor) →
        Does (.recCons q r v) s ((c.tally blkHST 0x11 r 1).onRing r fun g => { g with recCons := x }))) ∧
    (∀ x : ConfigAccess, x ≠ .msixControl true false → Runs (.functionLevelReset (.config x)) s fun t =>
      s.sameMem t ∧ t.chip.hst.rings = s.chip.hst.rings ∧ t.chip.regs = s.chip.regs ∧
      (x = .header 0 → t.chip.rdata.toNat / 2 ^ 16 = s.chip.partId % 2 ^ 16) ∧
      (x = .header 2 → t.chip.rdata.toNat / 2 ^ 8 = 0x118000) ∧
      (x = .aerStatus → t.chip.rdata = s.chip.hst.aer)) ∧
    (∀ on mask, Runs (.functionLevelReset (.config (.msixControl on mask))) s fun t =>
      t.chip.hst.msixOn = on ∧ t.chip.hst.msixMask = mask) ∧
    ∀ cause : FunctionReset, (quiet ∨ ∀ k : Fin 256, (s.chip.ring k).fetched = [] ∧ (s.chip.ring k).wait = []) →
      Runs (.functionLevelReset (.reset cause)) s fun t =>
      (∀ k : Fin 256, if s.chip.ringOwner k = 0 ∧ (s.chip.ring k).on = true then
          (t.chip.ring k).fetched = [] ∧ (t.chip.ring k).bufs = [] ∧
          ((t.chip.ring k).state = .disabled ∨ (t.chip.ring k).state = .disabling)
        else t.chip.ring k = s.chip.ring k) ∧
      t.chip.rd Reg.HST_BAR2_BASE = resetOf Reg.HST_BAR2_BASE ∧ t.chip.hst.msix = Hst.reset.msix ∧ t.chip.hst.pba = 0 ∧ t.chip.hst.bme = false ∧
      (cause ≠ .bmeClear → t.chip.hst.msixMask = false ∧ t.chip.hst.aer = 0 ∧ t.chip.hst.aborts = 0) ∧
      t.chip.hst.linkUp = (if cause = .flr ∨ cause = .bmeClear then s.chip.hst.linkUp else false)

/-- A batch of entries is read from the ring at SQ_HEAD and taken in order when its data arrives; a pending write-back
block shows the indices, the status and the tick; a vector's spacing ends, and a condition that waited is delivered or
kept pending while it is masked or MSI-X is not enabled; a NOP completes with the tick, in a chain with the steps done; a CHAIN reads its block's
first entry (R325 to R329, R333, R334, R337). -/
def Obligations.EntriesAreFetchedAndCompleted : Prop :=
  ∀ (s : State) (r : Fin 256) (d : Desc), s.settled = true →
    let g := s.chip.ring r
    let n := s.chip.batch r
    (s.chip.serves r → isStream (s.chip.ringType r) = false → 0 < n → s.chip.hst.reads.length < 256 →
      (∀ y ∈ s.chip.hst.reads, y.ring ≠ r.val) → Does (.descriptorFetch r []) s
        (({ s.chip with hst := { s.chip.hst with bme := true } }).hostRead r
          (s.chip.ringBase r + 32 * (g.sqHead.toNat % s.chip.ringSize r)) (32 * n) (.fetch g.sqHead.toNat n))) ∧
    (∀ (y : HostRead) (f k : Nat) (bs : List Byte), s.chip.serves r → g.fetched = [] → y ∈ s.chip.hst.reads →
      (∀ z ∈ s.chip.hst.reads, z.id = y.id → z = y) → y.ring = r.val → y.use = .fetch f k → bs.length = y.len →
      y.len = 32 * k → 0 < k → acceptsOp (s.chip.ringType r) (leAt bs 0 1) = true →
      Runs (.hostReadCompletion y.id (.data bs) []) s fun t => s.sameMem t ∧ t.chip.regs = s.chip.regs ∧
        Answers s t y.id ∧ t.chip.ring r = { g with
          fetched := (chunks 32 bs).zipIdx.map fun x => ⟨(g.sqHead.toNat + x.2) % 2 ^ 16, x.1⟩
          sqHead := g.sqHead + BitVec.ofNat 16 k, wbPend := true }) ∧
    (s.chip.ringWb r ≠ 0 → g.wbPend = true → g.on = true → s.chip.ringLoc r = false →
      let tail := if isStream (s.chip.ringType r) then g.recProd else g.cqTail
      Does (.writeBack r) s ((s.chip.issue (.host (s.chip.ringWb r) (leBytes 2 g.sqHead.toNat ++ leBytes 2 tail.toNat ++
        leBytes 4 (s.chip.ringStatus r) ++ leBytes 8 s.chip.ttu.index))).onRing r fun g => { g with wbPend := false })) ∧
    (∀ v : Fin 64,
      let bit : BitVec 64 := 1#64 <<< v.val
      let m := s.chip.hst.msix[v]
      let hst := { s.chip.hst with spacing := s.chip.hst.spacing &&& ~~~bit, waiting := s.chip.hst.waiting &&& ~~~bit }
      (s.chip.hst.waiting.getLsbD v = false → Does (.msixMessage v) s { s.chip with hst := hst }) ∧
      let masked : Bool := m.ctrl.getLsbD 0 || hst.msixMask || !hst.msixOn
      (s.chip.hst.waiting.getLsbD v = true → masked = true → Does (.msixMessage v) s
        { s.chip with hst := { hst with pba := hst.pba ||| bit } }) ∧
      (s.chip.hst.waiting.getLsbD v = true → masked = false → Does (.msixMessage v) s
        ({ s.chip.tally blkHST 0x13 0 1 with hst := { hst with
          spacing := if s.chip.fld Reg.HST_IRQ_CFG 7 0 = 0 then hst.spacing else hst.spacing ||| bit } }.issue
          (.host (m.addrLo.toNat + 2 ^ 32 * m.addrHi.toNat) (leBytes 4 m.data.toNat))))) ∧
    (s.chip.holds r d 0x00 → d.clean [] = true →
      Runs (.nop r) s fun t => Posts s t r d.idx 0 none (some s.chip.ttu.index) ∧ t.mem.dram = s.mem.dram ∧ t.mem.nor = s.mem.nor) ∧
    (s.chip.holds r d 0x00 → d.clean [] = false → Runs (.nop r) s fun t => Posts s t r d.idx 0x41 none none) ∧
    (s.chip.nextRing = some r → g.state = .enabled → g.chain = none → g.held = [] → g.wait = [] → g.cqUsed < s.chip.ringSize r → g.fetched = [d] → g.cur = none →
      d.irq = false → d.op = 0 → d.clean [] = true → s.chip.ringLoc r = true →
      (∀ k, k < 16 → mayWrite reqHST (s.chip.nextSlot r + k) = true ∧ s.chip.guardOf (s.chip.nextSlot r + k) = none) →
      Runs (.nop r) s fun t => t.mem.host = s.mem.host ∧ (t.chip.ring r).cqTail = g.cqTail + 1 ∧
        ∃ i0, t.mem.dram = Memory.writes dramDefault s.mem.dram (s.chip.nextSlot r)
          (complBytes ⟨d.idx, 0, false, true, none, some s.chip.ttu.index⟩ (phaseOf g.cqTail.toNat (s.chip.ringLog2 r)) i0
            s.chip.ttu.index)) ∧
    (∀ (k : Desc) (a steps : Nat), s.chip.nextRing = some r → g.state = .enabled → g.wait = [] → g.chain = some (k, ⟨a, 1, steps⟩) → g.chainHead = some d → g.cur = none →
      g.held = [] → g.fetched = [] → g.cqUsed < s.chip.ringSize r → s.chip.ringLoc r = false → k.irq = false → d.op = 0 →
      d.clean [] = true → Runs (.nop r) s fun t =>
        t.chip.ring r = { g with chain := none, chainHead := none, cqTail := g.cqTail + 1, wbPend := true } ∧
        ∃ i1, t.mem.host = Memory.writes dramDefault s.mem.host (s.chip.nextSlot r)
          (complBytes ⟨k.idx, 0, false, true, some (steps + 1), none⟩ (phaseOf g.cqTail.toNat (s.chip.ringLog2 r)) (steps + 1) i1)) ∧
    (s.chip.holds r d 0x01 →
      let a := leAt d.bytes 8 8
      let n := leAt d.bytes 16 2
      (d.clean [(8, 17)] = true → 0 < n → n ≤ 4096 → a % 32 = 0 → Runs (.chain r []) s fun t => s.sameMem t ∧
        t.chip.ring r = { g with fetched := [], chain := some (d, ⟨a, n, 0⟩), chainHead := none, cur := some ⟨d, .chainFetch⟩ } ∧
        Asks s t ⟨0, r, a, 32, .chainEntry⟩) ∧
      (n = 0 ∨ 4096 < n ∨ a % 32 ≠ 0 → Runs (.chain r []) s fun t => Posts s t r d.idx 0x41 none none))

/-- A COPY checks every destination byte before it writes any, reads its source 4 KiB at a time, and completes with the
bytes written; a guarded byte fails it whole, and a read that times out or returns no data ends it, as AER records. A REG_WRITE performs its writes as the
ring's owner, and completes with the mask of those discarded and the tick, or waits for its commit (R93, R319, R332, R336
to R339).
The INFO words of a failed copy (log entry 77), the unused slots of REG_WRITE (log entry 79) and the bits of AER (log entry
103) are the model's reading. -/
def Obligations.DescriptorsCopyAndWriteRegisters : Prop :=
  ∀ (s : State) (r : Fin 256) (d : Desc), s.settled = true →
    let len := leAt d.bytes 4 4
    let src := leAt d.bytes 8 8
    let dst := leAt d.bytes 16 8
    let free (a n : Nat) : Prop := ∀ k, k < n → mayWrite reqHST (a + k) = true ∧ s.chip.guardOf (a + k) = none
    (s.chip.holds r d 0x02 → d.clean [(4, 23)] = true → 0 < len → len ≤ 2 ^ 30 → dst + len ≤ 2 ^ 35 →
      (free dst len → Runs (.copy r []) s fun t => Begins s t r d (.copy src dst len 0) ∧ s.sameMem t ∧
        Asks s t ⟨0, r, src, min 4096 len, .copyStep (min 4096 len)⟩) ∧
      ((∀ k, k < len → mayWrite reqHST (dst + k) = true) → (∃ k, k < len ∧ s.chip.guardOf (dst + k) ≠ none) →
        Runs (.copy r []) s fun t => Posts s t r d.idx 0x46 (some 0) none ∧ t.mem.dram = s.mem.dram)) ∧
    (∀ (y : HostRead) (a b n w k : Nat) (bs : List Byte), s.chip.works r d (.copy a b n w) → y ∈ s.chip.hst.reads →
      (∀ z ∈ s.chip.hst.reads, z.id = y.id → z = y) → y.ring = r.val → y.use = .copyStep k →
      (bs.length = y.len → bs ≠ [] → n ≤ w + bs.length → free (b + w) bs.length →
        Runs (.hostReadCompletion y.id (.data bs) []) s fun t => Posts s t r d.idx 0 (some (w + bs.length)) none ∧
          t.mem.dram = Memory.writes dramDefault s.mem.dram (b + w) bs) ∧
      (Runs (.hostTmo y.id) s fun t => Answers s t y.id ∧ t.chip.hst.aer.getLsbD 14 = true ∧
        t.chip.ring r = { s.chip.ring r with cur := none, cqTail := (s.chip.ring r).cqTail + 1, wbPend := true } ∧
        t.chip.rdn (Reg.HST_RING_ERR_IDX r) = d.idx % 2 ^ 16 + 0x42 * 2 ^ 16 ∧ t.chip.rdn Reg.HST_ERR_RING = r.val ∧
        t.chip.bit Reg.HST_FLAGS 3 = true ∧ t.mem.dram = s.mem.dram) ∧
      (∀ res : HostResult, (∀ bs, res ≠ .data bs) → Runs (.hostReadCompletion y.id res []) s fun t => Answers s t y.id ∧
        t.chip.rdn (Reg.HST_RING_ERR_IDX r) = d.idx % 2 ^ 16 + 0x43 * 2 ^ 16 ∧ t.chip.bit Reg.HST_FLAGS 4 = true ∧
        (res = .poisoned → t.chip.hst.aer.getLsbD 12 = true) ∧ t.mem.dram = s.mem.dram)) ∧
    (s.chip.holds r d 0x20 → d.clean [(4, 5), (8, 31)] = true → leAt d.bytes 4 1 = 1 →
      let q := ownerReq (s.chip.ringOwner r)
      let commit := leAt d.bytes 5 1
      let off := leAt d.bytes 8 4
      let v : Word := BitVec.ofNat 32 (leAt d.bytes 12 4)
      (∀ row, plainReg off = true → rowOf off = some row → memberOf row.name = .single → plainBlock off = true →
        s.chip.writable q off v = true →
        (commit = 0 → Runs (.regWrite r []) s fun t => Posts s t r d.idx 0 (some 0) (some s.chip.ttu.index) ∧
          t.chip.rd off = row.written (s.chip.rd off) v ∧ t.mem.dram = s.mem.dram) ∧
        (0 < commit → commit ≤ 15 → Runs (.regWrite r []) s fun t => Begins s t r d (.regCommit 0) ∧
          t.chip.rd off = row.written (s.chip.rd off) v ∧ s.sameMem t ∧
          t.chip.rd Reg.TTU_COMMIT_REQ = s.chip.rd Reg.TTU_COMMIT_REQ ||| BitVec.ofNat 32 commit)) ∧
      (0x800000 ≤ off → commit = 0 → Runs (.regWrite r []) s fun t =>
        Posts s t r d.idx 0x50 (some 1) (some s.chip.ttu.index) ∧ t.mem.dram = s.mem.dram) ∧
      (15 < commit → Runs (.regWrite r []) s fun t => Posts s t r d.idx 0x41 none none ∧ t.mem.dram = s.mem.dram))

/-- A KLP_PASS, which has a turn once no other is in flight to its head, sends its PASS and waits, reads its bytes first where it has any, and
fails where the lane is not ACTIVE. The reply is written to RPL, cut to RPL_MAX, and its full length reported; NO_REPLY
ends the wait. AX_MOVE stages its move and asks for an HVI commit; AX_CMD places its command, both waiting for their
boundary (R336, R341, R342).
The handling of KLP_PASS beyond its rule is the model's reading (log entry 78). -/
def Obligations.DescriptorsReachHeadsAndAxes : Prop :=
  ∀ (s : State) (r : Fin 256) (d : Desc), s.settled = true →
    (∀ h : Fin 64, s.chip.holds r d 0x24 → d.clean [(4, 5), (8, 24)] = true → leAt d.bytes 4 1 = h→
      let len := leAt d.bytes 5 1
      let src := leAt d.bytes 8 8
      let rpl := leAt d.bytes 16 8
      let rplMax := leAt d.bytes 24 1
      (len = 0 → (s.chip.lane[headLane h]).state = .active → Does (.klpPass r []) s (((s.chip.takeTurn r).onRing r fun g => { g with
        fetched := [], cur := some ⟨d, .passReply h rpl rplMax⟩ }).queueMsg h 3 [])) ∧
      (len = 0 → (s.chip.lane[headLane h]).state ≠ .active → Runs (.klpPass r []) s fun t => Posts s t r d.idx 0x52 none none) ∧
      (0 < len → len ≤ 252 → Runs (.klpPass r []) s fun t => Begins s t r d (.passFetch h rpl rplMax) ∧ s.sameMem t ∧
        Asks s t ⟨0, r, src, len, .passData len⟩)) ∧
    (∀ (h : Fin 64) (rpl rplMax : Nat), s.chip.works r d (.passReply h rpl rplMax) →
      (∀ k : Fin 256, k ≠ r → ∀ x, (s.chip.ring k).cur = some x → ∀ a b, x.work ≠ .passReply h a b) →
      (∀ (seq : BitVec 8) (bs : List Byte), s.chip.headOn h = true → (s.chip.lane[headLane h]).state.hears = true →
        (s.chip.lane[headLane h]).dup 2 seq.toNat = false → Runs (.passReply h seq bs) s fun t =>
          Posts s t r d.idx (if rplMax < bs.length then 0x54 else 0) (some bs.length) none
            (Memory.writes dramDefault s.mem.host rpl (bs.take rplMax)) ∧ t.mem.dram = s.mem.dram) ∧
      (Runs (.noReply h) s fun t => Posts s t r d.idx 0x53 none none ∧ t.mem.dram = s.mem.dram)) ∧
    (∀ a : Fin 8, leAt d.bytes 4 1 = a →
      let f := leAt d.bytes 5 1
      (s.chip.holds r d 0x30 → d.clean [(4, 5), (8, 15)] = true → f ≤ 3 →
        (s.chip.movesRefused = false → s.chip.axis[a].staged.length < 8 → Runs (.axMove r) s fun t =>
          Begins s t r d (.axMove a false) ∧ s.sameMem t ∧ t.chip.axis = (s.chip.onAxis a fun x => { x with
            staged := x.staged ++ [⟨leSAt d.bytes 8 4, leAt d.bytes 12 4, bitOf f 0, bitOf f 1, some r.val⟩] }).axis ∧
          t.chip.rd Reg.TTU_COMMIT_REQ = s.chip.rd Reg.TTU_COMMIT_REQ ||| 8) ∧
        (s.chip.movesRefused = true ∨ 8 ≤ s.chip.axis[a].staged.length → Runs (.axMove r) s fun t => Begins s t r d (.axMove a true) ∧ s.sameMem t ∧
          t.chip.axis = s.chip.axis ∧ t.chip.bit (Reg.HVI_AX_FLAGS a) 2 = true)) ∧
      (s.chip.holds r d 0x31 → d.clean [(4, 5)] = true → 1 ≤ f → f ≤ 8 → Does (.axCmd r) s
        (((s.chip.takeTurn r).onRing r fun g => { g with fetched := [], cur := some ⟨d, .axCmd a⟩ }).onAxis a fun x =>
          { x with cmd := f, cmdRing := some r.val })))

/-! ### Ethernet and buffers (R343, R348 to R360) -/

/-- FRAME_BUF and NET_RX post a buffer of valid fields behind those that wait; a bad one fails, and its completion waits for
those of the entries before it (R331). NET_TX reads its frame and fails on a port that is down. A received frame of good FCS
that the MAC accepts fills the oldest buffer and completes with its length and, where it is timestamped, its time; a bad FCS,
too long a frame or no buffer drops and counts it, and a PAUSE frame holds back what has not entered transmission. As a frame
enters transmission its timestamp is queued and a Sync takes its time under ONE_STEP; it leaves with its FCS, or with a bad
one where its data was uncorrectable. The link's changes are shown, a loss ends the frame in transmission, and POP removes the
head of the timestamp queue.
The order of the frame check bytes and the PTP fields are the family's (log entry 65), PAUSE is that of IEEE 802.3 (log entry
66), and the instant of the reference plane is the model's choice (log entry 64). -/
def Obligations.FramesArePostedReceivedAndSent : Prop :=
  ∀ (s : State) (r : Fin 256) (d : Desc) (p : Fin 4), s.settled = true →
    let g := s.chip.ring r
    let eth := s.chip.eth[p]
    let on : Prop := s.chip.netOn p = true ∧ eth.linkUp = true
    let len := leAt d.bytes 4 4
    let a := leAt d.bytes 8 8
    let bare := s.chip.onRing r fun g => { g with wait := [] }
    let posted := (s.chip.takeTurn r).onRing r fun g => { g with
      fetched := [], bufs := g.bufs ++ [⟨d.idx, false, a, len⟩], wait := g.wait ++ [(d.idx, none)] }
    let link (x : Chip) : Chip := x.onEth p fun x => { x with linkUp := false, anDone := false, pauseTill := 0 }
    let passes (c : Chip) (x : TxFrame) (out : List Byte) (t : State) : Prop :=
      t.chip.eth[p].txts = eth.txts ++ (if x.tsReq then [⟨x.tsId, c.stamp (s.chip.txCorr p)⟩] else []) ∧
      (s.chip.netCfg p 8 = false ∨ ptpType x.bytes ≠ some 0 → out = x.bytes) ∧
      (∀ k, s.chip.netCfg p 8 = true → ptpType x.bytes = some 0 → ptpCarrier x.bytes = .ether k → k + 44 ≤ x.bytes.length →
        let ns := ((clockNs c.ttu.dom[s.chip.osDomain p] : Int) + s.chip.txCorr p).toNat
        (out.drop (k + 34)).take 10 = beBytes 6 (secOf ns) ++ beBytes 4 (ns % 1000000000) ∧
        out.getD (k + 6) 0 = x.bytes.getD (k + 6) 0 &&& 0xFD ∧ out.take (k + 6) = x.bytes.take (k + 6))
    (d.clean [(4, 15)] = true → a % 64 = 0 → (bare.holds r d 0x40 → Does (.frameBuf r) s posted) ∧
      (bare.holds r d 0x51 → 64 ≤ len → len ≤ 65535 → Does (.netRx r) s posted)) ∧
    (a % 64 ≠ 0 → (s.chip.holds r d 0x40 → Runs (.frameBuf r) s fun t => Posts s t r d.idx 0x41 none none) ∧
      (s.chip.holds r d 0x51 → Runs (.netRx r) s fun t => Posts s t r d.idx 0x41 none none) ∧
      (∀ i, bare.holds r d 0x51 → s.chip.ringType r = 7 → g.wait = [(i, none)] → i ≠ d.idx → Runs (.netRx r) s fun t =>
        t.mem = s.mem ∧ t.chip.ring r = { g with
          fetched := [], wait := [(i, none), (d.idx, some ⟨d.idx, 0x41, false, true, none, none⟩)] })) ∧
    (s.chip.holds r d 0x50 → s.chip.ringBind r = p → s.chip.txFieldsOk d p false = true →
      (on → Runs (.netTx r []) s fun t => Begins s t r d (.netTx p false) ∧ s.sameMem t ∧
        Asks s t ⟨0, r, leAt d.bytes 16 8, leAt d.bytes 4 2, .frameData (leAt d.bytes 4 2)⟩) ∧
      (¬on → Runs (.netTx r []) s fun t => Posts s t r d.idx 0x52 (some (leAt d.bytes 8 2)) none)) ∧
    (∀ (body : List Byte) (edges : Nat), on → 14 ≤ body.length →
      let c := s.chip.wait edges
      let pause := if s.chip.netCfg p 3 then s.chip.pauseOf p body else none
      (∀ n, pause = some n → body.length + 4 ≤ s.chip.maxFrame p → Does (.receiveFrame p (body ++ fcs body) edges) s
        (c.onEth p fun x => { x with pauseTill := c.ttu.up + n * 512 * 800000 / (1000 * x.mbits) })) ∧
      (s.chip.macAccepts p (body.take 6) = true →
        (∀ tail : List Byte, tail.length = 4 → tail ≠ fcs body → Does (.receiveFrame p (body ++ tail) edges) s
          ((c.bump (Reg.NET_RX_DROP_CNT p)).sticky (Reg.NET_PORT_FLAGS p) 0x08)) ∧
        (s.chip.maxFrame p < body.length + 4 → Does (.receiveFrame p (body ++ fcs body) edges) s
          ((c.bump (Reg.NET_RX_DROP_CNT p)).sticky (Reg.NET_PORT_FLAGS p) 0x10)) ∧
        (body.length + 4 ≤ s.chip.maxFrame p → pause = none →
          ((∀ k, s.chip.netRing 7 p = some k → (s.chip.ring k).bufs = []) → Does (.receiveFrame p (body ++ fcs body) edges) s
            ((c.bump (Reg.NET_RX_DROP_CNT p)).sticky (Reg.NET_PORT_FLAGS p) 0x04)) ∧
          (∀ (b : Buffer) (bs : List Buffer) (ws : List (Nat × Option Compl)), s.chip.netRing 7 p = some r → bare.serves r →
            g.bufs = b :: bs → g.wait = (b.idx, none) :: ws → (∀ w ∈ ws, w.1 ≠ b.idx ∧ w.2 = none) → b.irq = false →
            body.length ≤ b.len → g.fetched = [] → Runs (.receiveFrame p (body ++ fcs body) edges) s fun t =>
              let ts := s.chip.netCfg p 7 || (s.chip.netCfg p 6 && isPtpEvent body)
              t.chip.ring r = { g with bufs := bs, wait := ws, cqTail := g.cqTail + 1, wbPend := true } ∧
              t.mem.dram = s.mem.dram ∧
              t.chip.rdn (Reg.NET_RX_FRAME_CNT p) = min (s.chip.rdn (Reg.NET_RX_FRAME_CNT p) + 1) (2 ^ 32 - 1) ∧
              ∃ i1, (ts = true → i1 = tsFormat (c.stamp (-(s.chip.rxCorr p)))) ∧
                t.mem.host = Memory.writes dramDefault (Memory.writes dramDefault s.mem.host b.addr body) (s.chip.nextSlot r)
                  (complBytes ⟨b.idx, 0, false, true, none, none⟩ (phaseOf g.cqTail.toNat (s.chip.ringLog2 r))
                    (body.length % 2 ^ 16 + 2 ^ 16 * b2n ts) i1))))) ∧
    (∀ (y : HostRead) (n : Nat) (bs : List Byte), s.chip.works r d (.netTx p false) → y ∈ s.chip.hst.reads →
      (∀ z ∈ s.chip.hst.reads, z.id = y.id → z = y) → y.ring = r.val → y.use = .frameData n → bs.length = y.len →
      on → 60 ≤ bs.length → eth.pauseTill ≤ s.chip.ttu.up → eth.txts.length < 64 →
      Runs (.hostReadCompletion y.id (.data bs) []) s fun t => s.sameMem t ∧ Answers s t y.id ∧
        (t.chip.ring r).cur = some ⟨d, .netTx p true⟩ ∧ ∃ out,
          let x : TxFrame := ⟨bitOf (leAt d.bytes 6 1) 0, leAt d.bytes 8 2, bs, false, true⟩
          passes s.chip x out t ∧ t.chip.eth[p].tx = some { x with bytes := out }) ∧
    (∀ x : TxFrame, s.chip.works r d (.netTx p true) → s.chip.txRing p = some (r, d) → eth.tx = some x →
      (∀ edges : Nat,
        let c := s.chip.wait edges
        (x.passed = false → c.ttu.up < eth.pauseTill → Does (.frameTransmitted p edges) s c) ∧
        (x.bad = false → (x.passed = true ∨ eth.pauseTill ≤ c.ttu.up ∧ eth.txts.length < 64) →
          Runs (.frameTransmitted p edges) s fun t =>
            Posts s t r d.idx 0 (some x.tsId) none ∧ t.mem.dram = s.mem.dram ∧ t.chip.eth[p].tx = none ∧
            t.chip.rdn (Reg.NET_TX_FRAME_CNT p) = min (s.chip.rdn (Reg.NET_TX_FRAME_CNT p) + 1) (2 ^ 32 - 1) ∧
            ∃ out, t.chip.eth[p].wire = out ++ fcs out ∧
              (if x.passed = true then out = x.bytes ∧ t.chip.eth[p].txts = eth.txts else passes c x out t)) ∧
        (x.bad = true → x.passed = true → Runs (.frameTransmitted p edges) s fun t =>
          Posts s t r d.idx 0x44 (some x.tsId) none ∧ t.chip.eth[p].tx = none ∧
          t.chip.eth[p].wire = x.bytes ++ (fcs x.bytes).map (~~~ ·) ∧
          t.chip.rd (Reg.NET_TX_FRAME_CNT p) = s.chip.rd (Reg.NET_TX_FRAME_CNT p))) ∧
      (eth.linkUp = true → Runs (.linkLost p) s fun t => Posts s t r d.idx 0x52 (some x.tsId) none ∧
        t.chip.eth[p].tx = none ∧ t.chip.eth[p].linkUp = false ∧ (x.passed = true → t.chip.bit (Reg.NET_PORT_FLAGS p) 6 = true) ∧
        (x.passed = false → t.chip.bit (Reg.NET_PORT_FLAGS p) 6 = s.chip.bit (Reg.NET_PORT_FLAGS p) 6))) ∧
    (eth.tx = none → Does (.linkLost p) s
      (link (if eth.linkUp then s.chip.sticky (Reg.NET_PORT_FLAGS p) 0x80 else s.chip))) ∧
    (∀ speed : Fin 3, s.chip.netOn p = true → s.chip.fld (Reg.NET_PORT_CFG p) 1 0 ≠ 0 →
      let mode := s.chip.fld (Reg.NET_PORT_CFG p) 1 0
      Does (.linkUp p speed) s ((if eth.linkUp then s.chip else s.chip.sticky (Reg.NET_PORT_FLAGS p) 0x80).onEth p fun x =>
        { x with linkUp := true, speed := (if mode = 1 then 2 else if mode = 2 then speed.val else 3)
                 anDone := (if mode = 1 then s.chip.netCfg p 2 else mode = 2) })) ∧
    (∀ q, s.chip.writable q (Reg.NET_TXTS_POP p) 1 = true →
      Does (.txtsPop q p) s ((s.chip.seenBy q).onEth p fun x => { x with txts := x.txts.tail }))

/-! ### Resets, boot and the service cluster (R366 to R386) -/

/-- A module reset clears everything but the AON state and the OTP and samples BOOTSEL: no release, no ring, no lease, pair 0
alone running, no locks, DRAM as after a reset, the clocks counting on. A power-on reset after a loss of VAUX clears the
clocks too; that of a power-fail sequence is held for its release. PFAIL stops the laser and every moving axis. MODULE
requests its reset, and a block reset returns a quiescent block alone to its reset values and is discarded otherwise (R366
to R369, R476). A power-on reset is released once every condition has held for 10 ms, and held until then (R368).
What DRAM reads after a reset (log entry 5), the pair that runs from reset (log entry
69) and the start of internal state with no reset value given (log entry 7) are the
model's choices. -/
def Obligations.ResetsFollowTheirDomains : Prop :=
  ∀ (s : State) (b : Fin 8), s.settled = true →
    let clean (t : State) (cause : Nat) : Prop := t.mem = { s.mem with dram := [], spad := [] } ∧ t.fuses = s.fuses ∧
      t.pending = s.pending ∧ t.chip.heads = s.chip.heads ∧ t.chip.hst = Hst.reset ∧ t.chip.mpc.emrel = false ∧
      t.chip.mpc.estopA = s.chip.mpc.estopA ∧ t.chip.mpc.estopB = s.chip.mpc.estopB ∧ t.chip.scn.layer = none ∧
      t.chip.scn.armed = none ∧ t.chip.svc.running = 1 ∧ t.chip.svc.locks = 0 ∧ t.chip.svc.boot = .dramInit ∧
      t.chip.drc = Drc.reset ∧ t.chip.acts = [] ∧ t.chip.rdn Reg.SVC_RST_STATUS = cause ∧
      (∀ a : Fin 8, t.chip.axis[a].state = .disabled ∧ t.chip.axis[a].homed = false ∧ t.chip.bit (Reg.HVI_AX_FLAGS a) 9 = true) ∧
      ∀ a, recorderReg a = false → a ∉ [Reg.TTU_LCL_INC_LO, Reg.TTU_LCL_INC_HI, Reg.TTU_DOM_ADJ 0, Reg.TTU_DOM_ADJ 1,
        Reg.TTU_DOM_SEL, Reg.SVC_RST_STATUS] → (∀ k : Fin 8, a ≠ Reg.HVI_AX_FLAGS k) → t.chip.rd a = resetOf a
    let warm (t : State) : Prop := t.chip.ttu.lcl = s.chip.ttu.lcl ∧ t.chip.ttu.dom = s.chip.ttu.dom ∧
      t.chip.ttu.act = s.chip.ttu.act ∧ t.chip.inc = s.chip.inc ∧
      (∀ d : Fin 2, t.chip.rd (Reg.TTU_DOM_ADJ d) = s.chip.rd (Reg.TTU_DOM_ADJ d)) ∧
      ∀ a : Fin 8, t.chip.axis[a].s = s.chip.axis[a].s / 2 ^ 32 * 2 ^ 32 ∧ t.chip.axis[a].theta = s.chip.axis[a].theta ∧
        t.chip.axis[a].enHeld = s.chip.axis[a].state.enabled
    let boots (t : State) : Prop := t.chip.svc.bootsel = b ∧ t.chip.svc.sources = bootSources b ∧ t.chip.svc.held = false
    (s.chip.svc.resetReq = true → Runs (.moduleReset .module b) s fun t => clean t 4 ∧ warm t ∧ boots t) ∧
    (Runs (.moduleReset .jtag b) s fun t => clean t 8 ∧ warm t ∧ boots t) ∧
    (s.chip.svc.pfail = true → Runs (.moduleReset .powerFail b) s fun t => clean t 2 ∧ warm t ∧ t.chip.svc.held = true) ∧
    (∀ spans : List PowerSpan,
      let released (t : State) : Prop := if 10000 ≤ goodFor spans then boots t else t.chip.svc.held = true
      ((∀ x ∈ spans, x.vaux = true) → Runs (.powerOnReset b spans) s fun t =>
        clean t (if s.chip.svc.held then s.chip.rdn Reg.SVC_RST_STATUS else 1) ∧ warm t ∧ released t) ∧
      ((∃ x ∈ spans, x.vaux = false) → Runs (.powerOnReset b spans) s fun t => clean t 1 ∧ released t ∧ t.chip.ttu = Ttu.reset ∧
        t.chip.rd Reg.TTU_LCL_INC_LO = resetOf Reg.TTU_LCL_INC_LO ∧ ∀ a : Fin 8, t.chip.axis[a].s = 0) ∧
      (∀ x, powerGood x = false → goodFor (spans ++ [x]) = 0) ∧
      (∀ x, powerGood x = true → goodFor (spans ++ [x]) = goodFor spans + x.us)) ∧
    (s.chip.svc.pfail = false → s.chip.scn.armed = none → Runs .pfail s fun t => t.chip.svc.pfail = true ∧
      t.chip.bit Reg.MPC_EMREL_CTRL 0 = false ∧ t.chip.mpc.stopping = true ∧
      t.chip.scn = { s.chip.scn with layer := s.chip.scn.layer.map fun l =>
        if l.abortAt.isSome then l else { l.withholdShared with abortAt := some s.chip.ttu.index } } ∧
      ∀ a : Fin 8, if (s.chip.axis[a]).underway = false then t.chip.axis[a] = s.chip.axis[a]
        else t.chip.axis[a].queue = [] ∧ t.chip.axis[a].doing = (if s.chip.axis[a].doing = .rest then .rest else .eStop)) ∧
    ∀ q : Requester,
      (s.chip.writable q Reg.SVC_RST_CTRL 1 = true →
        Does (.svcModule q) s ((s.chip.seenBy q).onSvc fun x => { x with resetReq := true })) ∧
      ∀ k : Fin 13, s.chip.writable q Reg.SVC_BLK_RST (BitVec.ofNat 32 (2 ^ k.val)) = true →
        (s.chip.resettable k = false → Logs (.blockReset q (BitVec.ofNat 32 (2 ^ k.val))) s (s.chip.seenBy q)) ∧
        (s.chip.resettable k = true → Does (.blockReset q (BitVec.ofNat 32 (2 ^ k.val))) s ((s.chip.seenBy q).blockReset k) ∧
          ∀ x ∈ [(2, blkSLD), (4, blkCAM), (5, blkLNK), (7, blkNET), (8, blkDSP), (9, blkHVI), (10, blkEFP), (11, blkPMC)],
            k.val = x.1 → ∀ a, ((s.chip.seenBy q).blockReset k).rd a = if blockOf a = x.2 then resetOf a else s.chip.rd a)

/-- Boot goes from DRAM training through its sources. An image is checked in the order of R375, the first failure recorded
and the next source taken; one that passes is placed at its load address and starts pair 0 at ENTRY with the locks applied.
GO hands a mailbox image over, and 120 s without it end that source. OTP commands begin or are refused, and take effect only
when done; locks are only added (R370 to R377).
What stands in DRAM of a payload that is not read to its end, what a boot with no source does (log entry 70) and an OTP command with no running image
(log entry 71) are the model's reading. -/
def Obligations.ImagesBootAndFusesBurn : Prop :=
  ∀ (s : State) (q : Requester) (k : Fin 4) (v : Word), s.settled = true →
    let svc := s.chip.svc
    let d := s.chip.onDrc fun d => { d with initDone := true, chans := d.chans.map fun x => { x with up := true } }
    (svc.held = true → ∀ ok0 ok1 : Bool, Does (.dramTrained ok0 ok1) s s.chip) ∧
    (svc.boot = .dramInit → svc.held = false →
      Does (.dramTrained true true) s (d.onSvc fun x =>
        match x.sources with
        | [] => { x with boot := .bootFail, mboxGo := none }
        | b :: bs => { x with boot := b, sources := bs, mboxGo := none }) ∧
      (∀ ok0 ok1 : Bool, (ok0 && ok1) = false → Runs (.dramTrained ok0 ok1) s fun t => t.chip.svc.boot = .bootFail ∧
        t.chip.svc.dramFail = true ∧ t.chip.drc.initDone = false ∧ (t.chip.drc.chans[(0 : Fin 2)]).up = ok0 ∧
        (t.chip.drc.chans[(1 : Fin 2)]).up = ok1)) ∧
    (∀ norErr : Option Nat, svc.boot = .bootA ∨ svc.boot = .bootB → (∀ i : Fin 16, (s.chip.hst.leases[i]).guards = false) →
      Runs (.imageCheck norErr []) s fun t =>
        let off := if svc.boot = .bootA then 0 else 0x1800000
        let at_ (a n : Nat) : List Byte := (List.range n).map fun i => Memory.read norDefault s.mem.nor (off + a + i)
        let h := at_ 0 512
        let body := at_ 0x1000 (imgLen h)
        let code := imgHeaderCode s.fuses h
        let headed : Bool := norErr.all (512 ≤ ·)
        let got := match norErr with
          | some k => if 0x1000 ≤ k then min (imgLen h) (k - 0x1000) else imgLen h
          | none => imgLen h
        let result := if headed = false then 7 else if code ≠ 0 then code else if got < imgLen h then 7
          else if sha384 body ≠ bytesAt h 40 48 then 6 else 1
        let copied : Memory := if headed = true ∧ code = 0 then
          Memory.writes dramDefault s.mem.dram (imgLoad h) (body.take got) else s.mem.dram
        t.mem = { s.mem with dram := copied } ∧
        (if svc.boot = .bootA then t.chip.svc.resA = result else t.chip.svc.resB = result) ∧
        (result ≠ 1 → t.chip.svc = (svc.record result).nextSource) ∧
        (result = 1 → t.chip.svc.boot = .fwRun ∧ t.chip.svc.source = svc.boot.source ∧ t.chip.svc.startedAt[(0 : Fin 4)] = imgEntry h ∧
          t.chip.svc.locks = svc.locks ||| 1#7 ||| BitVec.ofNat 7 (imgLocks h) ∧ t.chip.svc.runKey = inst? 4 (imgKey h) ∧
          t.chip.svc.runVer = imgSecVer h ∧ t.chip.rdn Reg.SVC_IMG_VER = imgSecVer h % 2 ^ 32)) ∧
    (s.chip.writable q Reg.SVC_BOOT_MBOX (v ||| 0x80000000) = true → Runs (.bootGo q v) s fun t =>
      t.chip.svc = { svc with mboxGo := some (4096 * (v.toNat % 2 ^ 13)) } ∧ s.sameMem t ∧
      ∀ a, a ≠ Reg.SVC_BOOT_MBOX → t.chip.rd a = s.chip.rd a) ∧
    (svc.boot = .bootMbox → svc.mboxGo = none → svc.bootsel ≠ 4 →
      Does .mailboxTimeout s (s.chip.onSvc fun x => { x with resMbox := 8 }.nextSource)) ∧
    (let begun (o : OtpOp) : Chip := (s.chip.seenBy q).onSvc fun x => { x with otp := some o, otpRej := false }
     let refused : Chip := (s.chip.seenBy q).onSvc fun x => { x with otpRej := true }
     (s.chip.writable q Reg.SVC_OTP_CMD 0x0F7A0001 = true →
       Does (.otpMinVer q) s (if svc.runKey = none then refused else begun (.minVer svc.runVer))) ∧
     (s.chip.writable q Reg.SVC_OTP_CMD (0x0F7A0002 + BitVec.ofNat 32 (16 * k.val)) = true →
       Does (.otpRevoke q k) s (if svc.runKey = some k then refused else begun (.revoke k))) ∧
     (s.chip.writable q Reg.SVC_OTP_CMD (0x0F7A0003 + BitVec.ofNat 32 (16 * k.val)) = true →
       Does (.otpProgramKey q k) s (if (s.fuses.keys[k]).isSome then refused
         else begun (.program k ((List.range 12).flatMap fun i => leBytes 4 (s.chip.rdn (Reg.SVC_OTP_KEYDATA i))))))) ∧
    (∀ o, svc.otp = some o → Runs .otpCommandDone s fun t => t.mem = s.mem ∧ t.pending = s.pending ∧
      t.chip = (s.chip.onSvc fun x => { x with otp := none }) ∧
      t.fuses = match o with
        | .minVer n => { s.fuses with minVer := max s.fuses.minVer n }
        | .revoke k => { s.fuses with revoked := s.fuses.revoked ||| (1#4 <<< k.val) }
        | .program k h => if (s.fuses.keys[k]).isSome then s.fuses else { s.fuses with keys := s.fuses.keys.set k (some h) }) ∧
    (s.chip.writable q Reg.SVC_LOCK v = true →
      Does (.svcLock q v) s ((s.chip.seenBy q).onSvc fun x => { x with locks := x.locks ||| v.extractLsb' 0 7 }))

/-- A fault or HALT stops a pair with its lines masked and its latches and staging dropped; RUN starts a halted pair at its
entry and is discarded for a running one. A mailbox direction is filled by its sender, which sets the other side's line or
vector, and emptied by its receiver's ACK; a SEND into a full one sets OVF. NOR operations are taken when aligned and outside
the log and the running slot, else set NOR_ERR, and change the NOR when done (R380, R383, R385, R386).
What a failed or unaligned NOR operation leaves is the model's reading (log entry 73). -/
def Obligations.PairsMailboxAndNorAnswer : Prop :=
  ∀ (s : State) (q : Requester) (p : Fin 4) (v : Word), s.settled = true →
    let svc := s.chip.svc
    let m : BitVec 4 := 1#4 <<< p.val
    let halted (t : State) : Prop := t.chip.svc.running = svc.running &&& ~~~m ∧ t.chip.svc.masked = svc.masked ||| m ∧
      t.chip.views = s.chip.views.filter (·.req != .pair p) ∧ t.chip.staged = s.chip.staged.filter (·.req != .pair p)
    let run : Word := BitVec.ofNat 32 (2 ^ p.val)
    let halt : Word := BitVec.ofNat 32 (2 ^ (8 + p.val))
    let box (w : Word) : Prop := s.chip.writable q Reg.SVC_MBOX_CTRL (v ||| w) = true
    (∀ cause : PairCause, svc.running.getLsbD p = true → Runs (.pairFault p cause) s fun t => halted t ∧
      t.chip.bit Reg.SVC_PAIR_STATUS (8 + p.val) = true ∧
      t.chip.bit Reg.SVC_PAIR_STATUS ((match cause with | .mismatch => 12 | .memUe => 16) + p.val) = true) ∧
    (s.chip.writable q Reg.SVC_PAIR_CTRL run = true →
      (svc.running.getLsbD p = false → Does (.pairRun q run) s { (s.chip.seenBy q).onSvc (fun x => { x with
          running := x.running ||| m, masked := x.masked &&& ~~~m
          startedAt := upd x.startedAt p fun _ => s.chip.rdPair Reg.SVC_PAIR_ENTRY_LO }) with
        views := s.chip.views.filter (·.req != .pair p), staged := s.chip.staged.filter (·.req != .pair p) }) ∧
      (svc.running.getLsbD p = true → Logs (.pairRun q run) s (s.chip.seenBy q))) ∧
    (s.chip.writable q Reg.SVC_PAIR_CTRL halt = true → svc.running.getLsbD p = true → Runs (.pairHalt q halt) s halted) ∧
    ((∀ k, q ≠ .pair k) →
      (box 1 → (svc.h2fFull = false → Runs (.h2fSend q v) s fun t => t.chip.svc.h2fFull = true ∧
          ∀ k : Fin 4, bitsOf v.toNat 25 24 = k → t.chip.svc.lines[k].getLsbD 63 = (!svc.masked.getLsbD k || svc.lines[k].getLsbD 63)) ∧
        (svc.h2fFull = true → Runs (.h2fSend q v) s fun t => t.chip.svc.h2fFull = true ∧ t.chip.svc.lines = svc.lines ∧
          t.chip.bit Reg.SVC_MBOX_CTRL 8 = true)) ∧
      (box 0x40 → Runs (.f2hAck q v) s fun t => t.chip.svc.f2hFull = false)) ∧
    ((∃ k, q = .pair k) →
      (box 0x10 → (svc.f2hFull = false → Runs (.f2hSend q v) s fun t => t.chip.svc.f2hFull = true ∧
          ∀ x : Fin 64, bitsOf v.toNat 21 16 = x → s.chip.hst.spacing.getLsbD x = false → s.chip.hst.msix[x].ctrl.getLsbD 0 = true →
            t.chip.hst.pba = s.chip.hst.pba ||| (1#64 <<< x.val)) ∧
        (svc.f2hFull = true → Runs (.f2hSend q v) s fun t => t.chip.svc.f2hFull = true ∧ t.chip.hst = s.chip.hst ∧
          t.chip.bit Reg.SVC_MBOX_CTRL 8 = true)) ∧
      (box 4 → Runs (.h2fAck q v) s fun t => t.chip.svc.h2fFull = false)) ∧
    (let a := s.chip.fld Reg.SVC_NOR_ADDR 25 0
     let b := s.chip.rdPair Reg.SVC_NOR_BUF_LO
     let who := match q with | .pair p => p.val | _ => 0
     let refused (t : State) : Prop := s.sameMem t ∧ t.chip.svc = svc ∧ t.chip.bit Reg.SVC_NOR_CTRL 3 = true
     (s.chip.writable q Reg.SVC_NOR_CTRL 1 = true →
       (a % 65536 = 0 → a < 0x3800000 → s.chip.runningSlot a = false → Runs (.norErase q) s fun t => s.sameMem t ∧
         t.chip.svc = { svc with nor := some (.erase a) }) ∧
       (a % 65536 ≠ 0 ∨ 0x3800000 ≤ a ∨ s.chip.runningSlot a = true → Runs (.norErase q) s refused)) ∧
     (s.chip.writable q Reg.SVC_NOR_CTRL 2 = true →
       (a % 256 = 0 → a < 0x3800000 → (∀ i, i < 256 → mayRead (reqPair who) (b + i) = true) → Runs (.norProgram q) s fun t =>
         s.sameMem t ∧ t.chip.svc = { svc with nor := some (.program a
           ((List.range 256).map fun i => Memory.read dramDefault s.mem.dram (b + i))) }) ∧
       (a % 256 ≠ 0 ∨ 0x3800000 ≤ a → Runs (.norProgram q) s refused))) ∧
    (∀ o, svc.nor = some o → let done := s.chip.onSvc fun x => { x with nor := none }
      Does (.norOperationDone true) s (match o with
        | .erase a => done.issue (.norErase a 65536)
        | .program a bs => done.issue (.nor a bs)) ∧
      Runs (.norOperationDone false) s fun t => t.chip.svc.nor = none ∧ t.chip.bit Reg.SVC_NOR_CTRL 3 = true ∧
        ∀ y, (match o with | .erase a => y < a ∨ a + 65536 ≤ y | .program a bs => y < a ∨ a + bs.length ≤ y) →
          Memory.read norDefault t.mem.nor y = Memory.read norDefault s.mem.nor y)

/-! ### Panel outputs (R387 to R400) -/

/-- An output leaves OFF for DETECT, reads its sink into READY, trains on a valid commit and shows video once trained; an
AUX or training failure is LINK_FAIL, an IRQ out of lock trains again, an unplug goes back to DETECT and RETRY leaves
LINK_FAIL. A commit outside RUN is taken whole or rejected whole; in RUN it waits for the blanking, which counts the frame,
checks its rectangles and takes it, or for the front porch that low refresh extends, which it ends; the action follows CRC_N
mismatches in a row. An underrun is counted (R388 to R393, R396 to R398).
How DPCD 0x00202 to 0x00204 show a lane out of lock, and which frames the action counts, are the model's reading (log entry
104). -/
def Obligations.OutputsFollowTheirStates : Prop :=
  ∀ (s : State) (q : Requester) (n : Fin 2) (v : Word), s.settled = true →
    let x := s.chip.dsp[n]
    let c := s.chip.seenBy q
    let ctrl := Reg.DSP_CTRL n
    let fails (t : State) (cause : Nat) : Prop := t.chip.dsp[n].state = .linkFail ∧ t.chip.dsp[n].cause = cause ∧
      t.chip.dsp[n].video = false ∧ t.chip.bit (Reg.DSP_FLAGS n) 8 = true ∧ ∀ k, k ≠ n → t.chip.dsp[k] = s.chip.dsp[k]
    let mine (a : Nat) : Prop := 0x100000 + 0x400 * n.val ≤ a ∧ a < 0x100000 + 0x400 * (n.val + 1)
    let taken (t : State) : Prop := (∀ a, mine a → isShadowed a = true → t.chip.act a = s.chip.rd a) ∧
      ∀ a, ¬mine a → t.chip.act a = s.chip.act a
    (s.chip.writable q ctrl v = true →
      (v.getLsbD 0 = true → x.state = .off → Does (.dspEnable q n v) s ((c.wr ctrl 1).onDsp n Dsp.toDetect)) ∧
      (v.getLsbD 0 = false → Does (.dspEnable q n v) s ((c.wr ctrl 0).onDsp n fun x => { x.toDetect with state := .off }))) ∧
    (s.chip.writable q ctrl (v ||| 2) = true → v.getLsbD 0 = true → x.state = .linkFail →
      Does (.dspRetry q n v) s ((c.wr ctrl 1).onDsp n Dsp.toDetect)) ∧
    (x.state = .detect →
      (Runs (.sinkDetect n none) s fun t => fails t 1 ∧ s.sameMem t) ∧
      ∀ dpcd edid : List Byte, Runs (.sinkDetect n (some (dpcd, edid))) s fun t => t.chip.dsp[n].state = .ready ∧ s.sameMem t) ∧
    (x.state = .run →
      (∀ st : Vector Byte 3,
        let lost : Prop := (∃ i, i < (dspSet s.chip.actn n).laneCount ∧
          bitsOf (st[0].toNat + 2 ^ 8 * st[1].toNat) (4 * i + 2) (4 * i) ≠ 7) ∨ st[2].getLsbD 0 = false
        (¬lost → Does (.hpdIrq n st) s s.chip) ∧
        (lost → Runs (.hpdIrq n st) s fun t => s.sameMem t ∧ t.chip.dsp[n].state = .train ∧ t.chip.dsp[n].blank = true ∧
        t.chip.dsp[n].byCommit = false ∧ t.chip.bit (Reg.DSP_FLAGS n) 1 = true)) ∧
      (x.blank = false → ∀ i j : Nat, Does (.underrun n i j) s (((s.chip.bump (Reg.DSP_UNDERRUN_CNT n)).sticky
        (Reg.DSP_FLAGS n) 0x8).onDsp n fun d => { d with under := (j, i) :: d.under }))) ∧
    (x.state ≠ .off → x.state ≠ .linkFail →
      Does (.unplug n) s ((s.chip.sticky (Reg.DSP_FLAGS n) 0x4).onDsp n Dsp.toDetect)) ∧
    (x.state = .off → Does (.unplug n) s s.chip) ∧
    (x.state = .linkFail → Does (.unplug n) s (s.chip.onDsp n fun x => { x with unplugged := true }) ∧
      (x.unplugged = true → ∀ dpcd edid : List Byte, Runs (.sinkDetect n (some (dpcd, edid))) s fun t =>
        t.chip.dsp[n].state = .ready ∧ s.sameMem t)) ∧
    (x.state = .train →
      Does (.trainingComplete n true) s (s.chip.onDsp n fun x => { x with
        state := .run, blank := x.video && x.blank, video := true, byCommit := false, missRun := 0 }) ∧
      Runs (.trainingComplete n false) s fun t => fails t 2 ∧ s.sameMem t) ∧
    (s.chip.writable q (Reg.DSP_COMMIT n) 1 = true → x.pend = true → x.state = .run → x.porch ≤ s.chip.ttu.up →
      Does (.dspCommit q n) s (c.bump (Reg.DSP_REPLACE_CNT n))) ∧
    (s.chip.writable q (Reg.DSP_COMMIT n) 1 = true → x.pend = false →
      (x.state ≠ .run →
        (s.chip.dspValid n = false → Logs (.dspCommit q n) s (c.sticky (Reg.DSP_FLAGS n) 0x1)) ∧
        (s.chip.dspValid n = true → Runs (.dspCommit q n) s fun t => taken t ∧ s.sameMem t ∧
          t.chip.dsp[n].state = if x.state = .ready then .train else x.state)) ∧
      (x.state = .run → s.chip.ttu.up < x.porch → s.chip.dspValid n = true → Runs (.dspCommit q n) s fun t =>
        taken t ∧ s.sameMem t ∧ t.chip.dsp[n].idle = 0 ∧ t.chip.dsp[n].pend = false ∧
        (s.chip.thermDsp = false → t.chip.dsp[n].porch = 0)) ∧
      (x.state = .run → x.porch ≤ s.chip.ttu.up →
        Does (.dspCommit q n) s (c.onDsp n fun x => { x with pend := true }))) ∧
    (x.video = true →
      let frames (t : State) : Prop := t.chip.rdn (Reg.DSP_FRAME_CNT n) = (s.chip.rdn (Reg.DSP_FRAME_CNT n) + 1) % 2 ^ 32
      let set := dspSet s.chip.actn n
      (x.state = .train → x.byCommit = true → Runs (.verticalBlanking n []) s fun t => frames t ∧ fails t 2) ∧
      (x.state = .run → x.blank = true → Runs (.verticalBlanking n []) s fun t => frames t ∧ t.chip.dsp[n].pend = false ∧
        t.chip.rdn (Reg.DSP_BLANK_CNT n) = min (s.chip.rdn (Reg.DSP_BLANK_CNT n) + 1) (2 ^ 32 - 1) ∧
        (x.pend = false → t.chip.dsp[n].idle = x.idle + 1 ∧ (s.chip.lrOn n = false → t.chip.dsp[n].porch = 0) ∧
          (s.chip.lrOn n = true → set.vtotal < set.vtotalLr → set.static ≤ x.idle + 1 → t.chip.dsp[n].porch =
            s.chip.ttu.up + (set.vtotalLr - set.vAct - set.vSync - set.vBp) * set.htotal * 800000 / set.pclk)) ∧
        (x.pend = true → s.chip.dspValid n = true → taken t) ∧
        (x.pend = true → s.chip.dspValid n = false → t.chip.acts = s.chip.acts ∧ t.chip.bit (Reg.DSP_FLAGS n) 0 = true)) ∧
      (x.state = .run → x.blank = false → x.pend = false → x.under = [] → (∀ p, p < 2 → (dspPlane s.chip.actn n p).en = false) →
        let crc (k : Fin 4) : Nat :=
          let r := dspRect s.chip.actn n k
          crc32 ((List.replicate (r.w * r.h) ((rgbOf set.bg).map (BitVec.ofNat 8))).flatten) % 2 ^ 32
        let bad (k : Fin 4) : Prop := bitOf set.crcEn k = true ∧ crc k ≠ (dspRect s.chip.actn n k).exp
        Runs (.verticalBlanking n []) s fun t => frames t ∧ t.chip.rdn (Reg.DSP_BLANK_CNT n) = s.chip.rdn (Reg.DSP_BLANK_CNT n) ∧
          (∀ k : Fin 4, bitOf set.crcEn k = true → t.chip.rdn (Reg.DSP_CRC_VAL n k) = crc k) ∧
          (∀ k : Fin 4, bitOf t.chip.dsp[n].missed k = true ↔ bad k) ∧
          ((∃ k, bad k) → t.chip.dsp[n].missRun = x.missRun + 1 ∧
            t.chip.rdn (Reg.DSP_CRC_MISS_CNT n) = min (s.chip.rdn (Reg.DSP_CRC_MISS_CNT n) + 1) (2 ^ 32 - 1) ∧
            (set.crcN ≤ x.missRun + 1 → 1 ≤ set.action → t.chip.bit (Reg.DSP_FLAGS n) 5 = true ∧
              (set.action = 2 → t.chip.dsp[n].bgOnly = true))) ∧
          (set.crcEn ≠ 0 → (∀ k, ¬bad k) → t.chip.dsp[n].missRun = 0 ∧ t.chip.dsp[n].bgOnly = x.bgOnly)))

/-- On detection DSP_DPCD holds DPCD bytes 0x00000 to 0x0000F, DSP_EDID as many of up to four EDID blocks as block 0
announces, and ASYNC_CAP bit 6 of DPCD 0x00007. Nothing else follows from what was read: the output is READY, whatever the
EDID holds (R388). -/
def Obligations.SinkDetectionReadsTheSink : Prop :=
  ∀ (s : State) (n : Fin 2) (dpcd edid : List Byte), s.settled = true → s.chip.dsp[n].state = .detect →
    let blocks := min 4 (1 + leAt edid 126 1)
    Runs (.sinkDetect n (some (dpcd, edid))) s fun t =>
      (∀ j : Fin 4, t.chip.rdn (Reg.DSP_DPCD n j) = leAt dpcd (4 * j) 4) ∧
      (∀ j : Fin 128, t.chip.rdn (Reg.DSP_EDID n j) = if j.val < 32 * blocks then leAt edid (4 * j) 4 else 0) ∧
      t.chip.bit (Reg.DSP_SINK n) 0 = bitOf (leAt dpcd 7 1) 6 ∧ t.chip.rdn (Reg.DSP_SINK n) / 2 = blocks ∧
      (∀ a, a ≠ Reg.DSP_SINK n → (∀ j : Fin 4, a ≠ Reg.DSP_DPCD n j) → (∀ j : Fin 128, a ≠ Reg.DSP_EDID n j) →
        t.chip.rd a = s.chip.rd a) ∧
      t = { s with chip := { s.chip with regs := t.chip.regs, dsp := upd s.chip.dsp n fun x => { x with state := .ready } } }

end
end

