-- ==== Sys2Proof/Laws/Map.lean ====
section
/-! SUPPORT. The rows of the register map that the commands' registers hit, for every unit of the series. -/

namespace Sys2Proof.Machine

set_option Elab.async false

theorem rowOf_ASY_CTRL : rowOf Reg.ASY_CTRL =
    some ⟨"ASY_CTRL", 0x150004, 0x0, 1, 0x0, 1, 0x0, 0x0, 0x0, 0x1, 0x0, false, false, false, false⟩ := by decide +kernel
theorem rowOf_CAM_CTRL : ∀ i : Fin 16, rowOf (Reg.CAM_CTRL i) =
    some ⟨"CAM_CTRL", 0x80000, 0x1000, 16, 0x0, 1, 0x0, 0xFFF7, 0x0, 0x0, 0x0, false, false, false, true⟩ := by decide +kernel
theorem rowOf_CAM_EXP_CTRL : ∀ i : Fin 16, rowOf (Reg.CAM_EXP_CTRL i) =
    some ⟨"CAM_EXP_CTRL", 0x800A8, 0x1000, 16, 0x0, 1, 0x0, 0xF, 0x0, 0x80000000, 0x0, false, false, false, false⟩ := by decide +kernel
theorem rowOf_DSP_COMMIT : ∀ i : Fin 2, rowOf (Reg.DSP_COMMIT i) =
    some ⟨"DSP_COMMIT", 0x100004, 0x400, 2, 0x0, 1, 0x0, 0x0, 0x0, 0x1, 0x0, false, false, false, false⟩ := by decide +kernel
theorem rowOf_DSP_CTRL : ∀ i : Fin 2, rowOf (Reg.DSP_CTRL i) =
    some ⟨"DSP_CTRL", 0x100000, 0x400, 2, 0x0, 1, 0x0, 0x1, 0x0, 0x2, 0x0, false, false, false, false⟩ := by decide +kernel
theorem rowOf_EFP_CTRL : ∀ i : Fin 24, rowOf (Reg.EFP_CTRL i) =
    some ⟨"EFP_CTRL", 0x120004, 0x40, 24, 0x0, 1, 0x0, 0x1, 0x0, 0x6, 0x0, false, false, false, false⟩ := by decide +kernel
theorem rowOf_EVR_CTRL : rowOf Reg.EVR_CTRL =
    some ⟨"EVR_CTRL", 0x130000, 0x0, 1, 0x0, 1, 0x1, 0x1, 0x0, 0xE, 0x0, false, false, false, false⟩ := by decide +kernel
theorem rowOf_EVR_LG_POP : rowOf Reg.EVR_LG_POP =
    some ⟨"EVR_LG_POP", 0x130044, 0x0, 1, 0x0, 1, 0x0, 0x0, 0x0, 0x1, 0x0, false, false, false, false⟩ := by decide +kernel
theorem rowOf_EVR_RD_IDX : rowOf Reg.EVR_RD_IDX =
    some ⟨"EVR_RD_IDX", 0x13001C, 0x0, 1, 0x0, 1, 0x0, 0xFFFFFFFF, 0x0, 0x0, 0x0, false, false, false, false⟩ := by decide +kernel
theorem rowOf_HST_RING_CTRL : ∀ i : Fin 256, rowOf (Reg.HST_RING_CTRL i) =
    some ⟨"HST_RING_CTRL", 0xD1004, 0x40, 256, 0x0, 1, 0x0, 0x1, 0x0, 0x0, 0x0, false, false, false, false⟩ := by decide +kernel
theorem rowOf_HVI_AX_CTRL : ∀ i : Fin 8, rowOf (Reg.HVI_AX_CTRL i) =
    some ⟨"HVI_AX_CTRL", 0x110000, 0x100, 8, 0x0, 1, 0x0, 0x0, 0x0, 0x0, 0x0, false, true, false, false⟩ := by decide +kernel
theorem rowOf_HVI_MV_PUSH : ∀ i : Fin 8, rowOf (Reg.HVI_MV_PUSH i) =
    some ⟨"HVI_MV_PUSH", 0x11004C, 0x100, 8, 0x0, 1, 0x0, 0x0, 0x0, 0x1, 0x0, false, false, false, false⟩ := by decide +kernel
theorem rowOf_HVI_TAB_DATA : rowOf Reg.HVI_TAB_DATA =
    some ⟨"HVI_TAB_DATA", 0x110814, 0x0, 1, 0x0, 1, 0x0, 0xFFFF, 0x0, 0x0, 0x0, false, false, true, false⟩ := by decide +kernel
theorem rowOf_LNK_CTRL : ∀ i : Fin 76, rowOf (Reg.LNK_CTRL i) =
    some ⟨"LNK_CTRL", 0xA0000, 0x400, 76, 0x0, 1, 0x0, 0x1, 0x0, 0xE, 0x0, false, false, false, false⟩ := by decide +kernel
theorem rowOf_LNK_EYE_CFG : ∀ i : Fin 76, rowOf (Reg.LNK_EYE_CFG i) =
    some ⟨"LNK_EYE_CFG", 0xA0054, 0x400, 76, 0x0, 1, 0x140000, 0x1F7F7F, 0x0, 0x40000000, 0x0, false, false, false, false⟩ := by decide +kernel
theorem rowOf_LNK_INJECT : ∀ i : Fin 76, rowOf (Reg.LNK_INJECT i) =
    some ⟨"LNK_INJECT", 0xA0050, 0x400, 76, 0x0, 1, 0x0, 0x1F06, 0x0, 0x9, 0x0, false, false, false, false⟩ := by decide +kernel
theorem rowOf_MPC_EMREL_CTRL : rowOf Reg.MPC_EMREL_CTRL =
    some ⟨"MPC_EMREL_CTRL", 0x50000, 0x0, 1, 0x0, 1, 0x1400, 0xFF01, 0x0, 0x0, 0x0, false, false, false, false⟩ := by decide +kernel
theorem rowOf_MPC_LASER_STOP : rowOf Reg.MPC_LASER_STOP =
    some ⟨"MPC_LASER_STOP", 0x50014, 0x0, 1, 0x0, 1, 0x0, 0x0, 0x0, 0x1, 0x0, false, false, false, false⟩ := by decide +kernel
theorem rowOf_MPC_LOOP_CMD : ∀ i : Fin 128, rowOf (Reg.MPC_LOOP_CMD i) =
    some ⟨"MPC_LOOP_CMD", 0x58004, 0x100, 128, 0x0, 1, 0x0, 0x3, 0x0, 0x0, 0x0, false, false, false, false⟩ := by decide +kernel
theorem rowOf_MPC_SAFETY_STATUS : rowOf Reg.MPC_SAFETY_STATUS =
    some ⟨"MPC_SAFETY_STATUS", 0x50004, 0x0, 1, 0x0, 1, 0x0, 0x0, 0x1F00, 0x0, 0x0, false, false, false, false⟩ := by decide +kernel
theorem rowOf_MPC_WDOG_CFG : rowOf Reg.MPC_WDOG_CFG =
    some ⟨"MPC_WDOG_CFG", 0x5000C, 0x0, 1, 0x0, 1, 0x64, 0x3FF, 0x0, 0x80000000, 0x0, false, false, true, false⟩ := by decide +kernel
theorem rowOf_MPC_WDOG_KICK : rowOf Reg.MPC_WDOG_KICK =
    some ⟨"MPC_WDOG_KICK", 0x50010, 0x0, 1, 0x0, 1, 0x0, 0x0, 0x0, 0x0, 0x0, false, true, false, false⟩ := by decide +kernel
theorem rowOf_NET_TXTS_POP : ∀ i : Fin 4, rowOf (Reg.NET_TXTS_POP i) =
    some ⟨"NET_TXTS_POP", 0xF0030, 0x400, 4, 0x0, 1, 0x0, 0x0, 0x0, 0x1, 0x0, false, false, false, false⟩ := by decide +kernel
theorem rowOf_PMC_CTRL : rowOf Reg.PMC_CTRL =
    some ⟨"PMC_CTRL", 0x140000, 0x0, 1, 0x0, 1, 0x0, 0x1, 0x0, 0x2, 0x0, false, false, false, false⟩ := by decide +kernel
theorem rowOf_SVC_BLK_RST : rowOf Reg.SVC_BLK_RST =
    some ⟨"SVC_BLK_RST", 0xE0010, 0x0, 1, 0x0, 1, 0x0, 0x0, 0x0, 0xFFFFFFFF, 0x0, false, false, false, false⟩ := by decide +kernel
theorem rowOf_SVC_BOOT_MBOX : rowOf Reg.SVC_BOOT_MBOX =
    some ⟨"SVC_BOOT_MBOX", 0xE0030, 0x0, 1, 0x0, 1, 0x0, 0x1FFF, 0x0, 0x80000000, 0x0, false, false, false, false⟩ := by decide +kernel
theorem rowOf_SVC_LOCK : rowOf Reg.SVC_LOCK =
    some ⟨"SVC_LOCK", 0xE0008, 0x0, 1, 0x0, 1, 0x0, 0x0, 0x0, 0x7F, 0x0, false, false, false, false⟩ := by decide +kernel
theorem rowOf_SVC_MBOX_CTRL : rowOf Reg.SVC_MBOX_CTRL =
    some ⟨"SVC_MBOX_CTRL", 0xE0180, 0x0, 1, 0x0, 1, 0x0, 0x33F0000, 0x100, 0x55, 0x0, false, false, false, false⟩ := by decide +kernel
theorem rowOf_SVC_NOR_CTRL : rowOf Reg.SVC_NOR_CTRL =
    some ⟨"SVC_NOR_CTRL", 0xE0060, 0x0, 1, 0x0, 1, 0x0, 0x3, 0x8, 0x0, 0x0, false, false, false, false⟩ := by decide +kernel
theorem rowOf_SVC_OTP_CMD : rowOf Reg.SVC_OTP_CMD =
    some ⟨"SVC_OTP_CMD", 0xE0038, 0x0, 1, 0x0, 1, 0x0, 0x0, 0x0, 0x0, 0x0, false, true, false, false⟩ := by decide +kernel
theorem rowOf_SVC_PAIR_CTRL : rowOf Reg.SVC_PAIR_CTRL =
    some ⟨"SVC_PAIR_CTRL", 0xE001C, 0x0, 1, 0x0, 1, 0x0, 0x0, 0x0, 0xF0F, 0x0, false, false, false, false⟩ := by decide +kernel
theorem rowOf_SVC_RST_CTRL : rowOf Reg.SVC_RST_CTRL =
    some ⟨"SVC_RST_CTRL", 0xE000C, 0x0, 1, 0x0, 1, 0x0, 0x0, 0x0, 0x1, 0x0, false, false, false, false⟩ := by decide +kernel
theorem rowOf_TTU_COMMIT_REQ : rowOf Reg.TTU_COMMIT_REQ =
    some ⟨"TTU_COMMIT_REQ", 0x10030, 0x0, 1, 0x0, 1, 0x0, 0x0, 0x0, 0xF, 0x0, false, false, false, false⟩ := by decide +kernel
theorem rowOf_TTU_DOM_CTRL : ∀ i : Fin 2, rowOf (Reg.TTU_DOM_CTRL i) =
    some ⟨"TTU_DOM_CTRL", 0x10200, 0x40, 2, 0x0, 1, 0x0, 0x1, 0x0, 0x2, 0x0, false, false, false, false⟩ := by decide +kernel
theorem rowOf_TTU_DOM_SEC_HI : ∀ i : Fin 2, rowOf (Reg.TTU_DOM_SEC_HI i) =
    some ⟨"TTU_DOM_SEC_HI", 0x1020C, 0x40, 2, 0x0, 1, 0x0, 0xFFFF, 0x0, 0x0, 0x0, false, false, false, false⟩ := by decide +kernel
theorem rowOf_TTU_DOM_SEL : rowOf Reg.TTU_DOM_SEL =
    some ⟨"TTU_DOM_SEL", 0x10180, 0x0, 1, 0x0, 1, 0x2, 0x3, 0x0, 0x0, 0x0, false, false, false, false⟩ := by decide +kernel
theorem rowOf_TTU_DOM_STEP : ∀ i : Fin 2, rowOf (Reg.TTU_DOM_STEP i) =
    some ⟨"TTU_DOM_STEP", 0x10218, 0x40, 2, 0x0, 1, 0x0, 0x0, 0x0, 0x0, 0x0, false, true, false, false⟩ := by decide +kernel
theorem rowOf_TTU_DOM_UPDATE : ∀ i : Fin 2, rowOf (Reg.TTU_DOM_UPDATE i) =
    some ⟨"TTU_DOM_UPDATE", 0x1021C, 0x40, 2, 0x0, 1, 0x0, 0x0, 0x0, 0x0, 0x0, false, true, false, false⟩ := by decide +kernel
theorem rowOf_TTU_LCL_SEC_HI : rowOf Reg.TTU_LCL_SEC_HI =
    some ⟨"TTU_LCL_SEC_HI", 0x1010C, 0x0, 1, 0x0, 1, 0x0, 0xFFFF, 0x0, 0x0, 0x0, false, false, false, false⟩ := by decide +kernel
theorem rowOf_TTU_TICK_CTRL : rowOf Reg.TTU_TICK_CTRL =
    some ⟨"TTU_TICK_CTRL", 0x10020, 0x0, 1, 0x0, 1, 0x0, 0x0, 0x0, 0x1, 0x0, false, false, false, false⟩ := by decide +kernel

end Sys2Proof.Machine
end

