-- ==== Sys2Proof/Laws/Tables.lean ====
section
/-! SUPPORT. Tables in canonical form: reading after an insertion or a removal, and that both keep the order of keys.
On them rest the laws of memory and of registers. -/

namespace Sys2Proof.Machine

variable {α : Type}

@[simp] theorem findKey_insertKey_self (k : Nat) (v : α) (l : List (Nat × α)) : findKey k (insertKey k v l) = some v := by
  induction l with
  | nil => simp [insertKey, findKey]
  | cons x l ih =>
    simp only [insertKey]
    split
    · simp [findKey]
    · split
      · simp [findKey]
      · rename_i h; simp [findKey, h, ih]

theorem findKey_insertKey_ne {k a : Nat} (h : a ≠ k) (v : α) (l : List (Nat × α)) :
    findKey a (insertKey k v l) = findKey a l := by
  induction l with
  | nil => simp [insertKey, findKey, h]
  | cons x l ih =>
    simp only [insertKey]
    split
    · simp [findKey, h]
    · split
      · rename_i e; subst e; simp [findKey, h]
      · simp [findKey, ih]

@[simp] theorem findKey_eraseKey_self (k : Nat) (l : List (Nat × α)) : findKey k (eraseKey k l) = none := by
  induction l with
  | nil => rfl
  | cons x l ih =>
    simp only [eraseKey]
    split
    · exact ih
    · rename_i h; simp [findKey, h, ih]

theorem findKey_eraseKey_ne {k a : Nat} (h : a ≠ k) (l : List (Nat × α)) : findKey a (eraseKey k l) = findKey a l := by
  induction l with
  | nil => rfl
  | cons x l ih =>
    simp only [eraseKey]
    split
    · rename_i e; subst e; simp [findKey, h, ih]
    · simp [findKey, ih]

/-! ### Order -/

/-- Every key of a table lies above a bound. -/
def above (k : Nat) (l : List (Nat × α)) : Prop := ∀ x ∈ l, k < x.1

theorem rising_cons {x : Nat × α} {l : List (Nat × α)} : rising (x :: l) = true ↔ above x.1 l ∧ rising l = true := by
  induction l generalizing x with
  | nil => simp [rising, above]
  | cons y l ih =>
    constructor
    · intro h
      simp only [rising, Bool.and_eq_true, decide_eq_true_eq] at h
      refine ⟨fun z hz => ?_, h.2⟩
      rcases List.mem_cons.mp hz with rfl | hz
      · exact h.1
      · exact Nat.lt_trans h.1 ((ih.mp h.2).1 z hz)
    · rintro ⟨ha, hr⟩
      simp only [rising, Bool.and_eq_true, decide_eq_true_eq]
      exact ⟨ha y (List.mem_cons_self ..), hr⟩

theorem mem_insertKey {k : Nat} {v : α} {l : List (Nat × α)} {x : Nat × α} (h : x ∈ insertKey k v l) :
    x = (k, v) ∨ x ∈ l := by
  induction l with
  | nil => simpa [insertKey] using h
  | cons y l ih =>
    simp only [insertKey] at h
    split at h
    · rcases List.mem_cons.mp h with h | h
      · exact .inl h
      · exact .inr h
    · split at h
      · rcases List.mem_cons.mp h with h | h
        · exact .inl h
        · exact .inr (List.mem_cons_of_mem _ h)
      · rcases List.mem_cons.mp h with h | h
        · exact .inr (by simp [h])
        · exact (ih h).imp_right (List.mem_cons_of_mem _)

theorem mem_eraseKey {k : Nat} {l : List (Nat × α)} {x : Nat × α} (h : x ∈ eraseKey k l) : x ∈ l ∧ x.1 ≠ k := by
  induction l with
  | nil => simp [eraseKey] at h
  | cons y l ih =>
    simp only [eraseKey] at h
    split at h
    · exact ⟨List.mem_cons_of_mem _ (ih h).1, (ih h).2⟩
    · rename_i hk
      rcases List.mem_cons.mp h with rfl | h
      · exact ⟨List.mem_cons_self .., fun e => hk e.symm⟩
      · exact ⟨List.mem_cons_of_mem _ (ih h).1, (ih h).2⟩

theorem rising_insertKey (k : Nat) (v : α) {l : List (Nat × α)} (h : rising l = true) : rising (insertKey k v l) = true := by
  induction l with
  | nil => rfl
  | cons y l ih =>
    obtain ⟨ha, hr⟩ := rising_cons.mp h
    simp only [insertKey]
    split
    · rename_i hk
      refine rising_cons.mpr ⟨fun z hz => ?_, h⟩
      rcases List.mem_cons.mp hz with rfl | hz
      · exact hk
      · exact Nat.lt_trans hk (ha z hz)
    · split
      · rename_i e; subst e; exact rising_cons.mpr ⟨ha, hr⟩
      · refine rising_cons.mpr ⟨fun z hz => ?_, ih hr⟩
        rcases mem_insertKey hz with rfl | hz
        · show y.1 < k; omega
        · exact ha z hz

theorem rising_eraseKey (k : Nat) {l : List (Nat × α)} (h : rising l = true) : rising (eraseKey k l) = true := by
  induction l with
  | nil => rfl
  | cons y l ih =>
    obtain ⟨ha, hr⟩ := rising_cons.mp h
    simp only [eraseKey]
    split
    · exact ih hr
    · exact rising_cons.mpr ⟨fun z hz => ha z (mem_eraseKey hz).1, ih hr⟩

theorem rising_filter (p : Nat × α → Bool) {l : List (Nat × α)} (h : rising l = true) : rising (l.filter p) = true := by
  induction l with
  | nil => rfl
  | cons y l ih =>
    obtain ⟨ha, hr⟩ := rising_cons.mp h
    simp only [List.filter]
    split
    · exact rising_cons.mpr ⟨fun z hz => ha z ((List.mem_filter.mp hz).1), ih hr⟩
    · exact ih hr

end Sys2Proof.Machine
end

