-- ==== Sys2Proof/Laws/State.lean ====
section
/-! SUPPORT. The small laws of the state: what each update of one part leaves as it was, one lemma for each field and
update, and what an updated unit holds. -/

namespace Sys2Proof.Machine

variable (c : Chip)

@[simp] theorem Chip.wr_heads (a : Nat) (v : Word) : (c.wr a v).heads = c.heads := rfl
@[simp] theorem Chip.wr_acts (a : Nat) (v : Word) : (c.wr a v).acts = c.acts := rfl
@[simp] theorem Chip.wr_rdata (a : Nat) (v : Word) : (c.wr a v).rdata = c.rdata := rfl
@[simp] theorem Chip.wr_rbytes (a : Nat) (v : Word) : (c.wr a v).rbytes = c.rbytes := rfl
@[simp] theorem Chip.wr_rbad (a : Nat) (v : Word) : (c.wr a v).rbad = c.rbad := rfl
@[simp] theorem Chip.wr_views (a : Nat) (v : Word) : (c.wr a v).views = c.views := rfl
@[simp] theorem Chip.wr_staged (a : Nat) (v : Word) : (c.wr a v).staged = c.staged := rfl
@[simp] theorem Chip.wr_outbox (a : Nat) (v : Word) : (c.wr a v).outbox = c.outbox := rfl
@[simp] theorem Chip.wr_derr (a : Nat) (v : Word) : (c.wr a v).derr = c.derr := rfl
@[simp] theorem Chip.wr_fresh (a : Nat) (v : Word) : (c.wr a v).fresh = c.fresh := rfl
@[simp] theorem Chip.wr_evr (a : Nat) (v : Word) : (c.wr a v).evr = c.evr := rfl
@[simp] theorem Chip.wr_pmcPend (a : Nat) (v : Word) : (c.wr a v).pmcPend = c.pmcPend := rfl
@[simp] theorem Chip.wr_frozen (a : Nat) (v : Word) : (c.wr a v).frozen = c.frozen := rfl
@[simp] theorem Chip.wr_hst (a : Nat) (v : Word) : (c.wr a v).hst = c.hst := rfl
@[simp] theorem Chip.wr_drc (a : Nat) (v : Word) : (c.wr a v).drc = c.drc := rfl
@[simp] theorem Chip.wr_svc (a : Nat) (v : Word) : (c.wr a v).svc = c.svc := rfl
@[simp] theorem Chip.wr_ttu (a : Nat) (v : Word) : (c.wr a v).ttu = c.ttu := rfl
@[simp] theorem Chip.wr_eth (a : Nat) (v : Word) : (c.wr a v).eth = c.eth := rfl
@[simp] theorem Chip.wr_hd (a : Nat) (v : Word) : (c.wr a v).hd = c.hd := rfl
@[simp] theorem Chip.wr_scn (a : Nat) (v : Word) : (c.wr a v).scn = c.scn := rfl
@[simp] theorem Chip.wr_mpc (a : Nat) (v : Word) : (c.wr a v).mpc = c.mpc := rfl
@[simp] theorem Chip.wr_cam (a : Nat) (v : Word) : (c.wr a v).cam = c.cam := rfl
@[simp] theorem Chip.wr_camShared (a : Nat) (v : Word) : (c.wr a v).camShared = c.camShared := rfl
@[simp] theorem Chip.wr_port (a : Nat) (v : Word) : (c.wr a v).port = c.port := rfl
@[simp] theorem Chip.wr_axis (a : Nat) (v : Word) : (c.wr a v).axis = c.axis := rfl
@[simp] theorem Chip.wr_island (a : Nat) (v : Word) : (c.wr a v).island = c.island := rfl
@[simp] theorem Chip.wr_lane (a : Nat) (v : Word) : (c.wr a v).lane = c.lane := rfl
@[simp] theorem Chip.wr_dsp (a : Nat) (v : Word) : (c.wr a v).dsp = c.dsp := rfl
@[simp] theorem Chip.wr_asy (a : Nat) (v : Word) : (c.wr a v).asy = c.asy := rfl
@[simp] theorem Chip.wr_mon (a : Nat) (v : Word) : (c.wr a v).mon = c.mon := rfl
@[simp] theorem Chip.wr_reg (a : Nat) (v : Word) : (c.wr a v).reg = c.reg := rfl

@[simp] theorem Chip.setAct_heads (a : Nat) (v : Word) : (c.setAct a v).heads = c.heads := rfl
@[simp] theorem Chip.setAct_regs (a : Nat) (v : Word) : (c.setAct a v).regs = c.regs := rfl
@[simp] theorem Chip.setAct_rdata (a : Nat) (v : Word) : (c.setAct a v).rdata = c.rdata := rfl
@[simp] theorem Chip.setAct_rbytes (a : Nat) (v : Word) : (c.setAct a v).rbytes = c.rbytes := rfl
@[simp] theorem Chip.setAct_rbad (a : Nat) (v : Word) : (c.setAct a v).rbad = c.rbad := rfl
@[simp] theorem Chip.setAct_views (a : Nat) (v : Word) : (c.setAct a v).views = c.views := rfl
@[simp] theorem Chip.setAct_staged (a : Nat) (v : Word) : (c.setAct a v).staged = c.staged := rfl
@[simp] theorem Chip.setAct_outbox (a : Nat) (v : Word) : (c.setAct a v).outbox = c.outbox := rfl
@[simp] theorem Chip.setAct_derr (a : Nat) (v : Word) : (c.setAct a v).derr = c.derr := rfl
@[simp] theorem Chip.setAct_fresh (a : Nat) (v : Word) : (c.setAct a v).fresh = c.fresh := rfl
@[simp] theorem Chip.setAct_evr (a : Nat) (v : Word) : (c.setAct a v).evr = c.evr := rfl
@[simp] theorem Chip.setAct_pmcPend (a : Nat) (v : Word) : (c.setAct a v).pmcPend = c.pmcPend := rfl
@[simp] theorem Chip.setAct_frozen (a : Nat) (v : Word) : (c.setAct a v).frozen = c.frozen := rfl
@[simp] theorem Chip.setAct_hst (a : Nat) (v : Word) : (c.setAct a v).hst = c.hst := rfl
@[simp] theorem Chip.setAct_drc (a : Nat) (v : Word) : (c.setAct a v).drc = c.drc := rfl
@[simp] theorem Chip.setAct_svc (a : Nat) (v : Word) : (c.setAct a v).svc = c.svc := rfl
@[simp] theorem Chip.setAct_ttu (a : Nat) (v : Word) : (c.setAct a v).ttu = c.ttu := rfl
@[simp] theorem Chip.setAct_eth (a : Nat) (v : Word) : (c.setAct a v).eth = c.eth := rfl
@[simp] theorem Chip.setAct_hd (a : Nat) (v : Word) : (c.setAct a v).hd = c.hd := rfl
@[simp] theorem Chip.setAct_scn (a : Nat) (v : Word) : (c.setAct a v).scn = c.scn := rfl
@[simp] theorem Chip.setAct_mpc (a : Nat) (v : Word) : (c.setAct a v).mpc = c.mpc := rfl
@[simp] theorem Chip.setAct_cam (a : Nat) (v : Word) : (c.setAct a v).cam = c.cam := rfl
@[simp] theorem Chip.setAct_camShared (a : Nat) (v : Word) : (c.setAct a v).camShared = c.camShared := rfl
@[simp] theorem Chip.setAct_port (a : Nat) (v : Word) : (c.setAct a v).port = c.port := rfl
@[simp] theorem Chip.setAct_axis (a : Nat) (v : Word) : (c.setAct a v).axis = c.axis := rfl
@[simp] theorem Chip.setAct_island (a : Nat) (v : Word) : (c.setAct a v).island = c.island := rfl
@[simp] theorem Chip.setAct_lane (a : Nat) (v : Word) : (c.setAct a v).lane = c.lane := rfl
@[simp] theorem Chip.setAct_dsp (a : Nat) (v : Word) : (c.setAct a v).dsp = c.dsp := rfl
@[simp] theorem Chip.setAct_asy (a : Nat) (v : Word) : (c.setAct a v).asy = c.asy := rfl
@[simp] theorem Chip.setAct_mon (a : Nat) (v : Word) : (c.setAct a v).mon = c.mon := rfl
@[simp] theorem Chip.setAct_reg (a : Nat) (v : Word) : (c.setAct a v).reg = c.reg := rfl

@[simp] theorem Chip.issue_heads (w : MemWrite) : (c.issue w).heads = c.heads := rfl
@[simp] theorem Chip.issue_regs (w : MemWrite) : (c.issue w).regs = c.regs := rfl
@[simp] theorem Chip.issue_acts (w : MemWrite) : (c.issue w).acts = c.acts := rfl
@[simp] theorem Chip.issue_rdata (w : MemWrite) : (c.issue w).rdata = c.rdata := rfl
@[simp] theorem Chip.issue_rbytes (w : MemWrite) : (c.issue w).rbytes = c.rbytes := rfl
@[simp] theorem Chip.issue_rbad (w : MemWrite) : (c.issue w).rbad = c.rbad := rfl
@[simp] theorem Chip.issue_views (w : MemWrite) : (c.issue w).views = c.views := rfl
@[simp] theorem Chip.issue_staged (w : MemWrite) : (c.issue w).staged = c.staged := rfl
@[simp] theorem Chip.issue_derr (w : MemWrite) : (c.issue w).derr = c.derr := rfl
@[simp] theorem Chip.issue_fresh (w : MemWrite) : (c.issue w).fresh = c.fresh := rfl
@[simp] theorem Chip.issue_evr (w : MemWrite) : (c.issue w).evr = c.evr := rfl
@[simp] theorem Chip.issue_pmcPend (w : MemWrite) : (c.issue w).pmcPend = c.pmcPend := rfl
@[simp] theorem Chip.issue_frozen (w : MemWrite) : (c.issue w).frozen = c.frozen := rfl
@[simp] theorem Chip.issue_hst (w : MemWrite) : (c.issue w).hst = c.hst := rfl
@[simp] theorem Chip.issue_drc (w : MemWrite) : (c.issue w).drc = c.drc := rfl
@[simp] theorem Chip.issue_svc (w : MemWrite) : (c.issue w).svc = c.svc := rfl
@[simp] theorem Chip.issue_ttu (w : MemWrite) : (c.issue w).ttu = c.ttu := rfl
@[simp] theorem Chip.issue_eth (w : MemWrite) : (c.issue w).eth = c.eth := rfl
@[simp] theorem Chip.issue_hd (w : MemWrite) : (c.issue w).hd = c.hd := rfl
@[simp] theorem Chip.issue_scn (w : MemWrite) : (c.issue w).scn = c.scn := rfl
@[simp] theorem Chip.issue_mpc (w : MemWrite) : (c.issue w).mpc = c.mpc := rfl
@[simp] theorem Chip.issue_cam (w : MemWrite) : (c.issue w).cam = c.cam := rfl
@[simp] theorem Chip.issue_camShared (w : MemWrite) : (c.issue w).camShared = c.camShared := rfl
@[simp] theorem Chip.issue_port (w : MemWrite) : (c.issue w).port = c.port := rfl
@[simp] theorem Chip.issue_axis (w : MemWrite) : (c.issue w).axis = c.axis := rfl
@[simp] theorem Chip.issue_island (w : MemWrite) : (c.issue w).island = c.island := rfl
@[simp] theorem Chip.issue_lane (w : MemWrite) : (c.issue w).lane = c.lane := rfl
@[simp] theorem Chip.issue_dsp (w : MemWrite) : (c.issue w).dsp = c.dsp := rfl
@[simp] theorem Chip.issue_asy (w : MemWrite) : (c.issue w).asy = c.asy := rfl
@[simp] theorem Chip.issue_mon (w : MemWrite) : (c.issue w).mon = c.mon := rfl
@[simp] theorem Chip.issue_reg (w : MemWrite) : (c.issue w).reg = c.reg := rfl

@[simp] theorem Chip.answer_heads (v : Word) : (c.answer v).heads = c.heads := rfl
@[simp] theorem Chip.answer_regs (v : Word) : (c.answer v).regs = c.regs := rfl
@[simp] theorem Chip.answer_acts (v : Word) : (c.answer v).acts = c.acts := rfl
@[simp] theorem Chip.answer_rbytes (v : Word) : (c.answer v).rbytes = c.rbytes := rfl
@[simp] theorem Chip.answer_rbad (v : Word) : (c.answer v).rbad = c.rbad := rfl
@[simp] theorem Chip.answer_views (v : Word) : (c.answer v).views = c.views := rfl
@[simp] theorem Chip.answer_staged (v : Word) : (c.answer v).staged = c.staged := rfl
@[simp] theorem Chip.answer_outbox (v : Word) : (c.answer v).outbox = c.outbox := rfl
@[simp] theorem Chip.answer_derr (v : Word) : (c.answer v).derr = c.derr := rfl
@[simp] theorem Chip.answer_fresh (v : Word) : (c.answer v).fresh = c.fresh := rfl
@[simp] theorem Chip.answer_evr (v : Word) : (c.answer v).evr = c.evr := rfl
@[simp] theorem Chip.answer_pmcPend (v : Word) : (c.answer v).pmcPend = c.pmcPend := rfl
@[simp] theorem Chip.answer_frozen (v : Word) : (c.answer v).frozen = c.frozen := rfl
@[simp] theorem Chip.answer_hst (v : Word) : (c.answer v).hst = c.hst := rfl
@[simp] theorem Chip.answer_drc (v : Word) : (c.answer v).drc = c.drc := rfl
@[simp] theorem Chip.answer_svc (v : Word) : (c.answer v).svc = c.svc := rfl
@[simp] theorem Chip.answer_ttu (v : Word) : (c.answer v).ttu = c.ttu := rfl
@[simp] theorem Chip.answer_eth (v : Word) : (c.answer v).eth = c.eth := rfl
@[simp] theorem Chip.answer_hd (v : Word) : (c.answer v).hd = c.hd := rfl
@[simp] theorem Chip.answer_scn (v : Word) : (c.answer v).scn = c.scn := rfl
@[simp] theorem Chip.answer_mpc (v : Word) : (c.answer v).mpc = c.mpc := rfl
@[simp] theorem Chip.answer_cam (v : Word) : (c.answer v).cam = c.cam := rfl
@[simp] theorem Chip.answer_camShared (v : Word) : (c.answer v).camShared = c.camShared := rfl
@[simp] theorem Chip.answer_port (v : Word) : (c.answer v).port = c.port := rfl
@[simp] theorem Chip.answer_axis (v : Word) : (c.answer v).axis = c.axis := rfl
@[simp] theorem Chip.answer_island (v : Word) : (c.answer v).island = c.island := rfl
@[simp] theorem Chip.answer_lane (v : Word) : (c.answer v).lane = c.lane := rfl
@[simp] theorem Chip.answer_dsp (v : Word) : (c.answer v).dsp = c.dsp := rfl
@[simp] theorem Chip.answer_asy (v : Word) : (c.answer v).asy = c.asy := rfl
@[simp] theorem Chip.answer_mon (v : Word) : (c.answer v).mon = c.mon := rfl
@[simp] theorem Chip.answer_reg (v : Word) : (c.answer v).reg = c.reg := rfl

@[simp] theorem Chip.stage_heads (q : Requester) (a : Nat) (v : Word) : (c.stage q a v).heads = c.heads := rfl
@[simp] theorem Chip.stage_regs (q : Requester) (a : Nat) (v : Word) : (c.stage q a v).regs = c.regs := rfl
@[simp] theorem Chip.stage_acts (q : Requester) (a : Nat) (v : Word) : (c.stage q a v).acts = c.acts := rfl
@[simp] theorem Chip.stage_rdata (q : Requester) (a : Nat) (v : Word) : (c.stage q a v).rdata = c.rdata := rfl
@[simp] theorem Chip.stage_rbytes (q : Requester) (a : Nat) (v : Word) : (c.stage q a v).rbytes = c.rbytes := rfl
@[simp] theorem Chip.stage_rbad (q : Requester) (a : Nat) (v : Word) : (c.stage q a v).rbad = c.rbad := rfl
@[simp] theorem Chip.stage_views (q : Requester) (a : Nat) (v : Word) : (c.stage q a v).views = c.views := rfl
@[simp] theorem Chip.stage_outbox (q : Requester) (a : Nat) (v : Word) : (c.stage q a v).outbox = c.outbox := rfl
@[simp] theorem Chip.stage_derr (q : Requester) (a : Nat) (v : Word) : (c.stage q a v).derr = c.derr := rfl
@[simp] theorem Chip.stage_fresh (q : Requester) (a : Nat) (v : Word) : (c.stage q a v).fresh = c.fresh := rfl
@[simp] theorem Chip.stage_evr (q : Requester) (a : Nat) (v : Word) : (c.stage q a v).evr = c.evr := rfl
@[simp] theorem Chip.stage_pmcPend (q : Requester) (a : Nat) (v : Word) : (c.stage q a v).pmcPend = c.pmcPend := rfl
@[simp] theorem Chip.stage_frozen (q : Requester) (a : Nat) (v : Word) : (c.stage q a v).frozen = c.frozen := rfl
@[simp] theorem Chip.stage_hst (q : Requester) (a : Nat) (v : Word) : (c.stage q a v).hst = c.hst := rfl
@[simp] theorem Chip.stage_drc (q : Requester) (a : Nat) (v : Word) : (c.stage q a v).drc = c.drc := rfl
@[simp] theorem Chip.stage_svc (q : Requester) (a : Nat) (v : Word) : (c.stage q a v).svc = c.svc := rfl
@[simp] theorem Chip.stage_ttu (q : Requester) (a : Nat) (v : Word) : (c.stage q a v).ttu = c.ttu := rfl
@[simp] theorem Chip.stage_eth (q : Requester) (a : Nat) (v : Word) : (c.stage q a v).eth = c.eth := rfl
@[simp] theorem Chip.stage_hd (q : Requester) (a : Nat) (v : Word) : (c.stage q a v).hd = c.hd := rfl
@[simp] theorem Chip.stage_scn (q : Requester) (a : Nat) (v : Word) : (c.stage q a v).scn = c.scn := rfl
@[simp] theorem Chip.stage_mpc (q : Requester) (a : Nat) (v : Word) : (c.stage q a v).mpc = c.mpc := rfl
@[simp] theorem Chip.stage_cam (q : Requester) (a : Nat) (v : Word) : (c.stage q a v).cam = c.cam := rfl
@[simp] theorem Chip.stage_camShared (q : Requester) (a : Nat) (v : Word) : (c.stage q a v).camShared = c.camShared := rfl
@[simp] theorem Chip.stage_port (q : Requester) (a : Nat) (v : Word) : (c.stage q a v).port = c.port := rfl
@[simp] theorem Chip.stage_axis (q : Requester) (a : Nat) (v : Word) : (c.stage q a v).axis = c.axis := rfl
@[simp] theorem Chip.stage_island (q : Requester) (a : Nat) (v : Word) : (c.stage q a v).island = c.island := rfl
@[simp] theorem Chip.stage_lane (q : Requester) (a : Nat) (v : Word) : (c.stage q a v).lane = c.lane := rfl
@[simp] theorem Chip.stage_dsp (q : Requester) (a : Nat) (v : Word) : (c.stage q a v).dsp = c.dsp := rfl
@[simp] theorem Chip.stage_asy (q : Requester) (a : Nat) (v : Word) : (c.stage q a v).asy = c.asy := rfl
@[simp] theorem Chip.stage_mon (q : Requester) (a : Nat) (v : Word) : (c.stage q a v).mon = c.mon := rfl
@[simp] theorem Chip.stage_reg (q : Requester) (a : Nat) (v : Word) : (c.stage q a v).reg = c.reg := rfl

@[simp] theorem Chip.closeView_heads (q : Requester) (g : Nat) : (c.closeView q g).heads = c.heads := rfl
@[simp] theorem Chip.closeView_regs (q : Requester) (g : Nat) : (c.closeView q g).regs = c.regs := rfl
@[simp] theorem Chip.closeView_acts (q : Requester) (g : Nat) : (c.closeView q g).acts = c.acts := rfl
@[simp] theorem Chip.closeView_rdata (q : Requester) (g : Nat) : (c.closeView q g).rdata = c.rdata := rfl
@[simp] theorem Chip.closeView_rbytes (q : Requester) (g : Nat) : (c.closeView q g).rbytes = c.rbytes := rfl
@[simp] theorem Chip.closeView_rbad (q : Requester) (g : Nat) : (c.closeView q g).rbad = c.rbad := rfl
@[simp] theorem Chip.closeView_staged (q : Requester) (g : Nat) : (c.closeView q g).staged = c.staged := rfl
@[simp] theorem Chip.closeView_outbox (q : Requester) (g : Nat) : (c.closeView q g).outbox = c.outbox := rfl
@[simp] theorem Chip.closeView_derr (q : Requester) (g : Nat) : (c.closeView q g).derr = c.derr := rfl
@[simp] theorem Chip.closeView_fresh (q : Requester) (g : Nat) : (c.closeView q g).fresh = c.fresh := rfl
@[simp] theorem Chip.closeView_evr (q : Requester) (g : Nat) : (c.closeView q g).evr = c.evr := rfl
@[simp] theorem Chip.closeView_pmcPend (q : Requester) (g : Nat) : (c.closeView q g).pmcPend = c.pmcPend := rfl
@[simp] theorem Chip.closeView_frozen (q : Requester) (g : Nat) : (c.closeView q g).frozen = c.frozen := rfl
@[simp] theorem Chip.closeView_hst (q : Requester) (g : Nat) : (c.closeView q g).hst = c.hst := rfl
@[simp] theorem Chip.closeView_drc (q : Requester) (g : Nat) : (c.closeView q g).drc = c.drc := rfl
@[simp] theorem Chip.closeView_svc (q : Requester) (g : Nat) : (c.closeView q g).svc = c.svc := rfl
@[simp] theorem Chip.closeView_ttu (q : Requester) (g : Nat) : (c.closeView q g).ttu = c.ttu := rfl
@[simp] theorem Chip.closeView_eth (q : Requester) (g : Nat) : (c.closeView q g).eth = c.eth := rfl
@[simp] theorem Chip.closeView_hd (q : Requester) (g : Nat) : (c.closeView q g).hd = c.hd := rfl
@[simp] theorem Chip.closeView_scn (q : Requester) (g : Nat) : (c.closeView q g).scn = c.scn := rfl
@[simp] theorem Chip.closeView_mpc (q : Requester) (g : Nat) : (c.closeView q g).mpc = c.mpc := rfl
@[simp] theorem Chip.closeView_cam (q : Requester) (g : Nat) : (c.closeView q g).cam = c.cam := rfl
@[simp] theorem Chip.closeView_camShared (q : Requester) (g : Nat) : (c.closeView q g).camShared = c.camShared := rfl
@[simp] theorem Chip.closeView_port (q : Requester) (g : Nat) : (c.closeView q g).port = c.port := rfl
@[simp] theorem Chip.closeView_axis (q : Requester) (g : Nat) : (c.closeView q g).axis = c.axis := rfl
@[simp] theorem Chip.closeView_island (q : Requester) (g : Nat) : (c.closeView q g).island = c.island := rfl
@[simp] theorem Chip.closeView_lane (q : Requester) (g : Nat) : (c.closeView q g).lane = c.lane := rfl
@[simp] theorem Chip.closeView_dsp (q : Requester) (g : Nat) : (c.closeView q g).dsp = c.dsp := rfl
@[simp] theorem Chip.closeView_asy (q : Requester) (g : Nat) : (c.closeView q g).asy = c.asy := rfl
@[simp] theorem Chip.closeView_mon (q : Requester) (g : Nat) : (c.closeView q g).mon = c.mon := rfl
@[simp] theorem Chip.closeView_reg (q : Requester) (g : Nat) : (c.closeView q g).reg = c.reg := rfl

@[simp] theorem Chip.onEvr_heads (f : Evr → Evr) : (c.onEvr f).heads = c.heads := rfl
@[simp] theorem Chip.onEvr_regs (f : Evr → Evr) : (c.onEvr f).regs = c.regs := rfl
@[simp] theorem Chip.onEvr_acts (f : Evr → Evr) : (c.onEvr f).acts = c.acts := rfl
@[simp] theorem Chip.onEvr_rdata (f : Evr → Evr) : (c.onEvr f).rdata = c.rdata := rfl
@[simp] theorem Chip.onEvr_rbytes (f : Evr → Evr) : (c.onEvr f).rbytes = c.rbytes := rfl
@[simp] theorem Chip.onEvr_rbad (f : Evr → Evr) : (c.onEvr f).rbad = c.rbad := rfl
@[simp] theorem Chip.onEvr_views (f : Evr → Evr) : (c.onEvr f).views = c.views := rfl
@[simp] theorem Chip.onEvr_staged (f : Evr → Evr) : (c.onEvr f).staged = c.staged := rfl
@[simp] theorem Chip.onEvr_outbox (f : Evr → Evr) : (c.onEvr f).outbox = c.outbox := rfl
@[simp] theorem Chip.onEvr_derr (f : Evr → Evr) : (c.onEvr f).derr = c.derr := rfl
@[simp] theorem Chip.onEvr_fresh (f : Evr → Evr) : (c.onEvr f).fresh = c.fresh := rfl
@[simp] theorem Chip.onEvr_pmcPend (f : Evr → Evr) : (c.onEvr f).pmcPend = c.pmcPend := rfl
@[simp] theorem Chip.onEvr_frozen (f : Evr → Evr) : (c.onEvr f).frozen = c.frozen := rfl
@[simp] theorem Chip.onEvr_hst (f : Evr → Evr) : (c.onEvr f).hst = c.hst := rfl
@[simp] theorem Chip.onEvr_drc (f : Evr → Evr) : (c.onEvr f).drc = c.drc := rfl
@[simp] theorem Chip.onEvr_svc (f : Evr → Evr) : (c.onEvr f).svc = c.svc := rfl
@[simp] theorem Chip.onEvr_ttu (f : Evr → Evr) : (c.onEvr f).ttu = c.ttu := rfl
@[simp] theorem Chip.onEvr_eth (f : Evr → Evr) : (c.onEvr f).eth = c.eth := rfl
@[simp] theorem Chip.onEvr_hd (f : Evr → Evr) : (c.onEvr f).hd = c.hd := rfl
@[simp] theorem Chip.onEvr_scn (f : Evr → Evr) : (c.onEvr f).scn = c.scn := rfl
@[simp] theorem Chip.onEvr_mpc (f : Evr → Evr) : (c.onEvr f).mpc = c.mpc := rfl
@[simp] theorem Chip.onEvr_cam (f : Evr → Evr) : (c.onEvr f).cam = c.cam := rfl
@[simp] theorem Chip.onEvr_camShared (f : Evr → Evr) : (c.onEvr f).camShared = c.camShared := rfl
@[simp] theorem Chip.onEvr_port (f : Evr → Evr) : (c.onEvr f).port = c.port := rfl
@[simp] theorem Chip.onEvr_axis (f : Evr → Evr) : (c.onEvr f).axis = c.axis := rfl
@[simp] theorem Chip.onEvr_island (f : Evr → Evr) : (c.onEvr f).island = c.island := rfl
@[simp] theorem Chip.onEvr_lane (f : Evr → Evr) : (c.onEvr f).lane = c.lane := rfl
@[simp] theorem Chip.onEvr_dsp (f : Evr → Evr) : (c.onEvr f).dsp = c.dsp := rfl
@[simp] theorem Chip.onEvr_asy (f : Evr → Evr) : (c.onEvr f).asy = c.asy := rfl
@[simp] theorem Chip.onEvr_mon (f : Evr → Evr) : (c.onEvr f).mon = c.mon := rfl
@[simp] theorem Chip.onEvr_reg (f : Evr → Evr) : (c.onEvr f).reg = c.reg := rfl

@[simp] theorem Chip.onRing_heads (r : Fin 256) (f : Ring → Ring) : (c.onRing r f).heads = c.heads := rfl
@[simp] theorem Chip.onRing_regs (r : Fin 256) (f : Ring → Ring) : (c.onRing r f).regs = c.regs := rfl
@[simp] theorem Chip.onRing_acts (r : Fin 256) (f : Ring → Ring) : (c.onRing r f).acts = c.acts := rfl
@[simp] theorem Chip.onRing_rdata (r : Fin 256) (f : Ring → Ring) : (c.onRing r f).rdata = c.rdata := rfl
@[simp] theorem Chip.onRing_rbytes (r : Fin 256) (f : Ring → Ring) : (c.onRing r f).rbytes = c.rbytes := rfl
@[simp] theorem Chip.onRing_rbad (r : Fin 256) (f : Ring → Ring) : (c.onRing r f).rbad = c.rbad := rfl
@[simp] theorem Chip.onRing_views (r : Fin 256) (f : Ring → Ring) : (c.onRing r f).views = c.views := rfl
@[simp] theorem Chip.onRing_staged (r : Fin 256) (f : Ring → Ring) : (c.onRing r f).staged = c.staged := rfl
@[simp] theorem Chip.onRing_outbox (r : Fin 256) (f : Ring → Ring) : (c.onRing r f).outbox = c.outbox := rfl
@[simp] theorem Chip.onRing_derr (r : Fin 256) (f : Ring → Ring) : (c.onRing r f).derr = c.derr := rfl
@[simp] theorem Chip.onRing_fresh (r : Fin 256) (f : Ring → Ring) : (c.onRing r f).fresh = c.fresh := rfl
@[simp] theorem Chip.onRing_evr (r : Fin 256) (f : Ring → Ring) : (c.onRing r f).evr = c.evr := rfl
@[simp] theorem Chip.onRing_pmcPend (r : Fin 256) (f : Ring → Ring) : (c.onRing r f).pmcPend = c.pmcPend := rfl
@[simp] theorem Chip.onRing_frozen (r : Fin 256) (f : Ring → Ring) : (c.onRing r f).frozen = c.frozen := rfl
@[simp] theorem Chip.onRing_drc (r : Fin 256) (f : Ring → Ring) : (c.onRing r f).drc = c.drc := rfl
@[simp] theorem Chip.onRing_svc (r : Fin 256) (f : Ring → Ring) : (c.onRing r f).svc = c.svc := rfl
@[simp] theorem Chip.onRing_ttu (r : Fin 256) (f : Ring → Ring) : (c.onRing r f).ttu = c.ttu := rfl
@[simp] theorem Chip.onRing_eth (r : Fin 256) (f : Ring → Ring) : (c.onRing r f).eth = c.eth := rfl
@[simp] theorem Chip.onRing_hd (r : Fin 256) (f : Ring → Ring) : (c.onRing r f).hd = c.hd := rfl
@[simp] theorem Chip.onRing_scn (r : Fin 256) (f : Ring → Ring) : (c.onRing r f).scn = c.scn := rfl
@[simp] theorem Chip.onRing_mpc (r : Fin 256) (f : Ring → Ring) : (c.onRing r f).mpc = c.mpc := rfl
@[simp] theorem Chip.onRing_cam (r : Fin 256) (f : Ring → Ring) : (c.onRing r f).cam = c.cam := rfl
@[simp] theorem Chip.onRing_camShared (r : Fin 256) (f : Ring → Ring) : (c.onRing r f).camShared = c.camShared := rfl
@[simp] theorem Chip.onRing_port (r : Fin 256) (f : Ring → Ring) : (c.onRing r f).port = c.port := rfl
@[simp] theorem Chip.onRing_axis (r : Fin 256) (f : Ring → Ring) : (c.onRing r f).axis = c.axis := rfl
@[simp] theorem Chip.onRing_island (r : Fin 256) (f : Ring → Ring) : (c.onRing r f).island = c.island := rfl
@[simp] theorem Chip.onRing_lane (r : Fin 256) (f : Ring → Ring) : (c.onRing r f).lane = c.lane := rfl
@[simp] theorem Chip.onRing_dsp (r : Fin 256) (f : Ring → Ring) : (c.onRing r f).dsp = c.dsp := rfl
@[simp] theorem Chip.onRing_asy (r : Fin 256) (f : Ring → Ring) : (c.onRing r f).asy = c.asy := rfl
@[simp] theorem Chip.onRing_mon (r : Fin 256) (f : Ring → Ring) : (c.onRing r f).mon = c.mon := rfl
@[simp] theorem Chip.onRing_reg (r : Fin 256) (f : Ring → Ring) : (c.onRing r f).reg = c.reg := rfl

@[simp] theorem Chip.onLease_heads (i : Fin 16) (f : Lease → Lease) : (c.onLease i f).heads = c.heads := rfl
@[simp] theorem Chip.onLease_regs (i : Fin 16) (f : Lease → Lease) : (c.onLease i f).regs = c.regs := rfl
@[simp] theorem Chip.onLease_acts (i : Fin 16) (f : Lease → Lease) : (c.onLease i f).acts = c.acts := rfl
@[simp] theorem Chip.onLease_rdata (i : Fin 16) (f : Lease → Lease) : (c.onLease i f).rdata = c.rdata := rfl
@[simp] theorem Chip.onLease_rbytes (i : Fin 16) (f : Lease → Lease) : (c.onLease i f).rbytes = c.rbytes := rfl
@[simp] theorem Chip.onLease_rbad (i : Fin 16) (f : Lease → Lease) : (c.onLease i f).rbad = c.rbad := rfl
@[simp] theorem Chip.onLease_views (i : Fin 16) (f : Lease → Lease) : (c.onLease i f).views = c.views := rfl
@[simp] theorem Chip.onLease_staged (i : Fin 16) (f : Lease → Lease) : (c.onLease i f).staged = c.staged := rfl
@[simp] theorem Chip.onLease_outbox (i : Fin 16) (f : Lease → Lease) : (c.onLease i f).outbox = c.outbox := rfl
@[simp] theorem Chip.onLease_derr (i : Fin 16) (f : Lease → Lease) : (c.onLease i f).derr = c.derr := rfl
@[simp] theorem Chip.onLease_fresh (i : Fin 16) (f : Lease → Lease) : (c.onLease i f).fresh = c.fresh := rfl
@[simp] theorem Chip.onLease_evr (i : Fin 16) (f : Lease → Lease) : (c.onLease i f).evr = c.evr := rfl
@[simp] theorem Chip.onLease_pmcPend (i : Fin 16) (f : Lease → Lease) : (c.onLease i f).pmcPend = c.pmcPend := rfl
@[simp] theorem Chip.onLease_frozen (i : Fin 16) (f : Lease → Lease) : (c.onLease i f).frozen = c.frozen := rfl
@[simp] theorem Chip.onLease_drc (i : Fin 16) (f : Lease → Lease) : (c.onLease i f).drc = c.drc := rfl
@[simp] theorem Chip.onLease_svc (i : Fin 16) (f : Lease → Lease) : (c.onLease i f).svc = c.svc := rfl
@[simp] theorem Chip.onLease_ttu (i : Fin 16) (f : Lease → Lease) : (c.onLease i f).ttu = c.ttu := rfl
@[simp] theorem Chip.onLease_eth (i : Fin 16) (f : Lease → Lease) : (c.onLease i f).eth = c.eth := rfl
@[simp] theorem Chip.onLease_hd (i : Fin 16) (f : Lease → Lease) : (c.onLease i f).hd = c.hd := rfl
@[simp] theorem Chip.onLease_scn (i : Fin 16) (f : Lease → Lease) : (c.onLease i f).scn = c.scn := rfl
@[simp] theorem Chip.onLease_mpc (i : Fin 16) (f : Lease → Lease) : (c.onLease i f).mpc = c.mpc := rfl
@[simp] theorem Chip.onLease_cam (i : Fin 16) (f : Lease → Lease) : (c.onLease i f).cam = c.cam := rfl
@[simp] theorem Chip.onLease_camShared (i : Fin 16) (f : Lease → Lease) : (c.onLease i f).camShared = c.camShared := rfl
@[simp] theorem Chip.onLease_port (i : Fin 16) (f : Lease → Lease) : (c.onLease i f).port = c.port := rfl
@[simp] theorem Chip.onLease_axis (i : Fin 16) (f : Lease → Lease) : (c.onLease i f).axis = c.axis := rfl
@[simp] theorem Chip.onLease_island (i : Fin 16) (f : Lease → Lease) : (c.onLease i f).island = c.island := rfl
@[simp] theorem Chip.onLease_lane (i : Fin 16) (f : Lease → Lease) : (c.onLease i f).lane = c.lane := rfl
@[simp] theorem Chip.onLease_dsp (i : Fin 16) (f : Lease → Lease) : (c.onLease i f).dsp = c.dsp := rfl
@[simp] theorem Chip.onLease_asy (i : Fin 16) (f : Lease → Lease) : (c.onLease i f).asy = c.asy := rfl
@[simp] theorem Chip.onLease_mon (i : Fin 16) (f : Lease → Lease) : (c.onLease i f).mon = c.mon := rfl
@[simp] theorem Chip.onLease_reg (i : Fin 16) (f : Lease → Lease) : (c.onLease i f).reg = c.reg := rfl

@[simp] theorem Chip.onDrc_heads (f : Drc → Drc) : (c.onDrc f).heads = c.heads := rfl
@[simp] theorem Chip.onDrc_regs (f : Drc → Drc) : (c.onDrc f).regs = c.regs := rfl
@[simp] theorem Chip.onDrc_acts (f : Drc → Drc) : (c.onDrc f).acts = c.acts := rfl
@[simp] theorem Chip.onDrc_rdata (f : Drc → Drc) : (c.onDrc f).rdata = c.rdata := rfl
@[simp] theorem Chip.onDrc_rbytes (f : Drc → Drc) : (c.onDrc f).rbytes = c.rbytes := rfl
@[simp] theorem Chip.onDrc_rbad (f : Drc → Drc) : (c.onDrc f).rbad = c.rbad := rfl
@[simp] theorem Chip.onDrc_views (f : Drc → Drc) : (c.onDrc f).views = c.views := rfl
@[simp] theorem Chip.onDrc_staged (f : Drc → Drc) : (c.onDrc f).staged = c.staged := rfl
@[simp] theorem Chip.onDrc_outbox (f : Drc → Drc) : (c.onDrc f).outbox = c.outbox := rfl
@[simp] theorem Chip.onDrc_derr (f : Drc → Drc) : (c.onDrc f).derr = c.derr := rfl
@[simp] theorem Chip.onDrc_fresh (f : Drc → Drc) : (c.onDrc f).fresh = c.fresh := rfl
@[simp] theorem Chip.onDrc_evr (f : Drc → Drc) : (c.onDrc f).evr = c.evr := rfl
@[simp] theorem Chip.onDrc_pmcPend (f : Drc → Drc) : (c.onDrc f).pmcPend = c.pmcPend := rfl
@[simp] theorem Chip.onDrc_frozen (f : Drc → Drc) : (c.onDrc f).frozen = c.frozen := rfl
@[simp] theorem Chip.onDrc_hst (f : Drc → Drc) : (c.onDrc f).hst = c.hst := rfl
@[simp] theorem Chip.onDrc_svc (f : Drc → Drc) : (c.onDrc f).svc = c.svc := rfl
@[simp] theorem Chip.onDrc_ttu (f : Drc → Drc) : (c.onDrc f).ttu = c.ttu := rfl
@[simp] theorem Chip.onDrc_eth (f : Drc → Drc) : (c.onDrc f).eth = c.eth := rfl
@[simp] theorem Chip.onDrc_hd (f : Drc → Drc) : (c.onDrc f).hd = c.hd := rfl
@[simp] theorem Chip.onDrc_scn (f : Drc → Drc) : (c.onDrc f).scn = c.scn := rfl
@[simp] theorem Chip.onDrc_mpc (f : Drc → Drc) : (c.onDrc f).mpc = c.mpc := rfl
@[simp] theorem Chip.onDrc_cam (f : Drc → Drc) : (c.onDrc f).cam = c.cam := rfl
@[simp] theorem Chip.onDrc_camShared (f : Drc → Drc) : (c.onDrc f).camShared = c.camShared := rfl
@[simp] theorem Chip.onDrc_port (f : Drc → Drc) : (c.onDrc f).port = c.port := rfl
@[simp] theorem Chip.onDrc_axis (f : Drc → Drc) : (c.onDrc f).axis = c.axis := rfl
@[simp] theorem Chip.onDrc_island (f : Drc → Drc) : (c.onDrc f).island = c.island := rfl
@[simp] theorem Chip.onDrc_lane (f : Drc → Drc) : (c.onDrc f).lane = c.lane := rfl
@[simp] theorem Chip.onDrc_dsp (f : Drc → Drc) : (c.onDrc f).dsp = c.dsp := rfl
@[simp] theorem Chip.onDrc_asy (f : Drc → Drc) : (c.onDrc f).asy = c.asy := rfl
@[simp] theorem Chip.onDrc_mon (f : Drc → Drc) : (c.onDrc f).mon = c.mon := rfl
@[simp] theorem Chip.onDrc_reg (f : Drc → Drc) : (c.onDrc f).reg = c.reg := rfl

@[simp] theorem Chip.onSvc_heads (f : Svc → Svc) : (c.onSvc f).heads = c.heads := rfl
@[simp] theorem Chip.onSvc_regs (f : Svc → Svc) : (c.onSvc f).regs = c.regs := rfl
@[simp] theorem Chip.onSvc_acts (f : Svc → Svc) : (c.onSvc f).acts = c.acts := rfl
@[simp] theorem Chip.onSvc_rdata (f : Svc → Svc) : (c.onSvc f).rdata = c.rdata := rfl
@[simp] theorem Chip.onSvc_rbytes (f : Svc → Svc) : (c.onSvc f).rbytes = c.rbytes := rfl
@[simp] theorem Chip.onSvc_rbad (f : Svc → Svc) : (c.onSvc f).rbad = c.rbad := rfl
@[simp] theorem Chip.onSvc_views (f : Svc → Svc) : (c.onSvc f).views = c.views := rfl
@[simp] theorem Chip.onSvc_staged (f : Svc → Svc) : (c.onSvc f).staged = c.staged := rfl
@[simp] theorem Chip.onSvc_outbox (f : Svc → Svc) : (c.onSvc f).outbox = c.outbox := rfl
@[simp] theorem Chip.onSvc_derr (f : Svc → Svc) : (c.onSvc f).derr = c.derr := rfl
@[simp] theorem Chip.onSvc_fresh (f : Svc → Svc) : (c.onSvc f).fresh = c.fresh := rfl
@[simp] theorem Chip.onSvc_evr (f : Svc → Svc) : (c.onSvc f).evr = c.evr := rfl
@[simp] theorem Chip.onSvc_pmcPend (f : Svc → Svc) : (c.onSvc f).pmcPend = c.pmcPend := rfl
@[simp] theorem Chip.onSvc_frozen (f : Svc → Svc) : (c.onSvc f).frozen = c.frozen := rfl
@[simp] theorem Chip.onSvc_hst (f : Svc → Svc) : (c.onSvc f).hst = c.hst := rfl
@[simp] theorem Chip.onSvc_drc (f : Svc → Svc) : (c.onSvc f).drc = c.drc := rfl
@[simp] theorem Chip.onSvc_ttu (f : Svc → Svc) : (c.onSvc f).ttu = c.ttu := rfl
@[simp] theorem Chip.onSvc_eth (f : Svc → Svc) : (c.onSvc f).eth = c.eth := rfl
@[simp] theorem Chip.onSvc_hd (f : Svc → Svc) : (c.onSvc f).hd = c.hd := rfl
@[simp] theorem Chip.onSvc_scn (f : Svc → Svc) : (c.onSvc f).scn = c.scn := rfl
@[simp] theorem Chip.onSvc_mpc (f : Svc → Svc) : (c.onSvc f).mpc = c.mpc := rfl
@[simp] theorem Chip.onSvc_cam (f : Svc → Svc) : (c.onSvc f).cam = c.cam := rfl
@[simp] theorem Chip.onSvc_camShared (f : Svc → Svc) : (c.onSvc f).camShared = c.camShared := rfl
@[simp] theorem Chip.onSvc_port (f : Svc → Svc) : (c.onSvc f).port = c.port := rfl
@[simp] theorem Chip.onSvc_axis (f : Svc → Svc) : (c.onSvc f).axis = c.axis := rfl
@[simp] theorem Chip.onSvc_island (f : Svc → Svc) : (c.onSvc f).island = c.island := rfl
@[simp] theorem Chip.onSvc_lane (f : Svc → Svc) : (c.onSvc f).lane = c.lane := rfl
@[simp] theorem Chip.onSvc_dsp (f : Svc → Svc) : (c.onSvc f).dsp = c.dsp := rfl
@[simp] theorem Chip.onSvc_asy (f : Svc → Svc) : (c.onSvc f).asy = c.asy := rfl
@[simp] theorem Chip.onSvc_mon (f : Svc → Svc) : (c.onSvc f).mon = c.mon := rfl
@[simp] theorem Chip.onSvc_reg (f : Svc → Svc) : (c.onSvc f).reg = c.reg := rfl

@[simp] theorem Chip.onTtu_heads (f : Ttu → Ttu) : (c.onTtu f).heads = c.heads := rfl
@[simp] theorem Chip.onTtu_regs (f : Ttu → Ttu) : (c.onTtu f).regs = c.regs := rfl
@[simp] theorem Chip.onTtu_acts (f : Ttu → Ttu) : (c.onTtu f).acts = c.acts := rfl
@[simp] theorem Chip.onTtu_rdata (f : Ttu → Ttu) : (c.onTtu f).rdata = c.rdata := rfl
@[simp] theorem Chip.onTtu_rbytes (f : Ttu → Ttu) : (c.onTtu f).rbytes = c.rbytes := rfl
@[simp] theorem Chip.onTtu_rbad (f : Ttu → Ttu) : (c.onTtu f).rbad = c.rbad := rfl
@[simp] theorem Chip.onTtu_views (f : Ttu → Ttu) : (c.onTtu f).views = c.views := rfl
@[simp] theorem Chip.onTtu_staged (f : Ttu → Ttu) : (c.onTtu f).staged = c.staged := rfl
@[simp] theorem Chip.onTtu_outbox (f : Ttu → Ttu) : (c.onTtu f).outbox = c.outbox := rfl
@[simp] theorem Chip.onTtu_derr (f : Ttu → Ttu) : (c.onTtu f).derr = c.derr := rfl
@[simp] theorem Chip.onTtu_fresh (f : Ttu → Ttu) : (c.onTtu f).fresh = c.fresh := rfl
@[simp] theorem Chip.onTtu_evr (f : Ttu → Ttu) : (c.onTtu f).evr = c.evr := rfl
@[simp] theorem Chip.onTtu_pmcPend (f : Ttu → Ttu) : (c.onTtu f).pmcPend = c.pmcPend := rfl
@[simp] theorem Chip.onTtu_frozen (f : Ttu → Ttu) : (c.onTtu f).frozen = c.frozen := rfl
@[simp] theorem Chip.onTtu_hst (f : Ttu → Ttu) : (c.onTtu f).hst = c.hst := rfl
@[simp] theorem Chip.onTtu_drc (f : Ttu → Ttu) : (c.onTtu f).drc = c.drc := rfl
@[simp] theorem Chip.onTtu_svc (f : Ttu → Ttu) : (c.onTtu f).svc = c.svc := rfl
@[simp] theorem Chip.onTtu_eth (f : Ttu → Ttu) : (c.onTtu f).eth = c.eth := rfl
@[simp] theorem Chip.onTtu_hd (f : Ttu → Ttu) : (c.onTtu f).hd = c.hd := rfl
@[simp] theorem Chip.onTtu_scn (f : Ttu → Ttu) : (c.onTtu f).scn = c.scn := rfl
@[simp] theorem Chip.onTtu_mpc (f : Ttu → Ttu) : (c.onTtu f).mpc = c.mpc := rfl
@[simp] theorem Chip.onTtu_cam (f : Ttu → Ttu) : (c.onTtu f).cam = c.cam := rfl
@[simp] theorem Chip.onTtu_camShared (f : Ttu → Ttu) : (c.onTtu f).camShared = c.camShared := rfl
@[simp] theorem Chip.onTtu_port (f : Ttu → Ttu) : (c.onTtu f).port = c.port := rfl
@[simp] theorem Chip.onTtu_axis (f : Ttu → Ttu) : (c.onTtu f).axis = c.axis := rfl
@[simp] theorem Chip.onTtu_island (f : Ttu → Ttu) : (c.onTtu f).island = c.island := rfl
@[simp] theorem Chip.onTtu_lane (f : Ttu → Ttu) : (c.onTtu f).lane = c.lane := rfl
@[simp] theorem Chip.onTtu_dsp (f : Ttu → Ttu) : (c.onTtu f).dsp = c.dsp := rfl
@[simp] theorem Chip.onTtu_asy (f : Ttu → Ttu) : (c.onTtu f).asy = c.asy := rfl
@[simp] theorem Chip.onTtu_mon (f : Ttu → Ttu) : (c.onTtu f).mon = c.mon := rfl
@[simp] theorem Chip.onTtu_reg (f : Ttu → Ttu) : (c.onTtu f).reg = c.reg := rfl

@[simp] theorem Chip.onEth_heads (p : Fin 4) (f : EthPort → EthPort) : (c.onEth p f).heads = c.heads := rfl
@[simp] theorem Chip.onEth_regs (p : Fin 4) (f : EthPort → EthPort) : (c.onEth p f).regs = c.regs := rfl
@[simp] theorem Chip.onEth_acts (p : Fin 4) (f : EthPort → EthPort) : (c.onEth p f).acts = c.acts := rfl
@[simp] theorem Chip.onEth_rdata (p : Fin 4) (f : EthPort → EthPort) : (c.onEth p f).rdata = c.rdata := rfl
@[simp] theorem Chip.onEth_rbytes (p : Fin 4) (f : EthPort → EthPort) : (c.onEth p f).rbytes = c.rbytes := rfl
@[simp] theorem Chip.onEth_rbad (p : Fin 4) (f : EthPort → EthPort) : (c.onEth p f).rbad = c.rbad := rfl
@[simp] theorem Chip.onEth_views (p : Fin 4) (f : EthPort → EthPort) : (c.onEth p f).views = c.views := rfl
@[simp] theorem Chip.onEth_staged (p : Fin 4) (f : EthPort → EthPort) : (c.onEth p f).staged = c.staged := rfl
@[simp] theorem Chip.onEth_outbox (p : Fin 4) (f : EthPort → EthPort) : (c.onEth p f).outbox = c.outbox := rfl
@[simp] theorem Chip.onEth_derr (p : Fin 4) (f : EthPort → EthPort) : (c.onEth p f).derr = c.derr := rfl
@[simp] theorem Chip.onEth_fresh (p : Fin 4) (f : EthPort → EthPort) : (c.onEth p f).fresh = c.fresh := rfl
@[simp] theorem Chip.onEth_evr (p : Fin 4) (f : EthPort → EthPort) : (c.onEth p f).evr = c.evr := rfl
@[simp] theorem Chip.onEth_pmcPend (p : Fin 4) (f : EthPort → EthPort) : (c.onEth p f).pmcPend = c.pmcPend := rfl
@[simp] theorem Chip.onEth_frozen (p : Fin 4) (f : EthPort → EthPort) : (c.onEth p f).frozen = c.frozen := rfl
@[simp] theorem Chip.onEth_hst (p : Fin 4) (f : EthPort → EthPort) : (c.onEth p f).hst = c.hst := rfl
@[simp] theorem Chip.onEth_drc (p : Fin 4) (f : EthPort → EthPort) : (c.onEth p f).drc = c.drc := rfl
@[simp] theorem Chip.onEth_svc (p : Fin 4) (f : EthPort → EthPort) : (c.onEth p f).svc = c.svc := rfl
@[simp] theorem Chip.onEth_ttu (p : Fin 4) (f : EthPort → EthPort) : (c.onEth p f).ttu = c.ttu := rfl
@[simp] theorem Chip.onEth_hd (p : Fin 4) (f : EthPort → EthPort) : (c.onEth p f).hd = c.hd := rfl
@[simp] theorem Chip.onEth_scn (p : Fin 4) (f : EthPort → EthPort) : (c.onEth p f).scn = c.scn := rfl
@[simp] theorem Chip.onEth_mpc (p : Fin 4) (f : EthPort → EthPort) : (c.onEth p f).mpc = c.mpc := rfl
@[simp] theorem Chip.onEth_cam (p : Fin 4) (f : EthPort → EthPort) : (c.onEth p f).cam = c.cam := rfl
@[simp] theorem Chip.onEth_camShared (p : Fin 4) (f : EthPort → EthPort) : (c.onEth p f).camShared = c.camShared := rfl
@[simp] theorem Chip.onEth_port (p : Fin 4) (f : EthPort → EthPort) : (c.onEth p f).port = c.port := rfl
@[simp] theorem Chip.onEth_axis (p : Fin 4) (f : EthPort → EthPort) : (c.onEth p f).axis = c.axis := rfl
@[simp] theorem Chip.onEth_island (p : Fin 4) (f : EthPort → EthPort) : (c.onEth p f).island = c.island := rfl
@[simp] theorem Chip.onEth_lane (p : Fin 4) (f : EthPort → EthPort) : (c.onEth p f).lane = c.lane := rfl
@[simp] theorem Chip.onEth_dsp (p : Fin 4) (f : EthPort → EthPort) : (c.onEth p f).dsp = c.dsp := rfl
@[simp] theorem Chip.onEth_asy (p : Fin 4) (f : EthPort → EthPort) : (c.onEth p f).asy = c.asy := rfl
@[simp] theorem Chip.onEth_mon (p : Fin 4) (f : EthPort → EthPort) : (c.onEth p f).mon = c.mon := rfl
@[simp] theorem Chip.onEth_reg (p : Fin 4) (f : EthPort → EthPort) : (c.onEth p f).reg = c.reg := rfl

@[simp] theorem Chip.onHead_heads (h : Fin 64) (f : Head → Head) : (c.onHead h f).heads = c.heads := rfl
@[simp] theorem Chip.onHead_regs (h : Fin 64) (f : Head → Head) : (c.onHead h f).regs = c.regs := rfl
@[simp] theorem Chip.onHead_acts (h : Fin 64) (f : Head → Head) : (c.onHead h f).acts = c.acts := rfl
@[simp] theorem Chip.onHead_rdata (h : Fin 64) (f : Head → Head) : (c.onHead h f).rdata = c.rdata := rfl
@[simp] theorem Chip.onHead_rbytes (h : Fin 64) (f : Head → Head) : (c.onHead h f).rbytes = c.rbytes := rfl
@[simp] theorem Chip.onHead_rbad (h : Fin 64) (f : Head → Head) : (c.onHead h f).rbad = c.rbad := rfl
@[simp] theorem Chip.onHead_views (h : Fin 64) (f : Head → Head) : (c.onHead h f).views = c.views := rfl
@[simp] theorem Chip.onHead_staged (h : Fin 64) (f : Head → Head) : (c.onHead h f).staged = c.staged := rfl
@[simp] theorem Chip.onHead_outbox (h : Fin 64) (f : Head → Head) : (c.onHead h f).outbox = c.outbox := rfl
@[simp] theorem Chip.onHead_derr (h : Fin 64) (f : Head → Head) : (c.onHead h f).derr = c.derr := rfl
@[simp] theorem Chip.onHead_fresh (h : Fin 64) (f : Head → Head) : (c.onHead h f).fresh = c.fresh := rfl
@[simp] theorem Chip.onHead_evr (h : Fin 64) (f : Head → Head) : (c.onHead h f).evr = c.evr := rfl
@[simp] theorem Chip.onHead_pmcPend (h : Fin 64) (f : Head → Head) : (c.onHead h f).pmcPend = c.pmcPend := rfl
@[simp] theorem Chip.onHead_frozen (h : Fin 64) (f : Head → Head) : (c.onHead h f).frozen = c.frozen := rfl
@[simp] theorem Chip.onHead_hst (h : Fin 64) (f : Head → Head) : (c.onHead h f).hst = c.hst := rfl
@[simp] theorem Chip.onHead_drc (h : Fin 64) (f : Head → Head) : (c.onHead h f).drc = c.drc := rfl
@[simp] theorem Chip.onHead_svc (h : Fin 64) (f : Head → Head) : (c.onHead h f).svc = c.svc := rfl
@[simp] theorem Chip.onHead_ttu (h : Fin 64) (f : Head → Head) : (c.onHead h f).ttu = c.ttu := rfl
@[simp] theorem Chip.onHead_eth (h : Fin 64) (f : Head → Head) : (c.onHead h f).eth = c.eth := rfl
@[simp] theorem Chip.onHead_scn (h : Fin 64) (f : Head → Head) : (c.onHead h f).scn = c.scn := rfl
@[simp] theorem Chip.onHead_mpc (h : Fin 64) (f : Head → Head) : (c.onHead h f).mpc = c.mpc := rfl
@[simp] theorem Chip.onHead_cam (h : Fin 64) (f : Head → Head) : (c.onHead h f).cam = c.cam := rfl
@[simp] theorem Chip.onHead_camShared (h : Fin 64) (f : Head → Head) : (c.onHead h f).camShared = c.camShared := rfl
@[simp] theorem Chip.onHead_port (h : Fin 64) (f : Head → Head) : (c.onHead h f).port = c.port := rfl
@[simp] theorem Chip.onHead_axis (h : Fin 64) (f : Head → Head) : (c.onHead h f).axis = c.axis := rfl
@[simp] theorem Chip.onHead_island (h : Fin 64) (f : Head → Head) : (c.onHead h f).island = c.island := rfl
@[simp] theorem Chip.onHead_lane (h : Fin 64) (f : Head → Head) : (c.onHead h f).lane = c.lane := rfl
@[simp] theorem Chip.onHead_dsp (h : Fin 64) (f : Head → Head) : (c.onHead h f).dsp = c.dsp := rfl
@[simp] theorem Chip.onHead_asy (h : Fin 64) (f : Head → Head) : (c.onHead h f).asy = c.asy := rfl
@[simp] theorem Chip.onHead_mon (h : Fin 64) (f : Head → Head) : (c.onHead h f).mon = c.mon := rfl
@[simp] theorem Chip.onHead_reg (h : Fin 64) (f : Head → Head) : (c.onHead h f).reg = c.reg := rfl

@[simp] theorem Chip.onLayer_heads (f : Layer → Layer) : (c.onLayer f).heads = c.heads := rfl
@[simp] theorem Chip.onLayer_regs (f : Layer → Layer) : (c.onLayer f).regs = c.regs := rfl
@[simp] theorem Chip.onLayer_acts (f : Layer → Layer) : (c.onLayer f).acts = c.acts := rfl
@[simp] theorem Chip.onLayer_rdata (f : Layer → Layer) : (c.onLayer f).rdata = c.rdata := rfl
@[simp] theorem Chip.onLayer_rbytes (f : Layer → Layer) : (c.onLayer f).rbytes = c.rbytes := rfl
@[simp] theorem Chip.onLayer_rbad (f : Layer → Layer) : (c.onLayer f).rbad = c.rbad := rfl
@[simp] theorem Chip.onLayer_views (f : Layer → Layer) : (c.onLayer f).views = c.views := rfl
@[simp] theorem Chip.onLayer_staged (f : Layer → Layer) : (c.onLayer f).staged = c.staged := rfl
@[simp] theorem Chip.onLayer_outbox (f : Layer → Layer) : (c.onLayer f).outbox = c.outbox := rfl
@[simp] theorem Chip.onLayer_derr (f : Layer → Layer) : (c.onLayer f).derr = c.derr := rfl
@[simp] theorem Chip.onLayer_fresh (f : Layer → Layer) : (c.onLayer f).fresh = c.fresh := rfl
@[simp] theorem Chip.onLayer_evr (f : Layer → Layer) : (c.onLayer f).evr = c.evr := rfl
@[simp] theorem Chip.onLayer_pmcPend (f : Layer → Layer) : (c.onLayer f).pmcPend = c.pmcPend := rfl
@[simp] theorem Chip.onLayer_frozen (f : Layer → Layer) : (c.onLayer f).frozen = c.frozen := rfl
@[simp] theorem Chip.onLayer_hst (f : Layer → Layer) : (c.onLayer f).hst = c.hst := rfl
@[simp] theorem Chip.onLayer_drc (f : Layer → Layer) : (c.onLayer f).drc = c.drc := rfl
@[simp] theorem Chip.onLayer_svc (f : Layer → Layer) : (c.onLayer f).svc = c.svc := rfl
@[simp] theorem Chip.onLayer_ttu (f : Layer → Layer) : (c.onLayer f).ttu = c.ttu := rfl
@[simp] theorem Chip.onLayer_eth (f : Layer → Layer) : (c.onLayer f).eth = c.eth := rfl
@[simp] theorem Chip.onLayer_hd (f : Layer → Layer) : (c.onLayer f).hd = c.hd := rfl
@[simp] theorem Chip.onLayer_mpc (f : Layer → Layer) : (c.onLayer f).mpc = c.mpc := rfl
@[simp] theorem Chip.onLayer_cam (f : Layer → Layer) : (c.onLayer f).cam = c.cam := rfl
@[simp] theorem Chip.onLayer_camShared (f : Layer → Layer) : (c.onLayer f).camShared = c.camShared := rfl
@[simp] theorem Chip.onLayer_port (f : Layer → Layer) : (c.onLayer f).port = c.port := rfl
@[simp] theorem Chip.onLayer_axis (f : Layer → Layer) : (c.onLayer f).axis = c.axis := rfl
@[simp] theorem Chip.onLayer_island (f : Layer → Layer) : (c.onLayer f).island = c.island := rfl
@[simp] theorem Chip.onLayer_lane (f : Layer → Layer) : (c.onLayer f).lane = c.lane := rfl
@[simp] theorem Chip.onLayer_dsp (f : Layer → Layer) : (c.onLayer f).dsp = c.dsp := rfl
@[simp] theorem Chip.onLayer_asy (f : Layer → Layer) : (c.onLayer f).asy = c.asy := rfl
@[simp] theorem Chip.onLayer_mon (f : Layer → Layer) : (c.onLayer f).mon = c.mon := rfl
@[simp] theorem Chip.onLayer_reg (f : Layer → Layer) : (c.onLayer f).reg = c.reg := rfl

@[simp] theorem Chip.onMpc_heads (f : Mpc → Mpc) : (c.onMpc f).heads = c.heads := rfl
@[simp] theorem Chip.onMpc_regs (f : Mpc → Mpc) : (c.onMpc f).regs = c.regs := rfl
@[simp] theorem Chip.onMpc_acts (f : Mpc → Mpc) : (c.onMpc f).acts = c.acts := rfl
@[simp] theorem Chip.onMpc_rdata (f : Mpc → Mpc) : (c.onMpc f).rdata = c.rdata := rfl
@[simp] theorem Chip.onMpc_rbytes (f : Mpc → Mpc) : (c.onMpc f).rbytes = c.rbytes := rfl
@[simp] theorem Chip.onMpc_rbad (f : Mpc → Mpc) : (c.onMpc f).rbad = c.rbad := rfl
@[simp] theorem Chip.onMpc_views (f : Mpc → Mpc) : (c.onMpc f).views = c.views := rfl
@[simp] theorem Chip.onMpc_staged (f : Mpc → Mpc) : (c.onMpc f).staged = c.staged := rfl
@[simp] theorem Chip.onMpc_outbox (f : Mpc → Mpc) : (c.onMpc f).outbox = c.outbox := rfl
@[simp] theorem Chip.onMpc_derr (f : Mpc → Mpc) : (c.onMpc f).derr = c.derr := rfl
@[simp] theorem Chip.onMpc_fresh (f : Mpc → Mpc) : (c.onMpc f).fresh = c.fresh := rfl
@[simp] theorem Chip.onMpc_evr (f : Mpc → Mpc) : (c.onMpc f).evr = c.evr := rfl
@[simp] theorem Chip.onMpc_pmcPend (f : Mpc → Mpc) : (c.onMpc f).pmcPend = c.pmcPend := rfl
@[simp] theorem Chip.onMpc_frozen (f : Mpc → Mpc) : (c.onMpc f).frozen = c.frozen := rfl
@[simp] theorem Chip.onMpc_hst (f : Mpc → Mpc) : (c.onMpc f).hst = c.hst := rfl
@[simp] theorem Chip.onMpc_drc (f : Mpc → Mpc) : (c.onMpc f).drc = c.drc := rfl
@[simp] theorem Chip.onMpc_svc (f : Mpc → Mpc) : (c.onMpc f).svc = c.svc := rfl
@[simp] theorem Chip.onMpc_ttu (f : Mpc → Mpc) : (c.onMpc f).ttu = c.ttu := rfl
@[simp] theorem Chip.onMpc_eth (f : Mpc → Mpc) : (c.onMpc f).eth = c.eth := rfl
@[simp] theorem Chip.onMpc_hd (f : Mpc → Mpc) : (c.onMpc f).hd = c.hd := rfl
@[simp] theorem Chip.onMpc_scn (f : Mpc → Mpc) : (c.onMpc f).scn = c.scn := rfl
@[simp] theorem Chip.onMpc_cam (f : Mpc → Mpc) : (c.onMpc f).cam = c.cam := rfl
@[simp] theorem Chip.onMpc_camShared (f : Mpc → Mpc) : (c.onMpc f).camShared = c.camShared := rfl
@[simp] theorem Chip.onMpc_port (f : Mpc → Mpc) : (c.onMpc f).port = c.port := rfl
@[simp] theorem Chip.onMpc_axis (f : Mpc → Mpc) : (c.onMpc f).axis = c.axis := rfl
@[simp] theorem Chip.onMpc_island (f : Mpc → Mpc) : (c.onMpc f).island = c.island := rfl
@[simp] theorem Chip.onMpc_lane (f : Mpc → Mpc) : (c.onMpc f).lane = c.lane := rfl
@[simp] theorem Chip.onMpc_dsp (f : Mpc → Mpc) : (c.onMpc f).dsp = c.dsp := rfl
@[simp] theorem Chip.onMpc_asy (f : Mpc → Mpc) : (c.onMpc f).asy = c.asy := rfl
@[simp] theorem Chip.onMpc_mon (f : Mpc → Mpc) : (c.onMpc f).mon = c.mon := rfl
@[simp] theorem Chip.onMpc_reg (f : Mpc → Mpc) : (c.onMpc f).reg = c.reg := rfl

@[simp] theorem Chip.onCam_heads (p : Fin 16) (f : Cam → Cam) : (c.onCam p f).heads = c.heads := rfl
@[simp] theorem Chip.onCam_regs (p : Fin 16) (f : Cam → Cam) : (c.onCam p f).regs = c.regs := rfl
@[simp] theorem Chip.onCam_acts (p : Fin 16) (f : Cam → Cam) : (c.onCam p f).acts = c.acts := rfl
@[simp] theorem Chip.onCam_rdata (p : Fin 16) (f : Cam → Cam) : (c.onCam p f).rdata = c.rdata := rfl
@[simp] theorem Chip.onCam_rbytes (p : Fin 16) (f : Cam → Cam) : (c.onCam p f).rbytes = c.rbytes := rfl
@[simp] theorem Chip.onCam_rbad (p : Fin 16) (f : Cam → Cam) : (c.onCam p f).rbad = c.rbad := rfl
@[simp] theorem Chip.onCam_views (p : Fin 16) (f : Cam → Cam) : (c.onCam p f).views = c.views := rfl
@[simp] theorem Chip.onCam_staged (p : Fin 16) (f : Cam → Cam) : (c.onCam p f).staged = c.staged := rfl
@[simp] theorem Chip.onCam_outbox (p : Fin 16) (f : Cam → Cam) : (c.onCam p f).outbox = c.outbox := rfl
@[simp] theorem Chip.onCam_derr (p : Fin 16) (f : Cam → Cam) : (c.onCam p f).derr = c.derr := rfl
@[simp] theorem Chip.onCam_fresh (p : Fin 16) (f : Cam → Cam) : (c.onCam p f).fresh = c.fresh := rfl
@[simp] theorem Chip.onCam_evr (p : Fin 16) (f : Cam → Cam) : (c.onCam p f).evr = c.evr := rfl
@[simp] theorem Chip.onCam_pmcPend (p : Fin 16) (f : Cam → Cam) : (c.onCam p f).pmcPend = c.pmcPend := rfl
@[simp] theorem Chip.onCam_frozen (p : Fin 16) (f : Cam → Cam) : (c.onCam p f).frozen = c.frozen := rfl
@[simp] theorem Chip.onCam_hst (p : Fin 16) (f : Cam → Cam) : (c.onCam p f).hst = c.hst := rfl
@[simp] theorem Chip.onCam_drc (p : Fin 16) (f : Cam → Cam) : (c.onCam p f).drc = c.drc := rfl
@[simp] theorem Chip.onCam_svc (p : Fin 16) (f : Cam → Cam) : (c.onCam p f).svc = c.svc := rfl
@[simp] theorem Chip.onCam_ttu (p : Fin 16) (f : Cam → Cam) : (c.onCam p f).ttu = c.ttu := rfl
@[simp] theorem Chip.onCam_eth (p : Fin 16) (f : Cam → Cam) : (c.onCam p f).eth = c.eth := rfl
@[simp] theorem Chip.onCam_hd (p : Fin 16) (f : Cam → Cam) : (c.onCam p f).hd = c.hd := rfl
@[simp] theorem Chip.onCam_scn (p : Fin 16) (f : Cam → Cam) : (c.onCam p f).scn = c.scn := rfl
@[simp] theorem Chip.onCam_mpc (p : Fin 16) (f : Cam → Cam) : (c.onCam p f).mpc = c.mpc := rfl
@[simp] theorem Chip.onCam_camShared (p : Fin 16) (f : Cam → Cam) : (c.onCam p f).camShared = c.camShared := rfl
@[simp] theorem Chip.onCam_port (p : Fin 16) (f : Cam → Cam) : (c.onCam p f).port = c.port := rfl
@[simp] theorem Chip.onCam_axis (p : Fin 16) (f : Cam → Cam) : (c.onCam p f).axis = c.axis := rfl
@[simp] theorem Chip.onCam_island (p : Fin 16) (f : Cam → Cam) : (c.onCam p f).island = c.island := rfl
@[simp] theorem Chip.onCam_lane (p : Fin 16) (f : Cam → Cam) : (c.onCam p f).lane = c.lane := rfl
@[simp] theorem Chip.onCam_dsp (p : Fin 16) (f : Cam → Cam) : (c.onCam p f).dsp = c.dsp := rfl
@[simp] theorem Chip.onCam_asy (p : Fin 16) (f : Cam → Cam) : (c.onCam p f).asy = c.asy := rfl
@[simp] theorem Chip.onCam_mon (p : Fin 16) (f : Cam → Cam) : (c.onCam p f).mon = c.mon := rfl
@[simp] theorem Chip.onCam_reg (p : Fin 16) (f : Cam → Cam) : (c.onCam p f).reg = c.reg := rfl

@[simp] theorem Chip.onPort_heads (p : Fin 24) (f : Port → Port) : (c.onPort p f).heads = c.heads := rfl
@[simp] theorem Chip.onPort_regs (p : Fin 24) (f : Port → Port) : (c.onPort p f).regs = c.regs := rfl
@[simp] theorem Chip.onPort_acts (p : Fin 24) (f : Port → Port) : (c.onPort p f).acts = c.acts := rfl
@[simp] theorem Chip.onPort_rdata (p : Fin 24) (f : Port → Port) : (c.onPort p f).rdata = c.rdata := rfl
@[simp] theorem Chip.onPort_rbytes (p : Fin 24) (f : Port → Port) : (c.onPort p f).rbytes = c.rbytes := rfl
@[simp] theorem Chip.onPort_rbad (p : Fin 24) (f : Port → Port) : (c.onPort p f).rbad = c.rbad := rfl
@[simp] theorem Chip.onPort_views (p : Fin 24) (f : Port → Port) : (c.onPort p f).views = c.views := rfl
@[simp] theorem Chip.onPort_staged (p : Fin 24) (f : Port → Port) : (c.onPort p f).staged = c.staged := rfl
@[simp] theorem Chip.onPort_outbox (p : Fin 24) (f : Port → Port) : (c.onPort p f).outbox = c.outbox := rfl
@[simp] theorem Chip.onPort_derr (p : Fin 24) (f : Port → Port) : (c.onPort p f).derr = c.derr := rfl
@[simp] theorem Chip.onPort_fresh (p : Fin 24) (f : Port → Port) : (c.onPort p f).fresh = c.fresh := rfl
@[simp] theorem Chip.onPort_evr (p : Fin 24) (f : Port → Port) : (c.onPort p f).evr = c.evr := rfl
@[simp] theorem Chip.onPort_pmcPend (p : Fin 24) (f : Port → Port) : (c.onPort p f).pmcPend = c.pmcPend := rfl
@[simp] theorem Chip.onPort_frozen (p : Fin 24) (f : Port → Port) : (c.onPort p f).frozen = c.frozen := rfl
@[simp] theorem Chip.onPort_hst (p : Fin 24) (f : Port → Port) : (c.onPort p f).hst = c.hst := rfl
@[simp] theorem Chip.onPort_drc (p : Fin 24) (f : Port → Port) : (c.onPort p f).drc = c.drc := rfl
@[simp] theorem Chip.onPort_svc (p : Fin 24) (f : Port → Port) : (c.onPort p f).svc = c.svc := rfl
@[simp] theorem Chip.onPort_ttu (p : Fin 24) (f : Port → Port) : (c.onPort p f).ttu = c.ttu := rfl
@[simp] theorem Chip.onPort_eth (p : Fin 24) (f : Port → Port) : (c.onPort p f).eth = c.eth := rfl
@[simp] theorem Chip.onPort_hd (p : Fin 24) (f : Port → Port) : (c.onPort p f).hd = c.hd := rfl
@[simp] theorem Chip.onPort_scn (p : Fin 24) (f : Port → Port) : (c.onPort p f).scn = c.scn := rfl
@[simp] theorem Chip.onPort_mpc (p : Fin 24) (f : Port → Port) : (c.onPort p f).mpc = c.mpc := rfl
@[simp] theorem Chip.onPort_cam (p : Fin 24) (f : Port → Port) : (c.onPort p f).cam = c.cam := rfl
@[simp] theorem Chip.onPort_camShared (p : Fin 24) (f : Port → Port) : (c.onPort p f).camShared = c.camShared := rfl
@[simp] theorem Chip.onPort_axis (p : Fin 24) (f : Port → Port) : (c.onPort p f).axis = c.axis := rfl
@[simp] theorem Chip.onPort_island (p : Fin 24) (f : Port → Port) : (c.onPort p f).island = c.island := rfl
@[simp] theorem Chip.onPort_lane (p : Fin 24) (f : Port → Port) : (c.onPort p f).lane = c.lane := rfl
@[simp] theorem Chip.onPort_dsp (p : Fin 24) (f : Port → Port) : (c.onPort p f).dsp = c.dsp := rfl
@[simp] theorem Chip.onPort_asy (p : Fin 24) (f : Port → Port) : (c.onPort p f).asy = c.asy := rfl
@[simp] theorem Chip.onPort_mon (p : Fin 24) (f : Port → Port) : (c.onPort p f).mon = c.mon := rfl
@[simp] theorem Chip.onPort_reg (p : Fin 24) (f : Port → Port) : (c.onPort p f).reg = c.reg := rfl

@[simp] theorem Chip.onAxis_heads (a : Fin 8) (f : Axis → Axis) : (c.onAxis a f).heads = c.heads := rfl
@[simp] theorem Chip.onAxis_regs (a : Fin 8) (f : Axis → Axis) : (c.onAxis a f).regs = c.regs := rfl
@[simp] theorem Chip.onAxis_acts (a : Fin 8) (f : Axis → Axis) : (c.onAxis a f).acts = c.acts := rfl
@[simp] theorem Chip.onAxis_rdata (a : Fin 8) (f : Axis → Axis) : (c.onAxis a f).rdata = c.rdata := rfl
@[simp] theorem Chip.onAxis_rbytes (a : Fin 8) (f : Axis → Axis) : (c.onAxis a f).rbytes = c.rbytes := rfl
@[simp] theorem Chip.onAxis_rbad (a : Fin 8) (f : Axis → Axis) : (c.onAxis a f).rbad = c.rbad := rfl
@[simp] theorem Chip.onAxis_views (a : Fin 8) (f : Axis → Axis) : (c.onAxis a f).views = c.views := rfl
@[simp] theorem Chip.onAxis_staged (a : Fin 8) (f : Axis → Axis) : (c.onAxis a f).staged = c.staged := rfl
@[simp] theorem Chip.onAxis_outbox (a : Fin 8) (f : Axis → Axis) : (c.onAxis a f).outbox = c.outbox := rfl
@[simp] theorem Chip.onAxis_derr (a : Fin 8) (f : Axis → Axis) : (c.onAxis a f).derr = c.derr := rfl
@[simp] theorem Chip.onAxis_fresh (a : Fin 8) (f : Axis → Axis) : (c.onAxis a f).fresh = c.fresh := rfl
@[simp] theorem Chip.onAxis_evr (a : Fin 8) (f : Axis → Axis) : (c.onAxis a f).evr = c.evr := rfl
@[simp] theorem Chip.onAxis_pmcPend (a : Fin 8) (f : Axis → Axis) : (c.onAxis a f).pmcPend = c.pmcPend := rfl
@[simp] theorem Chip.onAxis_frozen (a : Fin 8) (f : Axis → Axis) : (c.onAxis a f).frozen = c.frozen := rfl
@[simp] theorem Chip.onAxis_hst (a : Fin 8) (f : Axis → Axis) : (c.onAxis a f).hst = c.hst := rfl
@[simp] theorem Chip.onAxis_drc (a : Fin 8) (f : Axis → Axis) : (c.onAxis a f).drc = c.drc := rfl
@[simp] theorem Chip.onAxis_svc (a : Fin 8) (f : Axis → Axis) : (c.onAxis a f).svc = c.svc := rfl
@[simp] theorem Chip.onAxis_ttu (a : Fin 8) (f : Axis → Axis) : (c.onAxis a f).ttu = c.ttu := rfl
@[simp] theorem Chip.onAxis_eth (a : Fin 8) (f : Axis → Axis) : (c.onAxis a f).eth = c.eth := rfl
@[simp] theorem Chip.onAxis_hd (a : Fin 8) (f : Axis → Axis) : (c.onAxis a f).hd = c.hd := rfl
@[simp] theorem Chip.onAxis_scn (a : Fin 8) (f : Axis → Axis) : (c.onAxis a f).scn = c.scn := rfl
@[simp] theorem Chip.onAxis_mpc (a : Fin 8) (f : Axis → Axis) : (c.onAxis a f).mpc = c.mpc := rfl
@[simp] theorem Chip.onAxis_cam (a : Fin 8) (f : Axis → Axis) : (c.onAxis a f).cam = c.cam := rfl
@[simp] theorem Chip.onAxis_camShared (a : Fin 8) (f : Axis → Axis) : (c.onAxis a f).camShared = c.camShared := rfl
@[simp] theorem Chip.onAxis_port (a : Fin 8) (f : Axis → Axis) : (c.onAxis a f).port = c.port := rfl
@[simp] theorem Chip.onAxis_island (a : Fin 8) (f : Axis → Axis) : (c.onAxis a f).island = c.island := rfl
@[simp] theorem Chip.onAxis_lane (a : Fin 8) (f : Axis → Axis) : (c.onAxis a f).lane = c.lane := rfl
@[simp] theorem Chip.onAxis_dsp (a : Fin 8) (f : Axis → Axis) : (c.onAxis a f).dsp = c.dsp := rfl
@[simp] theorem Chip.onAxis_asy (a : Fin 8) (f : Axis → Axis) : (c.onAxis a f).asy = c.asy := rfl
@[simp] theorem Chip.onAxis_mon (a : Fin 8) (f : Axis → Axis) : (c.onAxis a f).mon = c.mon := rfl
@[simp] theorem Chip.onAxis_reg (a : Fin 8) (f : Axis → Axis) : (c.onAxis a f).reg = c.reg := rfl

@[simp] theorem Chip.onLane_heads (l : Fin 76) (f : Lane → Lane) : (c.onLane l f).heads = c.heads := rfl
@[simp] theorem Chip.onLane_regs (l : Fin 76) (f : Lane → Lane) : (c.onLane l f).regs = c.regs := rfl
@[simp] theorem Chip.onLane_acts (l : Fin 76) (f : Lane → Lane) : (c.onLane l f).acts = c.acts := rfl
@[simp] theorem Chip.onLane_rdata (l : Fin 76) (f : Lane → Lane) : (c.onLane l f).rdata = c.rdata := rfl
@[simp] theorem Chip.onLane_rbytes (l : Fin 76) (f : Lane → Lane) : (c.onLane l f).rbytes = c.rbytes := rfl
@[simp] theorem Chip.onLane_rbad (l : Fin 76) (f : Lane → Lane) : (c.onLane l f).rbad = c.rbad := rfl
@[simp] theorem Chip.onLane_views (l : Fin 76) (f : Lane → Lane) : (c.onLane l f).views = c.views := rfl
@[simp] theorem Chip.onLane_staged (l : Fin 76) (f : Lane → Lane) : (c.onLane l f).staged = c.staged := rfl
@[simp] theorem Chip.onLane_outbox (l : Fin 76) (f : Lane → Lane) : (c.onLane l f).outbox = c.outbox := rfl
@[simp] theorem Chip.onLane_derr (l : Fin 76) (f : Lane → Lane) : (c.onLane l f).derr = c.derr := rfl
@[simp] theorem Chip.onLane_fresh (l : Fin 76) (f : Lane → Lane) : (c.onLane l f).fresh = c.fresh := rfl
@[simp] theorem Chip.onLane_evr (l : Fin 76) (f : Lane → Lane) : (c.onLane l f).evr = c.evr := rfl
@[simp] theorem Chip.onLane_pmcPend (l : Fin 76) (f : Lane → Lane) : (c.onLane l f).pmcPend = c.pmcPend := rfl
@[simp] theorem Chip.onLane_frozen (l : Fin 76) (f : Lane → Lane) : (c.onLane l f).frozen = c.frozen := rfl
@[simp] theorem Chip.onLane_hst (l : Fin 76) (f : Lane → Lane) : (c.onLane l f).hst = c.hst := rfl
@[simp] theorem Chip.onLane_drc (l : Fin 76) (f : Lane → Lane) : (c.onLane l f).drc = c.drc := rfl
@[simp] theorem Chip.onLane_svc (l : Fin 76) (f : Lane → Lane) : (c.onLane l f).svc = c.svc := rfl
@[simp] theorem Chip.onLane_ttu (l : Fin 76) (f : Lane → Lane) : (c.onLane l f).ttu = c.ttu := rfl
@[simp] theorem Chip.onLane_eth (l : Fin 76) (f : Lane → Lane) : (c.onLane l f).eth = c.eth := rfl
@[simp] theorem Chip.onLane_hd (l : Fin 76) (f : Lane → Lane) : (c.onLane l f).hd = c.hd := rfl
@[simp] theorem Chip.onLane_scn (l : Fin 76) (f : Lane → Lane) : (c.onLane l f).scn = c.scn := rfl
@[simp] theorem Chip.onLane_mpc (l : Fin 76) (f : Lane → Lane) : (c.onLane l f).mpc = c.mpc := rfl
@[simp] theorem Chip.onLane_cam (l : Fin 76) (f : Lane → Lane) : (c.onLane l f).cam = c.cam := rfl
@[simp] theorem Chip.onLane_camShared (l : Fin 76) (f : Lane → Lane) : (c.onLane l f).camShared = c.camShared := rfl
@[simp] theorem Chip.onLane_port (l : Fin 76) (f : Lane → Lane) : (c.onLane l f).port = c.port := rfl
@[simp] theorem Chip.onLane_axis (l : Fin 76) (f : Lane → Lane) : (c.onLane l f).axis = c.axis := rfl
@[simp] theorem Chip.onLane_island (l : Fin 76) (f : Lane → Lane) : (c.onLane l f).island = c.island := rfl
@[simp] theorem Chip.onLane_dsp (l : Fin 76) (f : Lane → Lane) : (c.onLane l f).dsp = c.dsp := rfl
@[simp] theorem Chip.onLane_asy (l : Fin 76) (f : Lane → Lane) : (c.onLane l f).asy = c.asy := rfl
@[simp] theorem Chip.onLane_mon (l : Fin 76) (f : Lane → Lane) : (c.onLane l f).mon = c.mon := rfl
@[simp] theorem Chip.onLane_reg (l : Fin 76) (f : Lane → Lane) : (c.onLane l f).reg = c.reg := rfl

@[simp] theorem Chip.onDsp_heads (n : Fin 2) (f : Dsp → Dsp) : (c.onDsp n f).heads = c.heads := rfl
@[simp] theorem Chip.onDsp_regs (n : Fin 2) (f : Dsp → Dsp) : (c.onDsp n f).regs = c.regs := rfl
@[simp] theorem Chip.onDsp_acts (n : Fin 2) (f : Dsp → Dsp) : (c.onDsp n f).acts = c.acts := rfl
@[simp] theorem Chip.onDsp_rdata (n : Fin 2) (f : Dsp → Dsp) : (c.onDsp n f).rdata = c.rdata := rfl
@[simp] theorem Chip.onDsp_rbytes (n : Fin 2) (f : Dsp → Dsp) : (c.onDsp n f).rbytes = c.rbytes := rfl
@[simp] theorem Chip.onDsp_rbad (n : Fin 2) (f : Dsp → Dsp) : (c.onDsp n f).rbad = c.rbad := rfl
@[simp] theorem Chip.onDsp_views (n : Fin 2) (f : Dsp → Dsp) : (c.onDsp n f).views = c.views := rfl
@[simp] theorem Chip.onDsp_staged (n : Fin 2) (f : Dsp → Dsp) : (c.onDsp n f).staged = c.staged := rfl
@[simp] theorem Chip.onDsp_outbox (n : Fin 2) (f : Dsp → Dsp) : (c.onDsp n f).outbox = c.outbox := rfl
@[simp] theorem Chip.onDsp_derr (n : Fin 2) (f : Dsp → Dsp) : (c.onDsp n f).derr = c.derr := rfl
@[simp] theorem Chip.onDsp_fresh (n : Fin 2) (f : Dsp → Dsp) : (c.onDsp n f).fresh = c.fresh := rfl
@[simp] theorem Chip.onDsp_evr (n : Fin 2) (f : Dsp → Dsp) : (c.onDsp n f).evr = c.evr := rfl
@[simp] theorem Chip.onDsp_pmcPend (n : Fin 2) (f : Dsp → Dsp) : (c.onDsp n f).pmcPend = c.pmcPend := rfl
@[simp] theorem Chip.onDsp_frozen (n : Fin 2) (f : Dsp → Dsp) : (c.onDsp n f).frozen = c.frozen := rfl
@[simp] theorem Chip.onDsp_hst (n : Fin 2) (f : Dsp → Dsp) : (c.onDsp n f).hst = c.hst := rfl
@[simp] theorem Chip.onDsp_drc (n : Fin 2) (f : Dsp → Dsp) : (c.onDsp n f).drc = c.drc := rfl
@[simp] theorem Chip.onDsp_svc (n : Fin 2) (f : Dsp → Dsp) : (c.onDsp n f).svc = c.svc := rfl
@[simp] theorem Chip.onDsp_ttu (n : Fin 2) (f : Dsp → Dsp) : (c.onDsp n f).ttu = c.ttu := rfl
@[simp] theorem Chip.onDsp_eth (n : Fin 2) (f : Dsp → Dsp) : (c.onDsp n f).eth = c.eth := rfl
@[simp] theorem Chip.onDsp_hd (n : Fin 2) (f : Dsp → Dsp) : (c.onDsp n f).hd = c.hd := rfl
@[simp] theorem Chip.onDsp_scn (n : Fin 2) (f : Dsp → Dsp) : (c.onDsp n f).scn = c.scn := rfl
@[simp] theorem Chip.onDsp_mpc (n : Fin 2) (f : Dsp → Dsp) : (c.onDsp n f).mpc = c.mpc := rfl
@[simp] theorem Chip.onDsp_cam (n : Fin 2) (f : Dsp → Dsp) : (c.onDsp n f).cam = c.cam := rfl
@[simp] theorem Chip.onDsp_camShared (n : Fin 2) (f : Dsp → Dsp) : (c.onDsp n f).camShared = c.camShared := rfl
@[simp] theorem Chip.onDsp_port (n : Fin 2) (f : Dsp → Dsp) : (c.onDsp n f).port = c.port := rfl
@[simp] theorem Chip.onDsp_axis (n : Fin 2) (f : Dsp → Dsp) : (c.onDsp n f).axis = c.axis := rfl
@[simp] theorem Chip.onDsp_island (n : Fin 2) (f : Dsp → Dsp) : (c.onDsp n f).island = c.island := rfl
@[simp] theorem Chip.onDsp_lane (n : Fin 2) (f : Dsp → Dsp) : (c.onDsp n f).lane = c.lane := rfl
@[simp] theorem Chip.onDsp_asy (n : Fin 2) (f : Dsp → Dsp) : (c.onDsp n f).asy = c.asy := rfl
@[simp] theorem Chip.onDsp_mon (n : Fin 2) (f : Dsp → Dsp) : (c.onDsp n f).mon = c.mon := rfl
@[simp] theorem Chip.onDsp_reg (n : Fin 2) (f : Dsp → Dsp) : (c.onDsp n f).reg = c.reg := rfl

@[simp] theorem Chip.onAsy_heads (f : AsyRun → AsyRun) : (c.onAsy f).heads = c.heads := rfl
@[simp] theorem Chip.onAsy_regs (f : AsyRun → AsyRun) : (c.onAsy f).regs = c.regs := rfl
@[simp] theorem Chip.onAsy_acts (f : AsyRun → AsyRun) : (c.onAsy f).acts = c.acts := rfl
@[simp] theorem Chip.onAsy_rdata (f : AsyRun → AsyRun) : (c.onAsy f).rdata = c.rdata := rfl
@[simp] theorem Chip.onAsy_rbytes (f : AsyRun → AsyRun) : (c.onAsy f).rbytes = c.rbytes := rfl
@[simp] theorem Chip.onAsy_rbad (f : AsyRun → AsyRun) : (c.onAsy f).rbad = c.rbad := rfl
@[simp] theorem Chip.onAsy_views (f : AsyRun → AsyRun) : (c.onAsy f).views = c.views := rfl
@[simp] theorem Chip.onAsy_staged (f : AsyRun → AsyRun) : (c.onAsy f).staged = c.staged := rfl
@[simp] theorem Chip.onAsy_outbox (f : AsyRun → AsyRun) : (c.onAsy f).outbox = c.outbox := rfl
@[simp] theorem Chip.onAsy_derr (f : AsyRun → AsyRun) : (c.onAsy f).derr = c.derr := rfl
@[simp] theorem Chip.onAsy_fresh (f : AsyRun → AsyRun) : (c.onAsy f).fresh = c.fresh := rfl
@[simp] theorem Chip.onAsy_evr (f : AsyRun → AsyRun) : (c.onAsy f).evr = c.evr := rfl
@[simp] theorem Chip.onAsy_pmcPend (f : AsyRun → AsyRun) : (c.onAsy f).pmcPend = c.pmcPend := rfl
@[simp] theorem Chip.onAsy_frozen (f : AsyRun → AsyRun) : (c.onAsy f).frozen = c.frozen := rfl
@[simp] theorem Chip.onAsy_hst (f : AsyRun → AsyRun) : (c.onAsy f).hst = c.hst := rfl
@[simp] theorem Chip.onAsy_drc (f : AsyRun → AsyRun) : (c.onAsy f).drc = c.drc := rfl
@[simp] theorem Chip.onAsy_svc (f : AsyRun → AsyRun) : (c.onAsy f).svc = c.svc := rfl
@[simp] theorem Chip.onAsy_ttu (f : AsyRun → AsyRun) : (c.onAsy f).ttu = c.ttu := rfl
@[simp] theorem Chip.onAsy_eth (f : AsyRun → AsyRun) : (c.onAsy f).eth = c.eth := rfl
@[simp] theorem Chip.onAsy_hd (f : AsyRun → AsyRun) : (c.onAsy f).hd = c.hd := rfl
@[simp] theorem Chip.onAsy_scn (f : AsyRun → AsyRun) : (c.onAsy f).scn = c.scn := rfl
@[simp] theorem Chip.onAsy_mpc (f : AsyRun → AsyRun) : (c.onAsy f).mpc = c.mpc := rfl
@[simp] theorem Chip.onAsy_cam (f : AsyRun → AsyRun) : (c.onAsy f).cam = c.cam := rfl
@[simp] theorem Chip.onAsy_camShared (f : AsyRun → AsyRun) : (c.onAsy f).camShared = c.camShared := rfl
@[simp] theorem Chip.onAsy_port (f : AsyRun → AsyRun) : (c.onAsy f).port = c.port := rfl
@[simp] theorem Chip.onAsy_axis (f : AsyRun → AsyRun) : (c.onAsy f).axis = c.axis := rfl
@[simp] theorem Chip.onAsy_island (f : AsyRun → AsyRun) : (c.onAsy f).island = c.island := rfl
@[simp] theorem Chip.onAsy_lane (f : AsyRun → AsyRun) : (c.onAsy f).lane = c.lane := rfl
@[simp] theorem Chip.onAsy_dsp (f : AsyRun → AsyRun) : (c.onAsy f).dsp = c.dsp := rfl
@[simp] theorem Chip.onAsy_mon (f : AsyRun → AsyRun) : (c.onAsy f).mon = c.mon := rfl
@[simp] theorem Chip.onAsy_reg (f : AsyRun → AsyRun) : (c.onAsy f).reg = c.reg := rfl

/-! ### An access by a requester -/

/-- The first access of the host is recorded in the host interface's state alone. -/
theorem Chip.seenBy_frame (q : Requester) : { c.seenBy q with hst := c.hst, fresh := c.fresh } = c := by
  unfold Chip.seenBy Chip.linkSeen
  split
  · split <;> rfl
  · rfl

@[simp] theorem Chip.seenBy_heads (q : Requester) : (c.seenBy q).heads = c.heads := by
  have := congrArg Chip.heads (c.seenBy_frame q); exact this
@[simp] theorem Chip.seenBy_regs (q : Requester) : (c.seenBy q).regs = c.regs := by
  have := congrArg Chip.regs (c.seenBy_frame q); exact this
@[simp] theorem Chip.seenBy_acts (q : Requester) : (c.seenBy q).acts = c.acts := by
  have := congrArg Chip.acts (c.seenBy_frame q); exact this
@[simp] theorem Chip.seenBy_rdata (q : Requester) : (c.seenBy q).rdata = c.rdata := by
  have := congrArg Chip.rdata (c.seenBy_frame q); exact this
@[simp] theorem Chip.seenBy_rbytes (q : Requester) : (c.seenBy q).rbytes = c.rbytes := by
  have := congrArg Chip.rbytes (c.seenBy_frame q); exact this
@[simp] theorem Chip.seenBy_rbad (q : Requester) : (c.seenBy q).rbad = c.rbad := by
  have := congrArg Chip.rbad (c.seenBy_frame q); exact this
@[simp] theorem Chip.seenBy_views (q : Requester) : (c.seenBy q).views = c.views := by
  have := congrArg Chip.views (c.seenBy_frame q); exact this
@[simp] theorem Chip.seenBy_staged (q : Requester) : (c.seenBy q).staged = c.staged := by
  have := congrArg Chip.staged (c.seenBy_frame q); exact this
@[simp] theorem Chip.seenBy_outbox (q : Requester) : (c.seenBy q).outbox = c.outbox := by
  have := congrArg Chip.outbox (c.seenBy_frame q); exact this
@[simp] theorem Chip.seenBy_derr (q : Requester) : (c.seenBy q).derr = c.derr := by
  have := congrArg Chip.derr (c.seenBy_frame q); exact this
@[simp] theorem Chip.seenBy_evr (q : Requester) : (c.seenBy q).evr = c.evr := by
  have := congrArg Chip.evr (c.seenBy_frame q); exact this
@[simp] theorem Chip.seenBy_pmcPend (q : Requester) : (c.seenBy q).pmcPend = c.pmcPend := by
  have := congrArg Chip.pmcPend (c.seenBy_frame q); exact this
@[simp] theorem Chip.seenBy_frozen (q : Requester) : (c.seenBy q).frozen = c.frozen := by
  have := congrArg Chip.frozen (c.seenBy_frame q); exact this
@[simp] theorem Chip.seenBy_drc (q : Requester) : (c.seenBy q).drc = c.drc := by
  have := congrArg Chip.drc (c.seenBy_frame q); exact this
@[simp] theorem Chip.seenBy_svc (q : Requester) : (c.seenBy q).svc = c.svc := by
  have := congrArg Chip.svc (c.seenBy_frame q); exact this
@[simp] theorem Chip.seenBy_ttu (q : Requester) : (c.seenBy q).ttu = c.ttu := by
  have := congrArg Chip.ttu (c.seenBy_frame q); exact this
@[simp] theorem Chip.seenBy_eth (q : Requester) : (c.seenBy q).eth = c.eth := by
  have := congrArg Chip.eth (c.seenBy_frame q); exact this
@[simp] theorem Chip.seenBy_hd (q : Requester) : (c.seenBy q).hd = c.hd := by
  have := congrArg Chip.hd (c.seenBy_frame q); exact this
@[simp] theorem Chip.seenBy_scn (q : Requester) : (c.seenBy q).scn = c.scn := by
  have := congrArg Chip.scn (c.seenBy_frame q); exact this
@[simp] theorem Chip.seenBy_mpc (q : Requester) : (c.seenBy q).mpc = c.mpc := by
  have := congrArg Chip.mpc (c.seenBy_frame q); exact this
@[simp] theorem Chip.seenBy_cam (q : Requester) : (c.seenBy q).cam = c.cam := by
  have := congrArg Chip.cam (c.seenBy_frame q); exact this
@[simp] theorem Chip.seenBy_camShared (q : Requester) : (c.seenBy q).camShared = c.camShared := by
  have := congrArg Chip.camShared (c.seenBy_frame q); exact this
@[simp] theorem Chip.seenBy_port (q : Requester) : (c.seenBy q).port = c.port := by
  have := congrArg Chip.port (c.seenBy_frame q); exact this
@[simp] theorem Chip.seenBy_axis (q : Requester) : (c.seenBy q).axis = c.axis := by
  have := congrArg Chip.axis (c.seenBy_frame q); exact this
@[simp] theorem Chip.seenBy_island (q : Requester) : (c.seenBy q).island = c.island := by
  have := congrArg Chip.island (c.seenBy_frame q); exact this
@[simp] theorem Chip.seenBy_lane (q : Requester) : (c.seenBy q).lane = c.lane := by
  have := congrArg Chip.lane (c.seenBy_frame q); exact this
@[simp] theorem Chip.seenBy_dsp (q : Requester) : (c.seenBy q).dsp = c.dsp := by
  have := congrArg Chip.dsp (c.seenBy_frame q); exact this
@[simp] theorem Chip.seenBy_asy (q : Requester) : (c.seenBy q).asy = c.asy := by
  have := congrArg Chip.asy (c.seenBy_frame q); exact this
@[simp] theorem Chip.seenBy_mon (q : Requester) : (c.seenBy q).mon = c.mon := by
  have := congrArg Chip.mon (c.seenBy_frame q); exact this
@[simp] theorem Chip.seenBy_reg (q : Requester) : (c.seenBy q).reg = c.reg := by
  have := congrArg Chip.reg (c.seenBy_frame q); exact this

@[simp] theorem Chip.seenBy_rd (q : Requester) (a : Nat) : (c.seenBy q).rd a = c.rd a := by
  unfold Chip.rd; rw [Chip.seenBy_regs]

/-! ### Updated units -/

@[simp] theorem upd_self {α : Type} {n : Nat} (v : Vector α n) (i : Fin n) (f : α → α) : (upd v i f)[i] = f v[i] := by
  simp [upd]

theorem upd_ne {α : Type} {n : Nat} (v : Vector α n) {i j : Fin n} (h : j ≠ i) (f : α → α) : (upd v i f)[j] = v[j] := by
  simp only [upd, Fin.getElem_fin]
  exact Vector.getElem_set_ne _ _ (fun e => h (Fin.ext e.symm))

@[simp] theorem Chip.onHead_self (h : Fin 64) (f : Head → Head) : (c.onHead h f).hd[h] = f c.hd[h] := upd_self ..
theorem Chip.onHead_ne {h j : Fin 64} (h0 : j ≠ h) (f : Head → Head) : (c.onHead h f).hd[j] = c.hd[j] := upd_ne _ h0 _
@[simp] theorem Chip.onLane_self (l : Fin 76) (f : Lane → Lane) : (c.onLane l f).lane[l] = f c.lane[l] := upd_self ..
theorem Chip.onLane_ne {l j : Fin 76} (h0 : j ≠ l) (f : Lane → Lane) : (c.onLane l f).lane[j] = c.lane[j] := upd_ne _ h0 _
@[simp] theorem Chip.onPort_self (p : Fin 24) (f : Port → Port) : (c.onPort p f).port[p] = f c.port[p] := upd_self ..
theorem Chip.onPort_ne {p j : Fin 24} (h0 : j ≠ p) (f : Port → Port) : (c.onPort p f).port[j] = c.port[j] := upd_ne _ h0 _
@[simp] theorem Chip.onAxis_self (a : Fin 8) (f : Axis → Axis) : (c.onAxis a f).axis[a] = f c.axis[a] := upd_self ..
theorem Chip.onAxis_ne {a j : Fin 8} (h0 : j ≠ a) (f : Axis → Axis) : (c.onAxis a f).axis[j] = c.axis[j] := upd_ne _ h0 _
@[simp] theorem Chip.onCam_self (p : Fin 16) (f : Cam → Cam) : (c.onCam p f).cam[p] = f c.cam[p] := upd_self ..
theorem Chip.onCam_ne {p j : Fin 16} (h0 : j ≠ p) (f : Cam → Cam) : (c.onCam p f).cam[j] = c.cam[j] := upd_ne _ h0 _
@[simp] theorem Chip.onDsp_self (n : Fin 2) (f : Dsp → Dsp) : (c.onDsp n f).dsp[n] = f c.dsp[n] := upd_self ..
theorem Chip.onDsp_ne {n j : Fin 2} (h0 : j ≠ n) (f : Dsp → Dsp) : (c.onDsp n f).dsp[j] = c.dsp[j] := upd_ne _ h0 _
@[simp] theorem Chip.onEth_self (p : Fin 4) (f : EthPort → EthPort) : (c.onEth p f).eth[p] = f c.eth[p] := upd_self ..
theorem Chip.onEth_ne {p j : Fin 4} (h0 : j ≠ p) (f : EthPort → EthPort) : (c.onEth p f).eth[j] = c.eth[j] := upd_ne _ h0 _
@[simp] theorem Chip.onRing_self (r : Fin 256) (f : Ring → Ring) : (c.onRing r f).ring r = f (c.ring r) := upd_self ..
theorem Chip.onRing_ne {r j : Fin 256} (h : j ≠ r) (f : Ring → Ring) : (c.onRing r f).ring j = c.ring j := upd_ne _ h _
@[simp] theorem Chip.onLoop_self (m : Fin 128) (f : Loop → Loop) : (c.onLoop m f).mpc.loops[m] = f c.mpc.loops[m] := upd_self ..
theorem Chip.onLoop_ne {m j : Fin 128} (h : j ≠ m) (f : Loop → Loop) : (c.onLoop m f).mpc.loops[j] = c.mpc.loops[j] :=
  upd_ne _ h _

/-! ### Registers -/

@[simp] theorem Chip.rd_wr_self (a : Nat) (v : Word) : (c.wr a v).rd a = v := by
  unfold Chip.wr Chip.rd
  split
  · rename_i h; simp [h]
  · simp

theorem Chip.rd_wr_ne {a b : Nat} (h : b ≠ a) (v : Word) : (c.wr a v).rd b = c.rd b := by
  unfold Chip.wr Chip.rd
  split
  · simp [findKey_eraseKey_ne h]
  · simp [findKey_insertKey_ne h]

@[simp] theorem Chip.act_setAct_self (a : Nat) (v : Word) : (c.setAct a v).act a = v := by
  unfold Chip.setAct Chip.act
  split
  · rename_i h; simp [h]
  · simp

theorem Chip.act_setAct_ne {a b : Nat} (h : b ≠ a) (v : Word) : (c.setAct a v).act b = c.act b := by
  unfold Chip.setAct Chip.act
  split
  · simp [findKey_eraseKey_ne h]
  · simp [findKey_insertKey_ne h]

/-- The value of a register depends on the register file alone. -/
theorem Chip.rd_congr {c d : Chip} (h : c.regs = d.regs) (a : Nat) : c.rd a = d.rd a := by unfold Chip.rd; rw [h]

end Sys2Proof.Machine
end

