-- ==== Sys2Proof/Laws/Recorder.lean ====
section
/-! SUPPORT. What the event recorder may do, said once: between the raising of events and the end of a command it
changes the recorder, the rings and their interrupts, memory, the performance counters' pending occurrences and the
registers of the EVR, HST and DRC windows, and nothing else. -/

namespace Sys2Proof.Machine

namespace Recorded

theorem refl (c : Chip) : Recorded c c := ⟨rfl, fun _ _ => rfl⟩

theorem trans {c d e : Chip} (h : Recorded c d) (k : Recorded d e) : Recorded c e :=
  ⟨k.rest.trans h.rest, fun a ha => (k.rd a ha).trans (h.rd a ha)⟩

/-- A fold of steps that each only record. -/
theorem foldl {α : Type} (f : Chip → α → Chip) (h : ∀ c x, Recorded c (f c x)) (l : List α) (c : Chip) :
    Recorded c (l.foldl f c) := by
  induction l generalizing c with
  | nil => exact refl c
  | cons x l ih => exact (h c x).trans (ih _)

theorem ite {c d e : Chip} {p : Prop} [Decidable p] (h : Recorded c d) (k : Recorded c e) :
    Recorded c (if p then d else e) := by split <;> assumption

/-! ### Fields -/

variable {c d : Chip} (h : Recorded c d)
include h

theorem heads : d.heads = c.heads := congrArg (·.heads) h.rest
theorem acts : d.acts = c.acts := congrArg (·.acts) h.rest
theorem rdata : d.rdata = c.rdata := congrArg (·.rdata) h.rest
theorem rbytes : d.rbytes = c.rbytes := congrArg (·.rbytes) h.rest
theorem rbad : d.rbad = c.rbad := congrArg (·.rbad) h.rest
theorem views : d.views = c.views := congrArg (·.views) h.rest
theorem staged : d.staged = c.staged := congrArg (·.staged) h.rest
theorem fresh : d.fresh = c.fresh := congrArg (·.fresh) h.rest
theorem frozen : d.frozen = c.frozen := congrArg (·.frozen) h.rest
theorem drc : d.drc = c.drc := congrArg (·.drc) h.rest
theorem ttu : d.ttu = c.ttu := congrArg (·.ttu) h.rest
theorem eth : d.eth = c.eth := congrArg (·.eth) h.rest
theorem hd : d.hd = c.hd := congrArg (·.hd) h.rest
theorem scn : d.scn = c.scn := congrArg (·.scn) h.rest
theorem mpc : d.mpc = c.mpc := congrArg (·.mpc) h.rest
theorem cam : d.cam = c.cam := congrArg (·.cam) h.rest
theorem camShared : d.camShared = c.camShared := congrArg (·.camShared) h.rest
theorem port : d.port = c.port := congrArg (·.port) h.rest
theorem axis : d.axis = c.axis := congrArg (·.axis) h.rest
theorem island : d.island = c.island := congrArg (·.island) h.rest
theorem lane : d.lane = c.lane := congrArg (·.lane) h.rest
theorem dsp : d.dsp = c.dsp := congrArg (·.dsp) h.rest
theorem asy : d.asy = c.asy := congrArg (·.asy) h.rest
theorem mon : d.mon = c.mon := congrArg (·.mon) h.rest
theorem reg : d.reg = c.reg := congrArg (·.reg) h.rest

/-- Of the service cluster only the interrupt lines may change. -/
theorem svc : d.svc = { c.svc with lines := d.svc.lines } := by
  have := congrArg (·.svc) h.rest
  simp only [Chip.unrecorded] at this
  calc d.svc = { { d.svc with lines := Svc.reset.lines } with lines := d.svc.lines } := rfl
    _ = _ := by rw [this]

theorem act (a : Nat) : d.act a = c.act a := by unfold Chip.act; rw [h.acts]

end Recorded

/-! ### Updates -/

namespace Chip

variable (e : Env) (c : Chip)

theorem wr_recorded {a : Nat} (h : recorderReg a = true) (v : Word) : Recorded c (c.wr a v) :=
  ⟨rfl, fun b hb => c.rd_wr_ne (fun e => by subst e; simp [h] at hb) v⟩

theorem wrn_recorded {a : Nat} (h : recorderReg a = true) (v : Nat) : Recorded c (c.wrn a v) := c.wr_recorded h _
theorem sticky_recorded {a : Nat} (h : recorderReg a = true) (m : Nat) : Recorded c (c.sticky a m) := c.wr_recorded h _
theorem bump_recorded {a : Nat} (h : recorderReg a = true) : Recorded c (c.bump a) := c.wr_recorded h _
theorem setFld_recorded {a : Nat} (h : recorderReg a = true) (hi lo v : Nat) : Recorded c (c.setFld a hi lo v) :=
  c.wr_recorded h _
theorem wrPair_recorded {a : Nat} (h : recorderReg a = true) (k : recorderReg (a + 4) = true) (v : Nat) :
    Recorded c (c.wrPair a v) := (c.wrn_recorded h _).trans (wrn_recorded _ k _)

theorem onEvr_recorded (f : Evr → Evr) : Recorded c (c.onEvr f) := ⟨rfl, fun _ _ => rfl⟩
theorem onRing_recorded (r : Fin 256) (f : Ring → Ring) : Recorded c (c.onRing r f) := ⟨rfl, fun _ _ => rfl⟩
theorem issue_recorded (w : MemWrite) : Recorded c (c.issue w) := ⟨rfl, fun _ _ => rfl⟩
theorem withHst_recorded (x : Hst) : Recorded c { c with hst := x } := ⟨rfl, fun _ _ => rfl⟩

theorem tally_recorded (b v i n : Nat) : Recorded c (c.tally b v i n) :=
  Recorded.ite (.refl c) ⟨rfl, fun _ _ => rfl⟩

/-- An event raised changes the recorder alone. -/
theorem push_recorded (ev : Event) : Recorded c (c.push ev) := by
  unfold push
  have h : Recorded c (c.bump Reg.EVR_LOST_CNT) := c.bump_recorded (by decide)
  refine Recorded.ite (h.trans (wrn_recorded _ (by decide) _)) (Recorded.ite ⟨rfl, fun _ _ => rfl⟩ ?_)
  exact (h.trans (sticky_recorded _ (a := Reg.EVR_STATUS) (by decide) (2 ^ 10))).trans ⟨rfl, fun _ _ => rfl⟩

theorem raise_recorded (b n : Nat) (i : Inst) (v p q r : Nat) : Recorded c (c.raise b n i v p q r) :=
  (c.push_recorded _).trans (tally_recorded _ ..)

theorem discard_recorded (q : Requester) (a k : Nat) (v : Word) : Recorded c (c.discard q a k v) := c.raise_recorded ..
theorem flagEvent_recorded (a : Nat) (i : Inst) (b p : Nat) : Recorded c (c.flagEvent a i b p) := c.raise_recorded ..
theorem flag_recorded {a : Nat} (h : recorderReg a = true) (i : Inst) (b p : Nat) : Recorded c (c.flag a i b p) :=
  (c.sticky_recorded h b).trans (flagEvent_recorded ..)

/-! ### Memory writes of the recorder -/

theorem regionViol_recorded (q a : Nat) (w : Bool) : Recorded c (c.regionViol q a w) :=
  ((c.wrPair_recorded (by decide) (by decide) _).trans (wrn_recorded _ (by decide) _)).trans
    (flag_recorded _ (by decide) ..)

theorem leaseViol_recorded (b a : Nat) : Recorded c (c.leaseViol b a) :=
  ((c.bump_recorded (by decide)).trans (wrPair_recorded _ (by decide) (by decide) _)).trans (sticky_recorded _ (by decide) _)

theorem guardDrop_recorded (b a : Nat) : Recorded c (c.guardDrop b a) :=
  (c.leaseViol_recorded ..).trans (flagEvent_recorded ..)

theorem chan_regs : ∀ k : Fin 2, recorderReg (Reg.DRC_CH_CE_CNT k) = true ∧ recorderReg (Reg.DRC_CH_UE_CNT k) = true ∧
    recorderReg (Reg.DRC_CH_MARK k) = true := by decide

theorem dramErrInfo_recorded (b t p q : Nat) (s : Bool) : Recorded c (c.dramErrInfo b t p q s) :=
  (c.wrPair_recorded (by decide) (by decide) _).trans (wrn_recorded _ (by decide) _)

theorem dramUE_recorded (b q : Nat) (s : Bool) : Recorded c (c.dramUE b q s) :=
  ((c.dramErrInfo_recorded ..).trans (bump_recorded _ (chan_regs _).2.1)).trans (flag_recorded _ (by decide) ..)

theorem dramCE_recorded (b p k q : Nat) (s : Bool) : Recorded c (c.dramCE b p k q s) := by
  unfold dramCE
  have h := ((c.dramErrInfo_recorded b 1 p q s).trans (bump_recorded _ (chan_regs (chanOf b)).1)).trans
    (flag_recorded _ (a := Reg.DRC_FLAGS) (by decide) (.other (chanOf b)) 0x1 0)
  refine Recorded.ite ?_ h
  exact ((h.trans (setFld_recorded _ (chan_regs _).2.2 ..)).trans (setFld_recorded _ (chan_regs _).2.2 ..)).trans
    (sticky_recorded _ (by decide) _)

theorem readBurst_recorded (q b : Nat) (s : Bool) : Recorded c (c.readBurst e q b s).1 := by
  unfold readBurst
  dsimp only
  split
  · split
    · exact c.dramUE_recorded ..
    · exact .refl c
    · exact c.dramCE_recorded ..
  · exact .refl c

theorem readBursts_recorded (q : Nat) (bs : List Nat) : Recorded c (Chip.readBursts e q bs c).1 := by
  induction bs generalizing c with
  | nil => exact .refl c
  | cons b bs ih =>
    unfold readBursts
    have h := (c.readBurst_recorded e q b false).trans (ih _)
    dsimp only
    split <;> exact h

/-- A DRAM read changes at most the records of its errors. -/
theorem dramRead_recorded (q a n : Nat) : Recorded c (c.dramRead e q a n).1 := by
  unfold dramRead
  split
  · exact c.regionViol_recorded ..
  · exact c.readBursts_recorded ..

theorem rmwBursts_recorded (q a n : Nat) (bs : List Nat) : Recorded c (Chip.rmwBursts e q a n bs c).1 := by
  induction bs generalizing c with
  | nil => exact .refl c
  | cons b bs ih =>
    unfold rmwBursts
    split
    · have h := c.readBurst_recorded e q b false
      split
      · next hx => rw [hx] at h; exact h.trans (ih _)
      · next hx => rw [hx] at h; exact (h.trans (issue_recorded ..)).trans (ih _)
    · exact ih c

theorem storeKept_recorded (keep : Nat → Bool) (a : Nat) (bs : List Byte) : Recorded c (c.storeKept keep a bs) :=
  Recorded.foldl _ (fun c _ => c.issue_recorded _) _ c

theorem dramPut_recorded (q a : Nat) (keep : Nat → Bool) (bs : List Byte) : Recorded c (c.dramPut e q a keep bs) :=
  (c.rmwBursts_recorded ..).trans (storeKept_recorded ..)

/-- A DRAM write of a requester changes at most its stores and the records of what refused it. -/
theorem dramWrite_recorded (q a : Nat) (bs : List Byte) : Recorded c (c.dramWrite e q a bs).1 := by
  unfold dramWrite
  split
  · exact c.regionViol_recorded ..
  · split
    · exact c.guardDrop_recorded ..
    · exact (c.withHst_recorded _).trans (dramPut_recorded ..)

theorem ringWriteAs_recorded (q r a : Nat) (bs : List Byte) : Recorded c (c.ringWriteAs e q r a bs).1 := by
  unfold ringWriteAs
  split
  · exact c.dramWrite_recorded ..
  · exact c.issue_recorded _

theorem ringWrite_recorded (r a : Nat) (bs : List Byte) : Recorded c (c.ringWrite e r a bs) := c.ringWriteAs_recorded ..

/-! ### Interrupts and rings -/

theorem sendMsix_recorded (v : Fin 64) : Recorded c (c.sendMsix v) := by
  unfold sendMsix
  have h (w : MemWrite) : Recorded c ((c.tally blkHST 0x13 0 1).issue w) := (c.tally_recorded ..).trans (issue_recorded ..)
  dsimp only
  split
  · exact c.withHst_recorded _
  · exact Recorded.ite (h _) ((h _).trans (withHst_recorded ..))

theorem irqVector_recorded (v : Nat) : Recorded c (c.irqVector v) := by
  unfold irqVector
  split
  · exact .refl c
  · exact Recorded.ite (c.withHst_recorded _) (c.sendMsix_recorded _)

theorem irqLine_recorded (p : Fin 4) (l : Nat) : Recorded c (c.irqLine p l) :=
  Recorded.ite (.refl c) ⟨rfl, fun _ _ => rfl⟩

theorem ringIrq_recorded (r : Nat) : Recorded c (c.ringIrq r) := by
  unfold ringIrq
  refine Recorded.ite (c.irqVector_recorded _) ?_
  split
  · exact c.irqLine_recorded ..
  · exact .refl c

theorem hstFlag_recorded (r b p : Nat) : Recorded c (c.hstFlag r b p) :=
  (c.flag_recorded (by decide) ..).trans (irqVector_recorded ..)

theorem ring_regs (r : Fin 256) : recorderReg (Reg.HST_RING_FLAGS r) = true ∧ recorderReg (Reg.HST_RING_DONE_CNT r) = true ∧
    recorderReg (Reg.HST_RING_DROP_CNT r) = true ∧ recorderReg (Reg.HST_RING_ERR_IDX r) = true := by
  have := r.isLt
  simp only [Reg.HST_RING_FLAGS, Reg.HST_RING_DONE_CNT, Reg.HST_RING_DROP_CNT, Reg.HST_RING_ERR_IDX]
  simp only [recorderReg, Bool.or_eq_true, Bool.and_eq_true, decide_eq_true_eq]
  omega

theorem noteFull_recorded (r : Fin 256) : Recorded c (c.noteFull r) :=
  Recorded.ite (c.sticky_recorded (ring_regs r).1 _) (.refl c)

theorem noteDrop_recorded (r : Fin 256) : Recorded c (c.noteDrop r) :=
  ((c.bump_recorded (ring_regs r).2.2.1).trans (sticky_recorded _ (ring_regs r).1 _)).trans (hstFlag_recorded ..)

theorem writeRecord_recorded (r : Fin 256) (bs : List Byte) : Recorded c (c.writeRecord e r bs) := by
  have h := ((c.ringWrite_recorded e r (c.ringBase r + entrySize (c.ringType r) * ((c.ring r).recProd.toNat % c.ringSize r)) bs).trans
    (onRing_recorded _ r fun g => { g with recProd := g.recProd + 1, wbPend := true })).trans (noteFull_recorded _ r)
  exact (h.trans (bump_recorded _ (ring_regs r).2.1)).trans (ringIrq_recorded ..)

theorem dropRecord_recorded (r : Fin 256) : Recorded c (c.dropRecord r) := c.noteDrop_recorded r

/-! ### Delivery, the NOR log and commits -/

theorem deliver_recorded (r : Fin 256) (x : Record) : Recorded c (c.deliver e r x).1 := by
  unfold deliver
  split
  · exact c.writeRecord_recorded ..
  · split
    · exact c.dropRecord_recorded ..
    · exact .refl c

theorem pumpRing_recorded (r : Fin 256) (xs : List Record) : Recorded c (Chip.pumpRing e r xs c) := by
  induction xs generalizing c with
  | nil => exact .refl c
  | cons x xs ih =>
    unfold pumpRing
    split
    · exact ih c
    · split
      · dsimp only
        have h := c.deliver_recorded e r x
        split
        · exact (h.trans (onRing_recorded ..)).trans (ih _)
        · exact h
      · exact (c.onRing_recorded ..).trans (ih _)

theorem gapRing_recorded (r : Fin 256) : Recorded c (c.gapRing e r) := by
  unfold gapRing
  dsimp only
  refine Recorded.ite ?_ (.refl c)
  split
  · exact Recorded.ite (onRing_recorded ..) (.refl c)
  · have h := c.deliver_recorded e r (gapRecord r (c.evr.skipped (c.ring r).cursor) c.now (c.ring r).cursor)
    exact Recorded.ite (h.trans (onRing_recorded ..)) h

theorem pump_recorded (r : Fin 256) : Recorded c (c.pump e r) := by
  unfold pump
  have h := c.gapRing_recorded e r
  exact Recorded.ite (Recorded.ite h (h.trans (pumpRing_recorded ..))) (.refl c)

theorem pumpAll_recorded : Recorded c (c.pumpAll e) := Recorded.foldl _ (fun c r => c.pump_recorded e r) _ c

theorem deliverNow_recorded (x : Record) : Recorded c (c.deliverNow e x) :=
  Recorded.foldl _ (fun c r => Recorded.ite (c.deliver_recorded e r x) (.refl c)) _ c

theorem pfEnd_recorded : Recorded c c.pfEnd := by
  unfold pfEnd
  dsimp only
  have h (n : Nat) : Recorded c (c.wrn Reg.EVR_PF_INFO n) := c.wrn_recorded (by decide) n
  split
  · exact (h _).trans (onEvr_recorded ..)
  · exact ((h _).trans (sticky_recorded _ (by decide) _)).trans (onEvr_recorded ..)

theorem flushDone_recorded : Recorded c (c.flushDone e) := by
  unfold flushDone
  have h (f : Evr → Evr) := (Recorded.ite (p := c.evr.pfFlush) c.pfEnd_recorded (.refl c)).trans (onEvr_recorded _ f)
  exact Recorded.ite ((h _).trans (pumpAll_recorded ..)) (h _)

theorem flushStep_recorded : Recorded c (c.flushStep e) := by
  unfold flushStep
  refine Recorded.ite (Recorded.ite (Recorded.ite (c.flushDone_recorded e) (.refl c)) ?_) (.refl c)
  exact Recorded.ite (.refl c) (c.onEvr_recorded _)

theorem flushBegin_recorded : Recorded c (c.flushBegin e) :=
  Recorded.ite ((c.onEvr_recorded _).trans (flushStep_recorded ..)) (.refl c)

theorem ramPlace_recorded (x : Record) : Recorded c (c.ramPlace x) := by
  unfold ramPlace
  have h : Recorded c ((c.bump Reg.EVR_NOR_SKIP_CNT).sticky Reg.EVR_STATUS 0x1000) :=
    (c.bump_recorded (by decide)).trans (sticky_recorded _ (by decide) _)
  exact Recorded.ite (c.onEvr_recorded _) ((Recorded.ite h (.refl c)).trans (onEvr_recorded ..))

theorem toRam_recorded (ev : Event) (n : Nat) : Recorded c (c.toRam e ev n) := by
  unfold toRam
  have h := (c.ramPlace_recorded ⟨ev, n, c.evr.next, false⟩).trans (pumpAll_recorded e _)
  exact Recorded.ite (h.trans (flushBegin_recorded ..)) h

theorem toLastGasp_recorded (ev : Event) : Recorded c (c.toLastGasp e ev) := by
  unfold toLastGasp
  refine Recorded.ite ?_ (Recorded.ite ?_ ?_)
  · exact ((c.onEvr_recorded _).trans (deliverNow_recorded ..)).trans (flushBegin_recorded ..)
  · exact (c.bump_recorded (by decide)).trans (sticky_recorded _ (by decide) _)
  · exact (c.sticky_recorded (by decide) _).trans (toRam_recorded ..)

theorem commitEnded_recorded (now : Nat) : Recorded c (c.commitEnded e now) :=
  (c.onEvr_recorded _).trans (Recorded.foldl _ (fun c (o : OpenRec) => c.toRam_recorded e o.ev o.rep) _ _)

theorem commitOpens_recorded : Recorded c (c.commitOpens e) :=
  (c.onEvr_recorded _).trans (Recorded.foldl _ (fun c (o : OpenRec) => c.toRam_recorded e o.ev o.rep) _ _)

theorem coalesce_recorded (ev : Event) : Recorded c (c.coalesce e ev) := by
  unfold coalesce
  refine Recorded.ite (c.toLastGasp_recorded ..) ?_
  have h := c.commitEnded_recorded e ev.t
  refine Recorded.trans h (Recorded.ite (toRam_recorded ..) ?_)
  split
  · have b := (c.commitEnded e ev.t).bump_recorded (a := Reg.EVR_COAL_CNT) (by decide)
    exact b.trans (Recorded.ite ((onEvr_recorded ..).trans (toRam_recorded ..)) (onEvr_recorded ..))
  · refine Recorded.trans (Recorded.ite ?_ (.refl _)) (onEvr_recorded ..)
    split
    · exact (onEvr_recorded ..).trans (toRam_recorded ..)
    · exact .refl _

theorem reportLost_recorded : Recorded c (c.reportLost e) :=
  Recorded.ite (.refl c) ((c.onEvr_recorded _).trans (coalesce_recorded ..))

theorem flushOpened_recorded (was : Bool) : Recorded c (c.flushOpened e was) :=
  Recorded.ite (c.commitOpens_recorded e) (.refl c)

/-- The intake passed on: only the recorder's part of the module changes. -/
theorem drain_recorded (n : Nat) : Recorded c (Chip.drain e n c) := by
  induction n generalizing c with
  | zero => exact .refl c
  | succ n ih =>
    unfold drain
    split
    · exact c.reportLost_recorded e
    · exact (((c.onEvr_recorded _).trans (coalesce_recorded ..)).trans (flushOpened_recorded ..)).trans (ih _)

end Chip

/-! ### The end of a command -/

/-- With no event in the intake and none to report as lost, nothing is recorded. -/
theorem Chip.drain_quiet (e : Env) (n : Nat) {c : Chip} (hi : c.evr.intake = []) (hl : c.evr.lostPend = 0) :
    Chip.drain e n c = c := by
  cases n with
  | zero => rfl
  | succ n => simp [Chip.drain, hi, Chip.reportLost, hl]

/-- No event to queue leaves the module as it is. -/
theorem Chip.queueEvents_quiet {c : Chip} (hi : c.evr.intake = []) : c.queueEvents = c := by
  have h : { c.evr with intake := c.evr.intake.foldl (fun q x => arrive x q) [] } = c.evr := by
    rw [hi, List.foldl_nil, ← hi]
  unfold Chip.queueEvents Chip.onEvr
  dsimp only
  rw [h]

/-- The module after a command is what the command's effect made of it, but for what the recorder changes. -/
theorem State.act_recorded (s : State) (f : Env → Chip → Chip) :
    Recorded (f ⟨s.mem, s.fuses⟩ s.chip) (s.act f).chip := by
  have h := (Chip.onEvr_recorded (f ⟨s.mem, s.fuses⟩ s.chip) _).trans
    (Chip.drain_recorded ⟨s.mem, s.fuses⟩ (f ⟨s.mem, s.fuses⟩ s.chip).queueEvents 512)
  exact ⟨h.rest, h.rd⟩

/-- A command that raises no event in a settled state is its effect alone. -/
theorem State.act_quiet {s : State} {f : Env → Chip → Chip} (hi : (f ⟨s.mem, s.fuses⟩ s.chip).evr.intake = [])
    (hl : (f ⟨s.mem, s.fuses⟩ s.chip).evr.lostPend = 0) : s.act f = s.effect f := by
  simp only [State.act, State.effect, Chip.queueEvents_quiet hi, Chip.drain_quiet _ _ hi hl]

/-- Such a command that issues no store changes only the module. -/
theorem State.act_plain {s : State} {f : Env → Chip → Chip} {d : Chip} (hf : f ⟨s.mem, s.fuses⟩ s.chip = d)
    (hi : d.evr.intake = []) (hl : d.evr.lostPend = 0) (ho : d.outbox = []) (hd : d.derr = []) :
    s.act f = { s with chip := d } := by
  rw [State.act_quiet (by rw [hf]; exact hi) (by rw [hf]; exact hl), State.effect, hf, ho]
  congr 1
  cases d; cases ho; cases hd; rfl

end Sys2Proof.Machine
end

