-- ==== Sys2Proof/Laws/Bus.lean ====
section
/-! SUPPORT. What a register write does once every check lets it pass, and what one that is turned away does. -/

namespace Sys2Proof.Machine

theorem Chip.busTry_plain (e : Env) (c : Chip) (q : Requester) {a : Nat} (v : Word) {r : RegRow} (hp : plainReg a = true)
    (hr : rowOf a = some r) : c.busTry e q a 15 v = (c.seenBy q).writeReg e q r a v := by
  simp only [plainReg, Bool.and_eq_true, Bool.or_eq_true, decide_eq_true_eq, beq_iff_eq] at hp
  obtain ⟨h4, h⟩ := hp
  have h1 : ¬ (a % 4 ≠ 0 ∨ (15 : BitVec 4) ≠ 15) := by simp [h4]
  have h2 : ¬ (0x800000 ≤ a ∧ a < 0x900000) := by omega
  have h3 : ¬ (0xD6000 ≤ a ∧ a < 0xD6400) := by omega
  have h5 : ¬ (0xD7000 ≤ a ∧ a < 0xD7008) := by omega
  simp only [Chip.busTry, if_neg h1, if_neg h2, if_neg h3, if_neg h5, hr]

/-- A write that every check lets pass, of a register that stands alone, has the effect of its register. -/
theorem Chip.busWrite_writable (e : Env) (c : Chip) (q : Requester) {a : Nat} {v : Word} {r : RegRow} (hp : plainReg a = true)
    (hr : rowOf a = some r) (hm : memberOf r.name = .single) (hw : c.writable q a v = true) :
    c.busWrite e q a 15 v =
      (if ((c.seenBy q).writeOne e q r a v).2 then ((c.seenBy q).writeOne e q r a v).1.discard q a 3 v
        else ((c.seenBy q).writeOne e q r a v).1) := by
  have h0 : (c.seenBy q).writeReason q r a v = 0 := by simpa [Chip.writable, hr] using hw
  simp only [Chip.busWrite, c.busTry_plain e q v hp hr, Chip.writeReg, h0, if_pos, Chip.writeMember, hm]
  split <;> rfl

/-- A write of a mapped register that a check turns away changes nothing but the record of it. -/
theorem Chip.busWrite_refused (e : Env) (c : Chip) (q : Requester) {a : Nat} {v : Word} {r : RegRow} (hp : plainReg a = true)
    (hr : rowOf a = some r) (hw : (c.seenBy q).writeReason q r a v ≠ 0)
    (hk : ¬ ((c.seenBy q).writeReason q r a v = 3 ∧ (c.seenBy q).coefBusy r a = true))
    (hs : ownerOf a ≠ blkSLD) :
    c.busWrite e q a 15 v = (c.seenBy q).discard q a ((c.seenBy q).writeReason q r a v) v := by
  simp only [Chip.busWrite, c.busTry_plain e q v hp hr, Chip.writeReg, if_neg hw, Chip.turnAway, if_neg hs]
  rw [if_neg (by simpa using hk)]

@[simp] theorem Chip.seenBy_jtag (c : Chip) : c.seenBy .jtag = c := rfl
@[simp] theorem Chip.seenBy_pair (c : Chip) (p : Fin 4) : c.seenBy (.pair p) = c := rfl

end Sys2Proof.Machine
end

