-- ==== Sys2Proof/Laws/Memory.lean ====
section
/-! SUPPORT. The laws of memory: a read after a write to the same byte, a write leaves every other byte alone, every
operation keeps the canonical form, and so does the end of every command. -/

namespace Sys2Proof.Machine

@[simp] theorem Memory.read_write_self (d : Byte) (m : Memory) (a : Nat) (b : Byte) :
    Memory.read d (Memory.write d m a b) a = b := by
  unfold Memory.read Memory.write
  split
  · rename_i h; simp [h]
  · simp

theorem Memory.read_write_ne (d : Byte) (m : Memory) {a x : Nat} (h : x ≠ a) (b : Byte) :
    Memory.read d (Memory.write d m a b) x = Memory.read d m x := by
  unfold Memory.read Memory.write
  split
  · simp [findKey_eraseKey_ne h]
  · simp [findKey_insertKey_ne h]

/-- A byte outside a run of writes reads as before. -/
theorem Memory.read_writes_outside (d : Byte) (bs : List Byte) (m : Memory) {a x : Nat} (h : x < a ∨ a + bs.length ≤ x) :
    Memory.read d (Memory.writes d m a bs) x = Memory.read d m x := by
  induction bs generalizing m a with
  | nil => rfl
  | cons b bs ih =>
    simp only [List.length_cons] at h
    rw [Memory.writes, ih _ (by omega), Memory.read_write_ne d m (by omega)]

/-- A byte inside a run of writes reads as written. -/
theorem Memory.read_writes_inside (d : Byte) (bs : List Byte) (m : Memory) (a i : Nat) (h : i < bs.length) :
    Memory.read d (Memory.writes d m a bs) (a + i) = bs[i] := by
  induction bs generalizing m a i with
  | nil => simp at h
  | cons b bs ih =>
    cases i with
    | zero => rw [Memory.writes, Memory.read_writes_outside d bs _ (by omega)]; simp
    | succ i =>
      have := ih (Memory.write d m a b) (a + 1) i (by simpa using h)
      rw [Memory.writes, show a + (i + 1) = a + 1 + i by omega, this]
      rfl

/-! ### The canonical form -/

theorem Memory.wf_iff {d : Byte} {m : Memory} : Memory.wf d m = true ↔ rising m = true ∧ ∀ x ∈ m, x.2 ≠ d := by
  simp [Memory.wf]

theorem Memory.wf_nil (d : Byte) : Memory.wf d [] = true := rfl

theorem Memory.wf_write {d : Byte} {m : Memory} (a : Nat) (b : Byte) (h : Memory.wf d m = true) :
    Memory.wf d (Memory.write d m a b) = true := by
  obtain ⟨hr, hd⟩ := Memory.wf_iff.mp h
  unfold Memory.write
  split
  · exact Memory.wf_iff.mpr ⟨rising_eraseKey a hr, fun x hx => hd x (mem_eraseKey hx).1⟩
  · rename_i hb
    refine Memory.wf_iff.mpr ⟨rising_insertKey a b hr, fun x hx => ?_⟩
    rcases mem_insertKey hx with rfl | hx
    · exact hb
    · exact hd x hx

theorem Memory.wf_writes {d : Byte} (bs : List Byte) {m : Memory} (a : Nat) (h : Memory.wf d m = true) :
    Memory.wf d (Memory.writes d m a bs) = true := by
  induction bs generalizing m a with
  | nil => exact h
  | cons b bs ih => exact ih (a + 1) (Memory.wf_write a b h)

theorem Memory.wf_clear {d : Byte} {m : Memory} (a n : Nat) (h : Memory.wf d m = true) :
    Memory.wf d (Memory.clear m a n) = true := by
  obtain ⟨hr, hd⟩ := Memory.wf_iff.mp h
  exact Memory.wf_iff.mpr ⟨rising_filter _ hr, fun x hx => hd x ((List.mem_filter.mp hx).1)⟩

theorem Mems.wf_iff {m : Mems} : m.wf = true ↔
    Memory.wf dramDefault m.dram = true ∧ Memory.wf dramDefault m.host = true ∧ Memory.wf norDefault m.nor = true ∧
    Memory.wf dramDefault m.spad = true := by
  simp [Mems.wf, and_assoc]

/-- Every store keeps the canonical form of the memories. -/
theorem MemWrite.apply_wf {m : Mems} (w : MemWrite) (h : m.wf = true) : (MemWrite.apply m w).wf = true := by
  obtain ⟨h1, h2, h3, h4⟩ := Mems.wf_iff.mp h
  cases w with
  | dram a bs => exact Mems.wf_iff.mpr ⟨Memory.wf_writes bs a h1, h2, h3, h4⟩
  | host a bs => exact Mems.wf_iff.mpr ⟨h1, Memory.wf_writes bs a h2, h3, h4⟩
  | nor a bs => exact Mems.wf_iff.mpr ⟨h1, h2, Memory.wf_writes bs a h3, h4⟩
  | norErase a n => exact Mems.wf_iff.mpr ⟨h1, h2, Memory.wf_clear a n h3, h4⟩
  | dramZero a n => exact Mems.wf_iff.mpr ⟨Memory.wf_clear a n h1, h2, h3, h4⟩
  | spad a bs => exact Mems.wf_iff.mpr ⟨h1, h2, h3, Memory.wf_writes bs a h4⟩
  | dramClear => exact Mems.wf_iff.mpr ⟨Memory.wf_nil _, h2, h3, Memory.wf_nil _⟩

theorem applyAll_wf (ws : List MemWrite) {m : Mems} (h : m.wf = true) : (ws.foldl MemWrite.apply m).wf = true := by
  induction ws generalizing m with
  | nil => exact h
  | cons w ws ih => exact ih (MemWrite.apply_wf w h)

/-! ### The end of a command -/

@[simp] theorem State.effect_pending (s : State) (f : Env → Chip → Chip) : (s.effect f).pending = s.pending := rfl
@[simp] theorem State.effect_fuses (s : State) (f : Env → Chip → Chip) : (s.effect f).fuses = s.fuses := rfl
@[simp] theorem State.effect_outbox (s : State) (f : Env → Chip → Chip) : (s.effect f).chip.outbox = [] := rfl
@[simp] theorem State.effect_derr (s : State) (f : Env → Chip → Chip) : (s.effect f).chip.derr = [] := rfl
@[simp] theorem State.act_pending (s : State) (f : Env → Chip → Chip) : (s.act f).pending = s.pending := rfl
@[simp] theorem State.act_fuses (s : State) (f : Env → Chip → Chip) : (s.act f).fuses = s.fuses := rfl
@[simp] theorem State.act_outbox (s : State) (f : Env → Chip → Chip) : (s.act f).chip.outbox = [] := rfl
@[simp] theorem State.act_derr (s : State) (f : Env → Chip → Chip) : (s.act f).chip.derr = [] := rfl

/-- Whatever a command does, its stores are applied one by one: the canonical form stays. -/
theorem State.effect_wf (s : State) (f : Env → Chip → Chip) (h : s.mem.wf = true) : (s.effect f).mem.wf = true :=
  applyAll_wf _ h

theorem State.act_wf (s : State) (f : Env → Chip → Chip) (h : s.mem.wf = true) : (s.act f).mem.wf = true :=
  State.effect_wf s _ h

end Sys2Proof.Machine
end

