-- ==== Sys2Proof/Laws/Dram.lean ====
section
/-! SUPPORT. What a DRAM read answers where the devices return no error: the bytes of memory, and nothing recorded. -/

namespace Sys2Proof.Machine

/-- A range is wholly allowed exactly where no byte of it is refused. -/
theorem firstRefused_eq_none {p : Nat → Bool} {n a : Nat} :
    firstRefused p a n = none ↔ ∀ i < n, p (a + i) = true := by
  induction n generalizing a with
  | zero => simp [firstRefused]
  | succ n ih =>
    unfold firstRefused
    by_cases h : p a = true
    · rw [if_pos h, ih]
      constructor
      · intro k i hi
        cases i with
        | zero => simpa using h
        | succ i => simpa [Nat.add_assoc, Nat.add_comm 1 i] using k i (by omega)
      · intro k i hi
        simpa [Nat.add_assoc, Nat.add_comm 1 i] using k (i + 1) (by omega)
    · rw [if_neg h]
      constructor
      · intro k
        simp at k
      · intro k
        exact absurd (by simpa using k 0 (by omega)) h

/-- With no store pending, a DRAM byte is the byte of memory. -/
theorem Chip.dramByte_quiet (e : Env) {c : Chip} (h : c.outbox = []) (a : Nat) :
    c.dramByte e a = Memory.read dramDefault e.mem.dram a := by
  simp [Chip.dramByte, h, pendingDram]

/-- With no error and no store pending, bursts read as memory holds them, and nothing is recorded. -/
theorem Chip.readBursts_quiet (e : Env) {c : Chip} (q : Nat) (h : c.derr = []) (ho : c.outbox = []) (bs : List Nat) :
    Chip.readBursts e q bs c =
      (c, bs.flatMap fun b => (List.range 128).map fun i => Memory.read dramDefault e.mem.dram (b / 128 * 128 + i), true) := by
  induction bs with
  | nil => rfl
  | cons b bs ih =>
    have hb : c.readBurst e q b false =
        (c, some ((List.range 128).map fun i => Memory.read dramDefault e.mem.dram (b / 128 * 128 + i))) := by
      unfold Chip.readBurst Chip.burstHasErr
      simp only [h, List.any_nil, Bool.false_eq_true, if_false]
      simp only [Chip.dramByte_quiet e ho]
    unfold Chip.readBursts
    rw [hb]
    simp only [ih, List.flatMap_cons]

/-- Bursts in turn are the bytes of the range they cover. -/
theorem bursts_flat (f : Nat → Byte) (a k : Nat) :
    ((List.range k).flatMap fun i => (List.range 128).map fun j => f ((a + i) * 128 + j)) =
      (List.range (128 * k)).map fun j => f (a * 128 + j) := by
  induction k with
  | zero => rfl
  | succ k ih =>
    rw [List.range_succ (n := k), List.flatMap_append, ih, show 128 * (k + 1) = 128 * k + 128 by omega, List.range_add, List.map_append,
      List.map_map, List.flatMap_singleton]
    congr 1
    apply List.map_congr_left
    intro j _
    simp only [Function.comp]
    congr 1
    omega

/-- A DRAM read inside its rights, with no error and no store pending, answers memory's bytes and changes nothing. -/
theorem Chip.dramRead_quiet (e : Env) {c : Chip} (q a n : Nat) (h : c.derr = []) (ho : c.outbox = [])
    (hr : firstRefused (mayRead q) a n = none) :
    c.dramRead e q a n = (c, ⟨(List.range n).map fun i => Memory.read dramDefault e.mem.dram (a + i), true⟩) := by
  unfold Chip.dramRead
  rw [hr]
  simp only [Chip.readBursts_quiet e q h ho]
  congr 2
  unfold burstsOf
  by_cases hn : n = 0
  · simp [hn]
  · rw [if_neg hn, List.flatMap_map]
    have : ∀ i, (a / 128 + i) * 128 / 128 * 128 = (a / 128 + i) * 128 := by intro i; omega
    simp only [this]
    rw [bursts_flat fun x => Memory.read dramDefault e.mem.dram x, ← List.map_drop, ← List.map_take]
    have hl : a % 128 + n ≤ 128 * ((a + n - 1) / 128 - a / 128 + 1) := by omega
    apply List.ext_getElem
    · simp; omega
    · intro i h1 h2
      simp only [List.getElem_map, List.getElem_take, List.getElem_drop, List.getElem_range]
      congr 1
      omega

end Sys2Proof.Machine
end

