-- ==== Sys2Proof/Laws/Exec.lean ====
section
/-! SUPPORT. What every command does, said once: it answers a next state, it leaves the queue as it found it, and but
for the end of an OTP command it acts through `State.effect`, so that memory changes by its stores alone. -/

namespace Sys2Proof.Machine

/-- A command's outcome is the end of an effect on the module. -/
def EndsEffect (s : State) (o : Host.Outcome State Fault Refusal) : Prop := ∃ f, o = .next (s.effect f)

theorem EndsEffect.act (s : State) (f : Env → Chip → Chip) : EndsEffect s (.next (s.act f)) := ⟨_, rfl⟩
theorem EndsEffect.read (s : State) (q : Requester) (a : Nat) : EndsEffect s (.next (s.regRead q a)) := .act s _
theorem EndsEffect.write (s : State) (q : Requester) (a : Nat) (v : Word) : EndsEffect s (.next (s.regWrite q a v)) :=
  .act s _

/-- Every command but OTP_COMMAND_DONE ends an effect on the module. -/
theorem exec_ends_effect (i : Instr) (s : State) (h : i ≠ .otpCommandDone) : EndsEffect s (exec i s) := by
  cases i with
  | otpCommandDone => exact absurd rfl h
  | flush w => cases w with
    | none => exact .act s _
    | some w => exact .write s _ _ _
  | rcRead q a => exact .read s _ _
  | pairLoRead q a => exact .read s _ _
  | pairHiRead q a => exact .read s _ _
  | _ => exact .act s _

/-- The effect of OTP_COMMAND_DONE on the module. -/
theorem exec_otpCommandDone (s : State) : exec .otpCommandDone s = .next s ∨
    ∃ o, s.chip.svc.otp = some o ∧ exec .otpCommandDone s =
      .next { s.act (fun _ c => c.onSvc fun x => { x with otp := none }) with fuses := s.fuses.apply o } := by
  have e : exec .otpCommandDone s = execOtpCommandDone s := rfl
  rw [e, execOtpCommandDone]
  cases s.chip.svc.otp with
  | none => exact .inl rfl
  | some o => exact .inr ⟨o, rfl, rfl⟩

/-- Every command answers a next state, with the queue as it was; its memory is that of the stores it issued, and its
OTP changes only as an OTP command's end changes it. -/
theorem exec_next (i : Instr) (s : State) : ∃ t, exec i s = .next t ∧ t.pending = s.pending ∧
    (∃ ws : List MemWrite, t.mem = ws.foldl MemWrite.apply s.mem) ∧
    (t.fuses = s.fuses ∨ ∃ o, s.chip.svc.otp = some o ∧ t.fuses = s.fuses.apply o) := by
  by_cases h : i = .otpCommandDone
  · subst h
    rcases exec_otpCommandDone s with h | ⟨o, ho, h⟩
    · exact ⟨s, h, rfl, ⟨[], rfl⟩, .inl rfl⟩
    · exact ⟨_, h, rfl, ⟨_, rfl⟩, .inr ⟨o, ho, rfl⟩⟩
  · obtain ⟨f, hf⟩ := exec_ends_effect i s h
    exact ⟨_, hf, rfl, ⟨_, rfl⟩, .inl rfl⟩

end Sys2Proof.Machine
end

