-- ==== Sys2Proof/Laws/Unsent.lean ====
section
/-! SUPPORT. With no EVENT ring enabled the recorder stores nothing and leaves the rings, and every register below the EVR window,
alone. -/

namespace Sys2Proof.Machine

/-- `d` has the stores, the rings and the registers below the EVR window of `c`. -/
structure Unsent (c d : Chip) : Prop where
  outbox : d.outbox = c.outbox
  hst : d.hst = c.hst
  rd : ∀ a, a < 0x130000 → d.rd a = c.rd a

/-- No EVENT ring is enabled. -/
def Chip.unwatched (c : Chip) : Prop := ∀ r : Fin 256, c.isEventRing r = false

namespace Unsent

theorem refl (c : Chip) : Unsent c c := ⟨rfl, rfl, fun _ _ => rfl⟩

theorem trans {c d e : Chip} (h : Unsent c d) (k : Unsent d e) : Unsent c e :=
  ⟨k.outbox.trans h.outbox, k.hst.trans h.hst, fun a l => (k.rd a l).trans (h.rd a l)⟩

theorem ite {c d e : Chip} {p : Prop} [Decidable p] (h : Unsent c d) (k : Unsent c e) : Unsent c (if p then d else e) := by
  split <;> assumption

theorem unwatched {c d : Chip} (h : Unsent c d) (k : c.unwatched) : d.unwatched := fun r => by
  have e : d.ring r = c.ring r := by unfold Chip.ring; rw [h.hst]
  have := k r
  have l : Reg.HST_RING_CFG r < 0x130000 := by
    have := r.isLt
    simp only [Reg.HST_RING_CFG]; omega
  unfold Chip.isEventRing Chip.ringType Chip.fld Chip.rdn at *
  rw [h.rd _ l, e]; exact this

end Unsent

namespace Chip

variable (e : Env) (c : Chip)

theorem wr_unsent {a : Nat} (h : 0x130000 ≤ a) (v : Word) : Unsent c (c.wr a v) :=
  ⟨rfl, rfl, fun b l => c.rd_wr_ne (by omega) v⟩

theorem onEvr_unsent (f : Evr → Evr) : Unsent c (c.onEvr f) := ⟨rfl, rfl, fun _ _ => rfl⟩

theorem tally_unsent (b v i n : Nat) : Unsent c (c.tally b v i n) := Unsent.ite (.refl c) ⟨rfl, rfl, fun _ _ => rfl⟩

theorem push_unsent (ev : Event) : Unsent c (c.push ev) := by
  unfold push
  have h : Unsent c (c.bump Reg.EVR_LOST_CNT) := c.wr_unsent (by decide) _
  refine Unsent.ite (h.trans (wr_unsent _ (by decide) _)) (Unsent.ite ⟨rfl, rfl, fun _ _ => rfl⟩ ?_)
  exact (h.trans (wr_unsent _ (a := Reg.EVR_STATUS) (by decide) _)).trans ⟨rfl, rfl, fun _ _ => rfl⟩

theorem raise_unsent (b n : Nat) (i : Inst) (v p q r : Nat) : Unsent c (c.raise b n i v p q r) :=
  (c.push_unsent _).trans (tally_unsent ..)

variable (h : c.unwatched)
include h

theorem pumpAll_unwatched : c.pumpAll e = c := by
  unfold pumpAll
  have : ∀ l : List (Fin 256), l.foldl (fun c r => c.pump e r) c = c := by
    intro l
    induction l with
    | nil => rfl
    | cons r l ih => simp only [List.foldl_cons, pump, h r, Bool.false_and, Bool.false_eq_true, if_false]; exact ih
  exact this _

theorem deliverNow_unwatched (x : Record) : c.deliverNow e x = c := by
  unfold deliverNow
  have : ∀ l : List (Fin 256), l.foldl (fun c r => if c.isEventRing r && c.accepts r x then (c.deliver e r x).1 else c) c = c := by
    intro l
    induction l with
    | nil => rfl
    | cons r l ih => simp only [List.foldl_cons, h r, Bool.false_and, Bool.false_eq_true, if_false]; exact ih
  exact this _

omit h

theorem pfEnd_unsent : Unsent c c.pfEnd := by
  unfold pfEnd
  dsimp only
  have h (n : Nat) : Unsent c (c.wrn Reg.EVR_PF_INFO n) := c.wr_unsent (by decide) _
  split
  · exact (h _).trans (onEvr_unsent ..)
  · exact ((h _).trans (wr_unsent _ (a := Reg.EVR_STATUS) (by decide) _)).trans (onEvr_unsent ..)

include h

theorem flushDone_unsent : Unsent c (c.flushDone e) := by
  unfold flushDone
  have k (f : Evr → Evr) := (Unsent.ite (p := c.evr.pfFlush) c.pfEnd_unsent (.refl c)).trans (onEvr_unsent _ f)
  dsimp only
  rw [pumpAll_unwatched e _ ((k _).unwatched h)]
  exact Unsent.ite (k _) (k _)

theorem flushStep_unsent : Unsent c (c.flushStep e) := by
  unfold flushStep
  refine Unsent.ite (Unsent.ite (Unsent.ite (c.flushDone_unsent e h) (.refl c)) ?_) (.refl c)
  exact Unsent.ite (.refl c) (c.onEvr_unsent _)

theorem flushBegin_unsent : Unsent c (c.flushBegin e) :=
  have k := c.onEvr_unsent fun v => { v with flushing := true }
  Unsent.ite (k.trans (flushStep_unsent e _ (k.unwatched h))) (.refl c)

omit h

theorem ramPlace_unsent (x : Record) : Unsent c (c.ramPlace x) := by
  unfold ramPlace
  have h : Unsent c ((c.bump Reg.EVR_NOR_SKIP_CNT).sticky Reg.EVR_STATUS 0x1000) :=
    (c.wr_unsent (a := Reg.EVR_NOR_SKIP_CNT) (by decide) _).trans (wr_unsent _ (by decide) _)
  exact Unsent.ite (c.onEvr_unsent _) ((Unsent.ite h (.refl c)).trans (onEvr_unsent ..))

include h

theorem toRam_unsent (ev : Event) (n : Nat) : Unsent c (c.toRam e ev n) := by
  unfold toRam
  have k := c.ramPlace_unsent ⟨ev, n, c.evr.next, false⟩
  rw [pumpAll_unwatched e _ (k.unwatched h)]
  exact Unsent.ite (k.trans (flushBegin_unsent e _ (k.unwatched h))) k

theorem toLastGasp_unsent (ev : Event) : Unsent c (c.toLastGasp e ev) := by
  unfold toLastGasp
  refine Unsent.ite ?_ (Unsent.ite ?_ ?_)
  · have k := c.onEvr_unsent fun v =>
      { v with lg := v.lg ++ [⟨ev, 1, c.evr.next, true⟩], next := v.next + 1, lgNums := v.lgNums ++ [v.next] }
    dsimp only
    rw [deliverNow_unwatched e _ (k.unwatched h)]
    exact k.trans (flushBegin_unsent e _ (k.unwatched h))
  · exact (c.wr_unsent (a := Reg.EVR_LOST_CNT) (by decide) _).trans (wr_unsent _ (by decide) _)
  · have k := c.wr_unsent (a := Reg.EVR_STATUS) (by decide) (c.rd Reg.EVR_STATUS ||| BitVec.ofNat 32 0x800)
    exact k.trans (toRam_unsent e _ (k.unwatched h) ..)

theorem commits_unsent (l : List OpenRec) : Unsent c (l.foldl (fun c o => c.commitOpen e o) c) := by
  induction l generalizing c with
  | nil => exact .refl c
  | cons o l ih =>
    have k := c.toRam_unsent e h o.ev o.rep
    exact k.trans (ih _ (k.unwatched h))

theorem commitEnded_unsent (now : Nat) : Unsent c (c.commitEnded e now) := by
  have k := c.onEvr_unsent fun v => { v with opens := v.opens.filter fun o => now < o.till }
  exact k.trans (commits_unsent e _ (k.unwatched h) _)

theorem commitOpens_unsent : Unsent c (c.commitOpens e) := by
  have k := c.onEvr_unsent fun v => { v with opens := [] }
  exact k.trans (commits_unsent e _ (k.unwatched h) _)

theorem coalesce_unsent (ev : Event) : Unsent c (c.coalesce e ev) := by
  unfold coalesce
  refine Unsent.ite (c.toLastGasp_unsent e h ev) ?_
  have k := c.commitEnded_unsent e h ev.t
  have u := k.unwatched h
  refine Unsent.trans k (Unsent.ite (toRam_unsent e _ u ..) ?_)
  split
  · have b := (c.commitEnded e ev.t).wr_unsent (a := Reg.EVR_COAL_CNT) (by decide)
      (BitVec.ofNat 32 (min ((c.commitEnded e ev.t).rdn Reg.EVR_COAL_CNT + 1) (2 ^ 32 - 1)))
    refine b.trans (Unsent.ite ?_ (onEvr_unsent ..))
    rename_i o _
    have x := Chip.onEvr_unsent ((c.commitEnded e ev.t).bump Reg.EVR_COAL_CNT) fun v => { v with opens := v.opens.erase o }
    exact x.trans (toRam_unsent e _ (x.unwatched (b.unwatched u)) ..)
  · refine Unsent.trans (Unsent.ite ?_ (.refl _)) (onEvr_unsent ..)
    split
    · rename_i o _
      have x := Chip.onEvr_unsent (c.commitEnded e ev.t) fun v => { v with opens := v.opens.erase o }
      exact x.trans (toRam_unsent e _ (x.unwatched u) ..)
    · exact .refl _

theorem reportLost_unsent : Unsent c (c.reportLost e) := by
  unfold reportLost
  have k := c.onEvr_unsent fun v => { v with lostPend := 0 }
  exact Unsent.ite (.refl c) (k.trans (coalesce_unsent e _ (k.unwatched h) _))

theorem flushOpened_unsent (was : Bool) : Unsent c (c.flushOpened e was) :=
  Unsent.ite (c.commitOpens_unsent e h) (.refl c)

/-- The intake passed on while no EVENT ring is enabled: nothing is stored and no ring changes. -/
theorem drain_unsent (n : Nat) : Unsent c (Chip.drain e n c) := by
  induction n generalizing c with
  | zero => exact .refl c
  | succ n ih =>
    unfold drain
    split
    · exact c.reportLost_unsent e h
    · rename_i ev evs _
      have k := c.onEvr_unsent fun v => { v with intake := evs }
      have k2 := k.trans (coalesce_unsent e _ (k.unwatched h) ev)
      have k3 := k2.trans (flushOpened_unsent e _ (k2.unwatched h) c.evr.flushing)
      exact k3.trans (ih _ (k3.unwatched h))

/-- The events that a command raised, queued and passed on. -/
theorem recorded_unsent : Unsent c (Chip.drain e 512 c.queueEvents) :=
  have k := c.onEvr_unsent _
  k.trans (drain_unsent e _ (k.unwatched h) _)

end Chip

/-- After a command with no EVENT ring enabled, the rings are what the command's effect made of them. -/
theorem State.act_hst (s : State) (f : Env → Chip → Chip) (h : (f s.env s.chip).unwatched) :
    (s.act f).chip.hst = (f s.env s.chip).hst := (Chip.recorded_unsent s.env _ h).hst

/-- So is every register below the EVR window. -/
theorem State.act_rd (s : State) (f : Env → Chip → Chip) (h : (f s.env s.chip).unwatched) {a : Nat} (l : a < 0x130000) :
    (s.act f).chip.rd a = (f s.env s.chip).rd a := (Chip.recorded_unsent s.env _ h).rd a l

/-! ### The shapes of claims -/

/-- A command that acts through `State.act` does what its effect does when that leaves the intake empty. -/
theorem Does.intro {i : Instr} {s : State} {f : Env → Chip → Chip} {d : Chip} (hx : exec i s = .next (s.act f))
    (hf : f s.env s.chip = d) (hi : d.evr.intake = []) (hl : d.evr.lostPend = 0) : Does i s d := by
  rw [Does, hx]
  have hf' : f ⟨s.mem, s.fuses⟩ s.chip = d := hf
  rw [State.act_quiet (by rw [hf']; exact hi) (by rw [hf']; exact hl)]
  simp only [State.effect, State.after, hf']

/-- A command that acts through `State.act` logs what its effect raises. -/
theorem Logs.intro {i : Instr} {s : State} {f : Env → Chip → Chip} {d : Chip} (hx : exec i s = .next (s.act f))
    (hr : Recorded d (f s.env s.chip)) (hu : Unsent d (f s.env s.chip)) : Logs i s d := by
  refine ⟨_, hx, hr.trans (State.act_recorded s f), rfl, rfl, fun h => ?_⟩
  have k := Chip.recorded_unsent s.env (f s.env s.chip) (hu.unwatched h)
  show (Chip.drain s.env 512 (f s.env s.chip).queueEvents).outbox.foldl MemWrite.apply s.mem = d.outbox.foldl MemWrite.apply s.mem
  rw [k.outbox, hu.outbox]

end Sys2Proof.Machine
end

