-- ==== Sys2Proof/Tests/Slice0.lean ====
section
/-! SUPPORT. The author's own tests: a smoke test of well-formedness, one-step tests with results from the rules, and for
every statement that has hypotheses concrete states and operands that meet them (`witness_<Statement>`), clause by
clause, at boundary values of their ranges. -/

set_option maxRecDepth 100000

open Sys2Proof Sys2Proof.Machine

namespace Sys2Proof.Tests

set_option Elab.async false

/-! ### States -/

def run : State := { State.reset with chip := { Chip.reset with svc := { Svc.reset with boot := .fwRun } } }
def chg (f : Chip → Chip) : State := { run with chip := f run.chip }
def row (a : Nat) : RegRow := (rowOf a).getD ⟨"", 0, 0, 0, 0, 0, 0, 0, 0, 0, 0, false, false, false, false⟩
def tick0 : TickIn := ⟨100, [], 0, 0, 0, [], [], [], []⟩
def desc (op : Byte) (f : Nat → Byte) : Desc := ⟨3, (List.range 32).map fun i => if i = 0 then op else if i < 4 then 0 else f i⟩
def ringed (ty : Nat) (fetched : List Desc) (cur : Option Current) (c : Chip) : Chip :=
  (((c.wrn (Reg.HST_RING_CFG 5) (ty + 0x400)).wrn (Reg.HST_RING_BASE_LO 5) 0x10000).wrn (Reg.HST_RING_CQ_LO 5) 0x20000).onRing 5 fun g =>
    { g with state := .enabled, fetched := fetched, cur := cur, sqHead := 4, sqTail := 4, cqTail := 14, cqHead := 2 }
def prof0 : Profile := ⟨0x8000, 0, 0, 0, 0, 0, 0, 0⟩
def billet0 : Billet := ⟨0x400, 2, 1, 2, 0, 0, ⟨8000, 0, 0⟩, 40, 0⟩
def ingot0 : Ingot := { base := 0x80000000, len := 0x1000, layerNo := 9, devIndex := 0, strict := false, temperMode := 0, headMask := 7, dirOff := 0x100, dirCount := 2, listOff := 0x200, sharedOff := 0x300, sharedCount := 2, profOff := 0x380, profCount := 1, temperOff := 0, nx := 0, ny := 0, x0 := 0, y0 := 0, dir := [billet0, billet0], lists := List.replicate 64 [], shared := [0, 1], profiles := [prof0] }
def shared0 (k : Nat) (st : ShState) : Shared := ⟨k, st, 0, 0, none, none⟩
def layer0 : Layer := { lease := 2, ingot := ingot0, first := 3, tLast := none, abortAt := none, endAt := none, exposed := 0, skipped := 0, withheld := 0, ownLeft := Vector.replicate 64 0, lostHeads := 0, fallback := false, plume := ⟨false, 0, 65536, 0, 0⟩, shared := [shared0 0 (.claimed 1), shared0 1 (.offered 3)], stage := Staging.reset }
def laying (f : Layer → Layer) (c : Chip) : Chip :=
  { c with scn := { c.scn with layer := some (f layer0) }, hst := { c.hst with leases := upd c.hst.leases 2 fun l => { l with
      state := .running, base := 0x80000000, len := 0x1000, layerNo := 9, ingot := some ingot0 } } }
def sparse (base : Nat) (bs : List Byte) : Memory := bs.zipIdx.filterMap fun x => if x.1 = 0 then none else some (base + x.2, x.1)
def withDram (m : Memory) (s : State) : State := { s with mem := { s.mem with dram := m } }

/-- No EVENT ring is enabled where only ring 5 is enabled, and it is none. -/
theorem silent_of {c : Chip}
    (h : ((c.hst.rings.toList.zipIdx.all fun x => !decide (x.1.state = .enabled) || c.ringType x.2 != 5)) = true) :
    ∀ k : Fin 256, c.isEventRing k = false := by
  intro k
  have hm : (c.hst.rings[k.val], k.val) ∈ c.hst.rings.toList.zipIdx := by
    rw [List.mem_zipIdx_iff_getElem?]; simp
  have := List.all_eq_true.mp h _ hm
  simp only [Chip.isEventRing, Chip.ring]
  simp only [Bool.or_eq_true, Bool.not_eq_true', decide_eq_false_iff_not, bne_iff_ne] at this
  rcases this with h | h
  · simp [h]
  · simp [h]

theorem range_of {p : Nat → Prop} {a n : Nat} (h : ∀ k < n, p (a + k)) : ∀ y, a ≤ y → y < a + n → p y := by
  intro y h1 h2
  have := h (y - a) (by omega)
  rwa [Nat.add_sub_cancel' h1] at this

/-! ### Statements about every step -/

/-- The state after a step. -/
def ran (s : State) : State := match step s with | .next t => t | _ => s

theorem step_ran (s : State) : step s = .next (ran s) := by
  unfold ran
  unfold step
  split
  · rfl
  · obtain ⟨t, h, _⟩ := exec_next (by assumption) { s with pending := by assumption }
    rw [h]

/-- The state after one command. -/
def one (i : Instr) (s : State) : State := ran { s with pending := [i] }

def storing : State :=
  { run with
    pending := [.bar2Write 5 [1, 2, 3] []]
    mem := ⟨[(7, 1)], [(9, 4)], [(3, 0)], [(5, 2)]⟩
    chip := run.chip.onDrc fun d => { d with initDone := true, chans := d.chans.map fun x => { x with up := true } } }

def burning : State := { run with pending := [.otpCommandDone], chip := run.chip.onSvc fun x => { x with otp := some (.minVer 9) } }

def emitting : State :=
  { run with
    pending := [.estop false true]
    chip := run.chip.onMpc fun m => { m with estopA := true, estopB := true, emrel := true, armed := true } }

/-- A state with an empty queue, and one with a command in front. -/
theorem witness_StepRunsFrontCommand : State.reset.pending = [] ∧ storing.pending ≠ [] := by decide +kernel

theorem witness_StepKeepsMemoryForm : storing.mem.wf = true ∧ step storing = .next (ran storing) :=
  ⟨by decide +kernel, step_ran _⟩

theorem witness_StepOnlyAddsToOtp : step burning = .next (ran burning) ∧ (ran burning).fuses ≠ burning.fuses :=
  ⟨step_ran _, by decide +kernel⟩

theorem witness_StepKeepsEmissionGuarded :
    (emitting.chip.mpc.emrel = true ∧ emitting.chip.mpc.estopA = true ∧ emitting.chip.mpc.estopB = true ∧ emitting.chip.mpc.armed = true) ∧
      step emitting = .next (ran emitting) := ⟨by decide +kernel, step_ran _⟩


/-! ### One step each, with results taken from the rules -/

/-- CRC-32 of the nine bytes "123456789", as IEEE 802.3's polynomial gives it (R102, R375: crc32). -/
theorem test_crc32 : crc32 [0x31, 0x32, 0x33, 0x34, 0x35, 0x36, 0x37, 0x38, 0x39] = 0xCBF43926 := by decide +kernel
/-- Round half away from zero. -/
theorem test_round : rndDiv 5 2 = 3 ∧ rndDiv (-5) 2 = -3 ∧ rndDiv (-3) 2 = -2 := by decide +kernel
theorem test_saturate : sat16 40000 = 32767 ∧ sat16 (-40000) = -32768 ∧ sat16 7 = 7 := by decide +kernel
/-- A tick of 2,000 reference clocks is the reset value of TTU_TICK_PERIOD (R63). -/
theorem test_reset_tick_period : State.reset.chip.rd Reg.TTU_TICK_PERIOD = 0x7D0 := by decide +kernel
/-- BASE_GIB resets to 2 (R346). -/
theorem test_reset_bar2_base : State.reset.chip.rd Reg.HST_BAR2_BASE = 2 := by decide +kernel
/-- A RO register refuses a write and keeps its value (R12). -/
theorem test_ro_write : (one (.registerWrite .host 0x0 15 7) run).chip.rd Reg.GLB_PART_ID = State.reset.chip.rd Reg.GLB_PART_ID := by
  decide +kernel
/-- A write with a byte enable missing changes nothing (R11, R12). -/
theorem test_partial_write : (one (.registerWrite .host 0x50034 7 7) run).chip.regs = [] := by decide +kernel
/-- Requests gather in TTU_COMMIT_REQ until the boundary (R55). -/
theorem test_commit_req : (one (.commitReq .host 5) (one (.commitReq .host 2) run)).chip.rd Reg.TTU_COMMIT_REQ = 7 := by
  decide +kernel
/-- DOM_ENABLE brings a domain from OFF to ACQUIRE (R355). -/
theorem test_dom_enable : (one (.domEnable .host 1 1) run).chip.ttu.domState[(1 : Fin 2)] = .acquire := by decide +kernel
/-- No release follows an emergency stop input (R193). -/
theorem test_estop : (one (.estop true false) run).chip.mpc.emrel = false := by decide +kernel
/-- OPEN waits for the boundary (R184). -/
theorem test_loop_open : (one (.loopOpen .host 127) run).chip.mpc.loops[(127 : Fin 128)].cmd = 1 := by decide +kernel
/-- SVC_LOCK only adds locks (R377). -/
theorem test_lock : (one (.svcLock .jtag 0x41) (one (.svcLock .jtag 2) run)).chip.svc.locks = 0x43 := by decide +kernel
/-- OTP_MIN_VER is refused while no image runs (R376, log entry 71). -/
theorem test_otp_refused : (one (.otpMinVer .jtag) run).chip.svc.otpRej = true ∧ (one (.otpMinVer .jtag) run).chip.svc.otp = none := by
  decide +kernel
/-- RUN of pair 2 leaves pair 0 running beside it (R380). -/
theorem test_pair_run : (one (.pairRun (.pair 0) 4) run).chip.svc.running = 5 := by decide +kernel
/-- The H2F mailbox is filled once; the second SEND sets OVF (R383). -/
theorem test_mailbox : (one (.h2fSend .host 0) (one (.h2fSend .host 0) run)).chip.bit Reg.SVC_MBOX_CTRL 8 = true := by decide +kernel
/-- ENABLE of an output leaves OFF for DETECT (R389). -/
theorem test_dsp_enable : (one (.dspEnable .host 1 1) run).chip.dsp[(1 : Fin 2)].state = .detect := by decide +kernel
/-- HPD of a sink that answers nothing is LINK_FAIL with CAUSE AUX (R389). -/
theorem test_dsp_aux : (one (.sinkDetect 1 none) (one (.dspEnable .host 1 1) run)).chip.dsp[(1 : Fin 2)].cause = 1 := by decide +kernel
/-- FREEZE reads back at once, and counting goes on until the boundary (R424). -/
theorem test_freeze : (one (.freeze .host 1) run).chip.rd Reg.PMC_CTRL = 1 ∧ (one (.freeze .host 1) run).chip.frozen = false := by
  decide +kernel
/-- A link at speed 1000BASE-X shows speed 2 (R348). -/
theorem test_link_up : (one (.linkUp 3 0) (chg (fun c => (c.wrn (Reg.NET_PORT_CFG 3) 1).wrn (Reg.NET_PORT_CTRL 3) 1))).chip.eth[(3 : Fin 4)].speed = 2 := by
  decide +kernel
/-- Loss of signal on a lane that is off leaves it off (R244). -/
theorem test_los_off : (one (.los 63 .signal) run).chip.lane[headLane 63].state = .off := by decide +kernel
/-- ENABLE on a ring of an undefined type is refused with cause 1 (R323). -/
theorem test_ring_enable : ((one (.ringEnable .host 5) (chg fun c => c.wrn (Reg.HST_RING_CFG 5) 0x40F)).chip.ring 5).state = .disabled := by
  decide +kernel

/-! ### Ill-formed commands, one for each check -/

/-- Errors of the DRAM devices that name no byte of it, no symbol's error, or one symbol twice. -/
def badErrs : List (List DramErr) := [[⟨2 ^ 32, 0, 1⟩], [⟨5, 0, 0⟩], [⟨5, 0, 1⟩, ⟨5, 0, 2⟩]]

def illErrs (e : List DramErr) : List Instr :=
  [.chain 0 e, .copy 0 e, .load 0 e, .loadCheckComplete 0 e, .latticeLoadComplete 0 e, .register 0 e, .patrolScrub e,
    .descriptorFetch 0 e, .regWrite 0 e, .klpPass 0 e, .netTx 0 e, .verticalBlanking 0 e, .imageCheck none e,
    .hostReadCompletion 0 .abort e, .assay 0 0 e, .slotReady 0 0 e, .bar2Write 0 [0] e, .bar2Read 0 1 e,
    .serviceClusterAccess 0 (.load 0 1) e, .tickBoundary { tick0 with errs := e }]

theorem wf_refuses_errs : badErrs.all (fun e => (illErrs e).all fun i => !i.wf) = true := by decide +kernel

theorem wf_refuses_registers :
    ([.refusedRead .host 0x40004 15, .rcRead .host 0x40004, .rcRead .host 0x7FFFFC, .pairLoRead .host 0x40004,
      .pairHiRead .host 0x40004, .pairLoWrite .host 0x40004 0, .pairHiWrite .host 0x40004 0,
      .coefficientWrite .host 0x40004 0] : List Instr).all (fun i => !i.wf) = true := by decide +kernel

theorem wf_refuses_ranges :
    ([.tickBoundary { tick0 with vbus := 2 ^ 16 }, .tickBoundary { tick0 with crb := [⟨0, .ok⟩] }, .regridGapEnd { tick0 with occ := 2 ^ 16 }, .slotReady 0 (2 ^ 32) [],
      .bar2Write 0 [] [], .bar2Write 0xFFFFFFFF [0, 0] [], .bar2Read 0 0 [], .bar2Read 0xFFFFFFFF 2 [], .forced (2 ^ 32),
      .identComplete 0 (some (List.replicate 9 0)), .trainingSet 0 false (0, 255) (2 ^ 32),
      .cap 0 0 [], .sample 0 0 0 false (List.replicate 5 (List.replicate 8 0)), .sample 0 0 0 false [[]],
      .sample 0 0 0 false [List.replicate 8 (2 ^ 16)], .passReply 0 0 (List.replicate 253 0),
      .headFault 0 0 (List.replicate 253 0), .vbusUv (2 ^ 16), .islandPowered (2 ^ 16), .vbusOv (2 ^ 16),
      .governorTrip 0 [1] [], .assay 0 (2 ^ 32) [],
      .sinkDetect 0 (some ([], [])), .sinkDetect 0 (some (List.replicate 16 0, [0])), .underrun 0 (2 ^ 13) 0,
      .underrun 0 0 (2 ^ 13), .railSample 0 (2 ^ 16), .tempConversion [], .fullRetrainingDone [],
      .serviceClusterAccess 0 (.load 0 0) [], .serviceClusterAccess 0 (.load (2 ^ 35) 1) [],
      .serviceClusterAccess 0 (.store 0 []) [], .serviceClusterAccess 0 (.norLoad (2 ^ 26) 1) [],
      .serviceClusterAccess 0 (.pmcLoad 0x10000 false) [], .serviceClusterAccess 0 (.pmcLoad 2 false) [],
      .serviceClusterAccess 0 (.spadLoad 0 0 []) [], .serviceClusterAccess 0 (.spadLoad (21 * 2 ^ 19) 1 []) [],
      .serviceClusterAccess 0 (.spadStore 0 []) [], .serviceClusterAccess 0 (.spadStore (21 * 2 ^ 19) [0]) []] :
        List Instr).all (fun i => !i.wf) = true := by decide +kernel

theorem wf_refuses_long_packet (bs : List Byte) (h : bs.length = 65536) : Instr.wf (.longPacket 0 none bs 0) = false := by
  show decide (bs.length < 2 ^ 16) = false
  rw [h]
  decide

/-! ### Witnesses: Core -/

namespace Core

def ticking : State := chg fun c => c.onTtu fun x => { x with index := 41, inTick := true, lock := true, noLock := false }
def released : State := chg fun c => c.onMpc fun m => { m with estopA := true, estopB := true, emrel := true, armed := true }
def coal : State := chg fun c => c.wr Reg.EVR_COAL_CFG 100
def flags : State := chg fun c => ((c.sticky Reg.SLD_FLAGS 0x7F).wr Reg.MON_FLAGS 7).wr Reg.DRC_FLAGS 0x1FF
def regridWait : State := chg fun c => (c.onTtu fun x => { x with regrid := some ⟨4000, 0, 0⟩ })
def gapS : State := chg fun c => (c.onTtu fun x => { x with regrid := some ⟨4000, 0, 0⟩, gap := true })
def dom (st : DomState) (g : Nat) : State := chg fun c => (c.wr (Reg.TTU_DOM_LIM 1) 0x00640014).onTtu fun x => { x with domState := upd x.domState 1 fun _ => st, good := upd x.good 1 fun _ => g, dom := x.dom.set 1 5000000000 }
def core1 : State := chg fun c => c.wr 0x2FD34 0x8001FFFF
def core2 : State := chg fun c => c.wr 0x1005C 0x8001FFFF

theorem witness_AcceptedWriteFollowsAccessCodes :
    (run.settled = true ∧ run.chip.writable Requester.host (BitVec.toNat (262148 : Offset)) (511 : Word) = true) ∧
    (plainReg (BitVec.toNat (262148 : Offset)) = true ∧ plainBlock (BitVec.toNat (262148 : Offset)) = true ∧ plainReg (BitVec.toNat (262196 : Offset)) = true ∧ plainBlock (BitVec.toNat (262196 : Offset)) = true ∧ plainReg (BitVec.toNat (786436 : Offset)) = true ∧ plainBlock (BitVec.toNat (786436 : Offset)) = true) ∧
    (rowOf (BitVec.toNat (262148 : Offset)) = some (row 262148) ∧ memberOf (row 262148).name = Member.single ∧ rowOf (BitVec.toNat (262196 : Offset)) = some (row 262196) ∧ memberOf (row 262196).name = Member.single ∧ rowOf (BitVec.toNat (786436 : Offset)) = some (row 786436) ∧ memberOf (row 786436).name = Member.single) ∧
    (flags.settled = true ∧ flags.chip.writable Requester.host (BitVec.toNat (262196 : Offset)) (21 : Word) = true ∧ flags.chip.writable (Requester.pair (2 : Fin 4)) (BitVec.toNat (786436 : Offset)) (21 : Word) = true) := by
  and_intros <;> first | exact silent_of (by decide +kernel) | exact range_of (by decide +kernel) | decide +kernel

theorem witness_RefusedAccessIsReportedOnly :
    coal.settled = true ∧
    ((BitVec.toNat (262149 : Offset) % 4 ≠ 0 ∨ (15 : BitVec 4) ≠ (15 : BitVec 4)) ∧ (BitVec.toNat (262148 : Offset) % 4 ≠ 0 ∨ (7 : BitVec 4) ≠ (15 : BitVec 4)) ∧ plainReg (BitVec.toNat (8388604 : Offset)) = true ∧ ¬(880640 ≤ BitVec.toNat (8388604 : Offset) ∧ BitVec.toNat (8388604 : Offset) < 880648) ∧ rowOf (BitVec.toNat (8388604 : Offset)) = none ∧ (BitVec.toNat (880638 : Offset) % 4 ≠ 0 ∨ (15 : BitVec 4) ≠ (15 : BitVec 4))) := by
  and_intros <;> first | exact silent_of (by decide +kernel) | exact range_of (by decide +kernel) | decide +kernel

theorem witness_RcReadAnswersAndClears :
    (core1.settled = true ∧ (core1.chip.seenBy Requester.host).absent (row 195892) (BitVec.toNat (195892 : Offset)) = false ∧ core1.chip.jtagLocked Requester.host = false) ∧
    (plainReg (BitVec.toNat (195892 : Offset)) = true ∧ plainReg (BitVec.toNat (65628 : Offset)) = true) ∧
    (rowOf (BitVec.toNat (195892 : Offset)) = some (row 195892) ∧ (row 195892).rc ≠ 0 ∧ rowOf (BitVec.toNat (65628 : Offset)) = some (row 65628) ∧ (row 65628).rc ≠ 0) ∧
    (core2.settled = true ∧ (core2.chip.seenBy Requester.host).absent (row 65628) (BitVec.toNat (65628 : Offset)) = false ∧ core2.chip.jtagLocked Requester.host = false) := by
  and_intros <;> first | exact silent_of (by decide +kernel) | exact range_of (by decide +kernel) | decide +kernel

end Core

/-! ### Witnesses: Pairs -/

namespace Pairs

def stg : State := chg fun c => { c with staged := [⟨.host, 0x10008, 77⟩, ⟨.host, 0xE0020, 0x1000⟩], views := [⟨.host, 0x10028, [(0x1002C, 9)]⟩] }


theorem witness_PairsLatchAndStage :
    (stg.settled = true ∧ (stg.chip.seenBy Requester.host).absent (row 65544) (BitVec.toNat (65544 : Offset)) = false ∧ stg.chip.jtagLocked Requester.host = false ∧ (stg.chip.seenBy Requester.host).absent (row 65548) (BitVec.toNat (65544 : Offset) + 4) = false ∧ stg.chip.writable Requester.host (BitVec.toNat (65544 : Offset)) (291 : Word) = true ∧ stg.chip.writable Requester.host (BitVec.toNat (65544 : Offset) + 4) (291 : Word) = true ∧ (stg.chip.seenBy (Requester.pair (1 : Fin 4))).absent (row 65544) (BitVec.toNat (65544 : Offset)) = false ∧ stg.chip.jtagLocked (Requester.pair (1 : Fin 4)) = false) ∧
    ((stg.chip.seenBy (Requester.pair (1 : Fin 4))).absent (row 65548) (BitVec.toNat (65544 : Offset) + 4) = false ∧ stg.chip.writable (Requester.pair (1 : Fin 4)) (BitVec.toNat (65544 : Offset)) (5 : Word) = true ∧ stg.chip.writable (Requester.pair (1 : Fin 4)) (BitVec.toNat (65544 : Offset) + 4) (5 : Word) = true) ∧
    (plainReg (BitVec.toNat (65544 : Offset)) = true ∧ plainReg (BitVec.toNat (65544 : Offset) + 4) = true ∧ BitVec.toNat (65544 : Offset) + 4 < 2 ^ 24) ∧
    (rowOf (BitVec.toNat (65544 : Offset)) = some (row 65544) ∧ rowOf (BitVec.toNat (65544 : Offset) + 4) = some (row 65548) ∧ memberOf (row 65544).name = Member.first 2 ∧ memberOf (row 65548).name = Member.rest 1 ∧ isStaged (row 65544).name = true ∧ pairHiNames.contains (row 65548).name = true) := by
  and_intros <;> first | exact silent_of (by decide +kernel) | exact range_of (by decide +kernel) | decide +kernel

end Pairs

/-! ### Witnesses: Ttu -/

namespace Ttu

def ticking : State := chg fun c => c.onTtu fun x => { x with index := 41, inTick := true, lock := true, noLock := false }
def regridWait : State := chg fun c => (c.onTtu fun x => { x with regrid := some ⟨4000, 0, 3⟩ })
def gapS : State := chg fun c => (c.onTtu fun x => { x with regrid := some ⟨4000, 0, 0⟩, gap := true })
def dom (st : DomState) (g : Nat) : State := chg fun c => (c.wr (Reg.TTU_DOM_LIM 1) 0x00640014).onTtu fun x => { x with domState := upd x.domState 1 fun _ => st, good := upd x.good 1 fun _ => g, dom := x.dom.set 1 (5000000000 * 2 ^ 32), act := 1 }
def domAcq : State := dom .acquire 7
def domLocked : State := dom .locked 8
def domHold : State := dom .holdover 8
def domLostS : State := dom .lost 8
def stagedClk : State := chg fun c => { c with staged := [⟨.host, Reg.TTU_DOM_SEC_LO 1, 77⟩, ⟨.host, Reg.TTU_LCL_NS, 0xC0001000⟩], ttu := { c.ttu with act := 1, dom := c.ttu.dom.set 1 (5 * 2 ^ 32) } }
def pulse1 : State := chg fun c => c.onTtu fun x => { x with index := 41, inTick := true, outCfg := 0x301, outDiv := 0x50029 }
def pulse2 : State := chg fun c => ((c.wr Reg.TTU_PPSOUT_CFG 0x00100A04).wr Reg.TTU_PPSIN_CFG 1).onTtu fun x => { x with lcl := 2000000000 * 2 ^ 32, ppsSec := 1, ppsInUnread := true }


theorem witness_CommitAndRegridRequests :
    (run.settled = true ∧ run.chip.writable Requester.host Reg.TTU_COMMIT_REQ (15 : Word) = true ∧ run.chip.writable (Requester.pair (3 : Fin 4)) Reg.TTU_COMMIT_REQ (4294967295 : Word) = true ∧ run.chip.writable Requester.host Reg.TTU_TICK_CTRL (1 : Word) = true ∧ run.chip.ttu.regrid = none ∧ ((run.chip.hst.leases.toList.all fun l => decide (l.state = LeaseState.free)) = true) ∧ (∀ (a : Fin 8), run.chip.axis[a].busy = false) ∧ (run.chip.rdn Reg.TTU_EPOCH_SEC_LO + 2 ^ 32 * run.chip.fld Reg.TTU_EPOCH_SEC_HI 15 0) * 1000000000 + run.chip.fld Reg.TTU_EPOCH_NS 29 0 ≤ run.chip.now) ∧
    (regridWait.settled = true ∧ regridWait.chip.writable Requester.jtag Reg.TTU_TICK_CTRL (1 : Word) = true ∧ regridWait.chip.ttu.regrid.isSome = true) := by
  and_intros <;> first | exact silent_of (by decide +kernel) | exact range_of (by decide +kernel) | decide +kernel

theorem witness_BoundariesNumberTicks :
    (run.chip.ttu.gap = false ∧ run.chip.ttu.regrid = none) ∧
    (ticking.chip.ttu.gap = false ∧ ticking.chip.ttu.regrid = none ∧ ticking.chip.ttu.inTick = true ∧ ticking.chip.ttu.anchored = false ∧ ticking.chip.ttu.frac = 0 ∧ ticking.chip.ttu.since ≤ ticking.chip.N) ∧
    (regridWait.chip.ttu.gap = false ∧ regridWait.chip.ttu.inTick = false ∧ regridWait.chip.ttu.regrid = some (Regrid.mk 4000 0 3)) ∧
    (gapS.settled = true ∧ gapS.chip.ttu.gap = true ∧ run.settled = true) := by
  and_intros <;> first | exact silent_of (by decide +kernel) | exact range_of (by decide +kernel) | decide +kernel

theorem witness_DeadlineMissesAreKept :
    (ticking.settled = true ∧ ticking.chip.ttu.inTick = true) := by
  decide +kernel

theorem witness_DomainsFollowTheTable :
    (run.settled = true ∧ run.chip.writable Requester.host (Reg.TTU_DOM_CTRL 1) (1 : Word) = true ∧ run.chip.writable Requester.host (Reg.TTU_DOM_UPDATE 1) (1 : Word) = true ∧ run.chip.writable Requester.host (Reg.TTU_DOM_CTRL 1) (0 : Word) = true ∧ run.chip.writable Requester.host (Reg.TTU_DOM_UPDATE 1) (0 : Word) = true) ∧
    (BitVec.getLsbD (1 : Word) 0 = true ∧ BitVec.getLsbD (1 : Word) 1 = false ∧ BitVec.getLsbD (0 : Word) 0 = false ∧ BitVec.getLsbD (20 : Word) 0 = false ∧ BitVec.getLsbD (4294967276 : Word) 0 = false ∧ BitVec.getLsbD (21 : Word) 0 = true ∧ BitVec.getLsbD (21 : Word) 1 = false ∧ BitVec.getLsbD (4 : Word) 0 = false) ∧
    (domAcq.settled = true ∧ domAcq.chip.writable Requester.host (Reg.TTU_DOM_CTRL 1) (20 : Word) = true ∧ domAcq.chip.writable Requester.host (Reg.TTU_DOM_CTRL 1) (3 : Word) = true ∧ domAcq.chip.ttu.domState[(1 : Fin 2)] ≠ DomState.off ∧ domAcq.chip.writable Requester.host (Reg.TTU_DOM_UPDATE 1) (20 : Word) = true ∧ domAcq.chip.writable Requester.host (Reg.TTU_DOM_CTRL 1) (4294967276 : Word) = true ∧ domAcq.chip.writable Requester.host (Reg.TTU_DOM_CTRL 1) (21 : Word) = true ∧ domAcq.chip.writable Requester.host (Reg.TTU_DOM_CTRL 1) (1 : Word) = true) ∧
    (domLocked.settled = true ∧ domLocked.chip.writable (Requester.pair (0 : Fin 4)) (Reg.TTU_DOM_CTRL 1) (4 : Word) = true ∧ domLocked.chip.writable (Requester.pair (0 : Fin 4)) (Reg.TTU_DOM_CTRL 1) (3 : Word) = true ∧ domLocked.chip.ttu.domState[(1 : Fin 2)] ≠ DomState.off ∧ domLocked.chip.writable (Requester.pair (0 : Fin 4)) (Reg.TTU_DOM_UPDATE 1) (4 : Word) = true) := by
  and_intros <;> first | exact silent_of (by decide +kernel) | exact range_of (by decide +kernel) | decide +kernel

theorem witness_ClocksAreSetAndStepped :
    (stagedClk.settled = true ∧ stagedClk.chip.writable Requester.host (Reg.TTU_DOM_STEP 1) (5 : Word) = true ∧ stagedClk.chip.writable Requester.host (Reg.TTU_DOM_SEC_HI 1) (5 : Word) = true ∧ stagedClk.chip.writable Requester.host Reg.TTU_LCL_SEC_HI (5 : Word) = true ∧ stagedClk.chip.writable Requester.host (Reg.TTU_DOM_STEP 1) (4294967280 : Word) = true ∧ stagedClk.chip.writable Requester.host (Reg.TTU_DOM_SEC_HI 1) (4294967280 : Word) = true ∧ stagedClk.chip.writable Requester.host Reg.TTU_LCL_SEC_HI (4294967280 : Word) = true ∧ stagedClk.chip.writable Requester.host (Reg.TTU_DOM_STEP 1) (65535 : Word) = true) ∧
    (stagedClk.chip.writable Requester.host (Reg.TTU_DOM_SEC_HI 1) (65535 : Word) = true ∧ stagedClk.chip.writable Requester.host Reg.TTU_LCL_SEC_HI (65535 : Word) = true ∧ stagedClk.chip.writable Requester.jtag (Reg.TTU_DOM_STEP 0) (2 : Word) = true ∧ stagedClk.chip.writable Requester.jtag (Reg.TTU_DOM_SEC_HI 0) (2 : Word) = true ∧ stagedClk.chip.writable Requester.jtag Reg.TTU_LCL_SEC_HI (2 : Word) = true) ∧
    (domLocked.settled = true ∧ domLocked.chip.writable Requester.host Reg.TTU_DOM_SEL (1 : Word) = true ∧ domLocked.chip.writable Requester.host Reg.TTU_DOM_SEL (3 : Word) = true) := by
  and_intros <;> first | exact silent_of (by decide +kernel) | exact range_of (by decide +kernel) | decide +kernel

theorem witness_PulsesFollowTheClocks :
    (pulse1.settled = true ∧ pulse1.chip.nextTick = some 42 ∧ pulse1.chip.pulseDue 42 = true) ∧
    (pulse2.settled = true ∧ (pulse2.chip.wait 7).ppsTime.isSome = true ∧ pulse2.chip.ttu.ppsSec < (pulse2.chip.wait 7).ppsReached ∧ pulse2.chip.ttu.ppsTill ≤ (pulse2.chip.wait 7).ttu.up ∧ pulse2.chip.bit Reg.TTU_PPSIN_CFG 0 = true) := by
  and_intros <;> first | exact silent_of (by decide +kernel) | exact range_of (by decide +kernel) | decide +kernel

end Ttu

/-! ### Witnesses: Evr -/

namespace Evr

def rec0 (n : Nat) : Record := ⟨⟨blkTTU, 3, 0, false, sevWARN, 5, 1, 2, 3⟩, 1, n, false⟩
def logS : State := chg fun c => (c.wr Reg.EVR_RD_IDX 7).onEvr fun v => { v with ram := [rec0 6, rec0 7], next := 8, oldest := 6, rdPend := true, lg := [rec0 3, rec0 4] }
def logStale : State := chg fun c => (c.wr Reg.EVR_RD_IDX 5).onEvr fun v => { v with ram := [rec0 6, rec0 7], next := 8, oldest := 6, rdPend := true }
def logNor : State := { (chg fun c => ((c.wr Reg.EVR_RD_IDX 262145).wr Reg.EVR_RD_CTRL 1).onEvr fun v => { v with rdPend := true, rdNor := true, rdStale := true }) with mem := { run.mem with nor := [(logBase + 33, 4)] } }
def openS : State := chg fun c => (c.wr Reg.EVR_CTRL 0).onEvr fun v => { v with opens := [⟨(rec0 0).ev, 3, 900⟩], ram := [rec0 6, rec0 7], next := 8, oldest := 6 }
def ringedE : State := chg fun c => (c.wr Reg.EVR_CTRL 0).onEvr fun v => { v with ram := [rec0 6, rec0 7], next := 8, oldest := 6 }
def flushable : State := chg fun c => c.onEvr fun v => { v with ram := [rec0 6, rec0 7], next := 8, oldest := 6, norNext := 7 }
def progS : State := chg fun c => c.onEvr fun v => { v with ram := [rec0 6, rec0 7], next := 8, oldest := 6, norNext := 7, prog := some [(rec0 7, false)], pos := 2047 + 2048 * 127, flushing := true, erased := 1 }
def eraseS : State := { (chg fun c => c.onEvr fun v => { v with erase := some (.ahead 127), erased := 0 }) with mem := { run.mem with nor := [(logBase + 65536 * 127, 4), (logBase + 65536 * 128, 4)] } }
def norFail : State := chg fun c => (c.wr Reg.EVR_CTRL 0).onEvr fun v => { v with norFailed := true, pos := 2048 * 127 + 3, erased := 0 }
def clrS : State := chg fun c => c.onEvr fun v => { v with ram := [rec0 6, rec0 7], next := 8, oldest := 6, norNext := 8 }
def progS2 : State := chg fun c => c.onEvr fun v => { v with ram := [rec0 6, rec0 7], next := 8, oldest := 6, norNext := 6, prog := some [(rec0 6, true), (rec0 7, false)], pos := 2047 + 2048 * 127, flushing := true, erased := 1, recovering := true, norFailed := true, clrRam := true, pfFlush := true, lg := [rec0 6] }


theorem witness_LogIsReadByIndex :
    (logS.settled = true ∧ logS.chip.writable Requester.host Reg.EVR_LG_POP (1 : Word) = true ∧ logS.chip.writable Requester.host Reg.EVR_RD_IDX (9 : Word) = true ∧ logS.chip.evr.rdPend = true ∧ logS.chip.evr.rdNor = false ∧ (logS.chip.evr.ram.find? fun r => r.num % 2 ^ 32 == logS.chip.rdn Reg.EVR_RD_IDX) = some (rec0 7)) ∧
    (logStale.settled = true ∧ logStale.chip.writable Requester.host Reg.EVR_LG_POP (1 : Word) = true ∧ logStale.chip.writable Requester.host Reg.EVR_RD_IDX (9 : Word) = true ∧ logStale.chip.evr.rdPend = true ∧ logStale.chip.evr.rdNor = false ∧ (∀ r ∈ logStale.chip.evr.ram, r.num % 2 ^ 32 ≠ logStale.chip.rdn Reg.EVR_RD_IDX)) ∧
    (logNor.settled = true ∧ logNor.chip.writable Requester.host Reg.EVR_LG_POP (1 : Word) = true ∧ logNor.chip.writable Requester.host Reg.EVR_RD_IDX (9 : Word) = true ∧ logNor.chip.evr.rdPend = true ∧ logNor.chip.evr.rdNor = true) := by
  and_intros <;> first | exact silent_of (by decide +kernel) | exact range_of (by decide +kernel) | decide +kernel

theorem witness_RecordsReachTheRings :
    (openS.settled = true ∧ openS.chip.evr.ramFailed = false ∧ openS.chip.evr.opens = [OpenRec.mk (rec0 0).ev 3 900] ∧ openS.chip.norEn = false ∧ openS.chip.evr.clrRam = false ∧ openS.chip.evr.ram.length < 4096) ∧
    (∀ (r : Fin 256), openS.chip.isEventRing r = false) ∧
    (OpenRec.mk (rec0 0).ev 3 900).till ≤ (openS.chip.wait 1000).now ∧
    (ringedE.settled = true ∧ ringedE.chip.evr.ramFailed = false ∧ ringedE.chip.evr.opens = [] ∧ 0 < ringedE.chip.fld Reg.EVR_COAL_CFG 15 0 ∧ ((ringedE.chip.evr.ram.any fun r => r.num == 6) = true) ∧ ringedE.chip.evr.norFailed = false ∧ ringedE.chip.evr.lg.length < 16 ∧ ringedE.chip.norEn = false) ∧
    ringedE.chip.evr.clrRam = false ∧
    (∀ (r : Fin 256), ringedE.chip.isEventRing r = false) := by
  and_intros <;> first | exact silent_of (by decide +kernel) | exact range_of (by decide +kernel) | decide +kernel

theorem witness_NorLogIsWrittenAndCleared :
    (flushable.settled = true ∧ flushable.chip.evr.ramFailed = false ∧ flushable.chip.evr.opens = [] ∧ flushable.chip.evr.norFailed = false ∧ flushable.chip.evr.clrNor = false ∧ flushable.chip.evr.flushing = false ∧ flushable.chip.evr.prog = none ∧ flushable.chip.evr.recovering = false ∧ flushable.chip.evr.pfFlush = false) ∧
    (flushable.chip.evr.nextPage ≠ [] ∧ flushable.chip.evr.pending ≠ [] ∧ flushable.chip.writable Requester.host Reg.EVR_CTRL ((1 : Word) ||| (2 : Word)) = true ∧ flushable.chip.norEn = true ∧ flushable.chip.evr.erase = none ∧ flushable.chip.writable Requester.host Reg.EVR_CTRL ((1 : Word) ||| (8 : Word)) = true) ∧
    (BitVec.getLsbD (1 : Word) 0 = true ∧ BitVec.getLsbD (1 : Word) 1 = false ∧ BitVec.getLsbD (1 : Word) 2 = false ∧ BitVec.getLsbD (1 : Word) 3 = false ∧ BitVec.getLsbD (0 : Word) 1 = false ∧ BitVec.getLsbD (0 : Word) 2 = false ∧ BitVec.getLsbD (0 : Word) 3 = false) ∧
    (progS.settled = true ∧ progS.chip.evr.ramFailed = false ∧ progS.chip.evr.prog = some [(rec0 7, false)] ∧ progS.chip.evr.clrNor = false) ∧
    (eraseS.settled = true ∧ eraseS.chip.evr.ramFailed = false ∧ eraseS.chip.evr.erase = some (LogErase.ahead 127) ∧ eraseS.chip.evr.clrNor = false ∧ eraseS.chip.evr.pfFlush = false) ∧
    (norFail.settled = true ∧ norFail.chip.evr.ramFailed = false ∧ norFail.chip.evr.norFailed = true ∧ norFail.chip.evr.recovering = false ∧ norFail.chip.evr.flushing = false ∧ norFail.chip.writable Requester.host Reg.EVR_CTRL ((0 : Word) ||| (1 : Word)) = true) ∧
    (clrS.settled = true ∧ clrS.chip.evr.ramFailed = false ∧ clrS.chip.evr.norFailed = false ∧ clrS.chip.evr.opens = [] ∧ clrS.chip.evr.lg = [] ∧ clrS.chip.evr.pending = [] ∧ clrS.chip.evr.prog = none ∧ clrS.chip.evr.pfFlush = false) ∧
    (clrS.chip.writable Requester.host Reg.EVR_CTRL ((1 : Word) ||| (4 : Word)) = true ∧ clrS.chip.evr.erase = none ∧ clrS.chip.writable Requester.host Reg.EVR_CTRL ((1 : Word) ||| (8 : Word)) = true ∧ clrS.chip.writable Requester.host Reg.EVR_CTRL ((0 : Word) ||| (8 : Word)) = true) ∧
    (progS2.settled = true ∧ progS2.chip.evr.ramFailed = false ∧ progS2.chip.evr.prog = some [(rec0 6, true), (rec0 7, false)] ∧ progS2.chip.evr.clrNor = false) := by
  and_intros <;> first | exact silent_of (by decide +kernel) | exact range_of (by decide +kernel) | decide +kernel

theorem witness_RailFaultStartsPowerFail :
    run.chip.svc.pfail = false ∧ (chg fun c => c.onSvc fun x => { x with pfail := true }).chip.svc.pfail = true := by
  and_intros <;> decide +kernel

end Evr

/-! ### Witnesses: Asy -/

namespace Asy

def asyBlock : List Byte :=
  let b := leBytes 8 (2 ^ 50 + 2 ^ 55) ++ leBytes 8 0x80001000 ++ leBytes 4 2500000 ++ leBytes 2 7 ++ [4, 1] ++ leBytes 2 1 ++ leBytes 2 1 ++ List.replicate 32 0
  b ++ leBytes 4 (crc32 b)
def asyDesc : Desc := desc 0x23 fun i => if i = 11 then 0x80 else 0
def asyIdle : State := { (chg (ringed 1 [asyDesc] none)) with mem := { run.mem with dram := Memory.writes 0 [] 0x80000000 asyBlock } }
def asyRun0 : AsyRun := (asyParams asyBlock).getD ⟨0,0,0,0,0,false,0,0,0,[],0,0,0,0,0,0,false,false,0,[]⟩
def asyCfg (ph : Nat) : AsyRun := { asyRun0 with chan := 50, left := [55], phase := ph, m0 := 800 }
def asyPh (ph : Nat) : State := chg fun c => { c with asy := some (asyCfg ph) }
def pmcS : State := chg fun c => { ((c.wrn (Reg.PMC_CNT_CFG 6 3) 0x1FF12).wrPair (Reg.PMC_CNT_LO 6 3) (2 ^ 48 - 5)) with pmcPend := [(6, 0x12, 4, 3), (6, 0x12, 9, 2), (6, 0x13, 9, 2)] }
def monS : State := chg fun c => c.wrn (Reg.MON_RAIL_THR 2) 0x04000300
def asy1 : State := asyPh 1
def asy2 : State := asyPh 2
def asy3 : State := asyPh 3
def asy4 : State := run

theorem witness_AssayRunsInPhases :
    (asyIdle.settled = true ∧ (asyIdle.chip.ring (5 : Fin 256)).hand = some asyDesc ∧ asyIdle.chip.nextRing = some 5 ∧ asyParams (Chip.dramRead asyIdle.env asyIdle.chip reqHST (leAt asyDesc.bytes 8 8) 64).snd.bytes = some asyRun0 ∧ asyIdle.chip.asy = none ∧ asyIdle.chip.asyReady 50 = true) ∧
    (asyDesc.op = 35 ∧ asyDesc.clean [(8, 15)] = true ∧ leAt asyDesc.bytes 8 8 < 2 ^ 35 ∧ firstRefused (mayRead reqHST) (leAt asyDesc.bytes 8 8) 64 = none) ∧
    (firstRefused (mayWrite reqHST) asyRun0.addr (32 + 32 * (asyChans asyRun0.mask).length) = none ∧ 100 * (max 2500000 asyRun0.refUv - min 2500000 asyRun0.refUv) ≤ 2 * asyRun0.refUv ∧ asyRun0.left = [50, 55]) ∧
    (∀ (a : Nat), asyRun0.addr ≤ a → a < asyRun0.addr + (32 + 32 * (asyChans asyRun0.mask).length) → asyIdle.chip.guardOf a = none) ∧
    (asy1.settled = true ∧ asy1.chip.asy = some (asyCfg 1)) ∧
    ((asyCfg 1).abort = false ∧ (asyCfg 1).phase = 1 ∧ (asyCfg 2).abort = false ∧ (asyCfg 2).phase = 2 ∧ (asyCfg 2).trim = true ∧ (asyCfg 3).abort = false ∧ (asyCfg 3).phase = 3) ∧
    (asy2.settled = true ∧ asy2.chip.asy = some (asyCfg 2)) ∧
    (asy3.settled = true ∧ asy3.chip.asy = some (asyCfg 3) ∧ asy3.chip.writable Requester.host Reg.ASY_CTRL (1 : Word) = true) ∧
    (asy4.settled = true ∧ asy4.chip.writable Requester.host Reg.ASY_CTRL (1 : Word) = true) := by
  and_intros <;> first | exact silent_of (by decide +kernel) | exact range_of (by decide +kernel) | decide +kernel

theorem witness_CountersAndMonitorsReport :
    (run.settled = true ∧ run.chip.writable Requester.host Reg.PMC_CTRL ((0 : Word) ||| (2 : Word)) = true ∧ run.chip.writable Requester.host Reg.PMC_CTRL (0 : Word) = true ∧ run.chip.writable Requester.host Reg.PMC_CTRL ((3 : Word) ||| (2 : Word)) = true ∧ run.chip.writable Requester.host Reg.PMC_CTRL (3 : Word) = true) ∧
    (pmcS.settled = true ∧ pmcS.chip.counters = [Counter.mk 6 3 18 255] ∧ pmcS.chip.frozen = false ∧ pmcS.chip.rdPair (Reg.PMC_CNT_LO 6 3) < 2 ^ 48 ∧ 2 ^ 48 ≤ pmcS.chip.rdPair (Reg.PMC_CNT_LO 6 3) + pmcS.chip.waitingFor (Counter.mk 6 3 18 255)) ∧
    ((Counter.mk 6 3 18 255).blk = 6 ∧ (Counter.mk 6 3 18 255).num = 3) ∧
    (monS.settled = true ∧ monS.chip.bit (Reg.MON_RAIL 2) 16 = false) := by
  and_intros <;> first | exact silent_of (by decide +kernel) | exact range_of (by decide +kernel) | decide +kernel

end Asy

/-! ### Witnesses: Mpc -/

namespace Mpc

def loopOn (m : Fin 128) (f : Loop → Loop) : State := chg fun c => c.onLoop m f
def loopHold : State := loopOn 5 fun l => { l with state := .fbHold, good := 15, count := 8, out := 77 }
def loopGood : State := loopOn 5 fun l => { l with state := .fbOpen, good := 16, count := 500, out := 77 }
def loopLost : State := loopOn 5 fun l => { l with state := .fbOpen, good := 15, count := 400, out := 77 }
def loopLay : State := chg fun c => (laying id c).onLoop 1 fun l => { l with state := .fbOpen, good := 15, count := 400, out := 77 }
def loopFail (d : Nat) : State := chg fun c => ((c.wrn (Reg.MPC_L1_DEST 90) d).wr (Reg.MPC_L1_FAIL_OUT 90) 0xFFFF0000).onLoop 90 fun l => { l with state := .fbOpen, count := 1 }
def trigS (k : Nat) (st : LoopState) : State := chg fun c => (((c.wr (Reg.MPC_KP 90) 0x400000).wr (Reg.MPC_L1_SETPOINT 90) 100000).wr (Reg.MPC_OUT_MAX 90) 50).onLoop 90 fun l => { l with state := st, trig := k, src := 7000, fresh := true }
def grid0 : Grid := ⟨2, 2, 0, 0⟩
def graceS : State := chg fun c => (c.onTtu fun x => { x with index := 500, inTick := true }).onTemper fun x => { x with phase := .grace, until_ := some 100, from_ := 7 }
def finalS : State := chg fun c => c.onTemper fun x => { x with phase := .finalising, learnGrid := some grid0, old := [(1, 0x9000), (2, 0xC000)], lost := [3] }
def finalW : State := { finalS with chip := finalS.chip.onTemper fun x => { x with written := true } }
def estopS : State := chg fun c => (c.onMpc fun m => { m with estopA := true, estopB := true, emrel := true, armed := true, pwrTick := true, delayDone := true }).wr Reg.MPC_EMREL_CTRL 0x1401
def estopL : State := { estopS with chip := laying id estopS.chip }
def wdogE : State := chg fun c => (c.onMpc fun m => { m with estopA := true, armed := true }).wr Reg.MPC_SAFETY_STATUS 0x1F00
def latched : State := chg fun c => (c.onMpc fun m => { m with estopA := true, estopB := true }).wr Reg.MPC_SAFETY_STATUS 0x1B00
def mpc1 : State := loopFail 0
def mpc2 : State := loopFail 0x3F1
def mpc3 : State := loopFail 0x7F3
def mpc4 : State := loopFail 0x5A3
def mpc5 : State := trigS 1 .closed
def mpc6 : State := trigS 2 .closed
def mpc7 : State := trigS 2 .fbHold

theorem few_good {c : Chip} {m k : Nat} (h : k < 1) (hm : isLevel0 m = false) : k < c.recover m := by
  unfold Chip.recover
  rw [hm]
  simp only [Bool.false_eq_true, if_false]
  omega

theorem witness_LoopCommandsAndCoefficients :
    (run.settled = true ∧ run.chip.writable Requester.host (Reg.MPC_LOOP_CMD 127) (2 : Word) = true ∧ run.chip.writable Requester.host (Reg.MPC_LOOP_CMD 127) (1 : Word) = true ∧ run.chip.writable (Requester.pair (0 : Fin 4)) (BitVec.toNat (360448 : Offset)) (5 : Word) = true ∧ run.chip.writable (Requester.pair (0 : Fin 4)) (BitVec.toNat (393044 : Offset)) (1593966591 : Word) = true ∧ run.chip.writable (Requester.pair (0 : Fin 4)) (BitVec.toNat (393044 : Offset)) (85 : Word) = true) ∧
    (plainReg (BitVec.toNat (360448 : Offset)) = true ∧ plainReg (BitVec.toNat (393044 : Offset)) = true ∧ plainReg (BitVec.toNat (361792 : Offset)) = true ∧ (Loop.mk LoopState.open 2 ((1 : Int), (2 : Int), (3 : Int), (4 : Int)) ((5 : Int), (6 : Int), (7 : Int), (8 : Int)) (9 : Int) (10 : Int) (11 : Int) true true (12 : Int) true 13 14 15 none (0 : Int) 0 false 0 0 false).cmd = 2 ∧ (Loop.mk LoopState.open 2 ((1 : Int), (2 : Int), (3 : Int), (4 : Int)) ((5 : Int), (6 : Int), (7 : Int), (8 : Int)) (9 : Int) (10 : Int) (11 : Int) true true (12 : Int) true 13 14 15 none (0 : Int) 0 false 0 0 false).state = LoopState.open) ∧
    (rowOf (BitVec.toNat (360448 : Offset)) = some (row 360448) ∧ isCoefficient (row 360448).name = true ∧ (row 360448).inst (BitVec.toNat (360448 : Offset)) = 0 ∧ rowOf (BitVec.toNat (393044 : Offset)) = some (row 393044) ∧ isCoefficient (row 393044).name = true ∧ (row 393044).inst (BitVec.toNat (393044 : Offset)) = 127 ∧ rowOf (BitVec.toNat (361792 : Offset)) = some (row 361792) ∧ isCoefficient (row 361792).name = true) ∧
    (row 361792).inst (BitVec.toNat (361792 : Offset)) = 5 ∧
    (loopHold.settled = true ∧ loopHold.chip.mpc.loops[(5 : Fin 128)].state ≠ LoopState.open ∧ (loopHold.chip.seenBy Requester.host).writeReason Requester.host (row 361792) (BitVec.toNat (361792 : Offset)) (85 : Word) = 3) := by
  and_intros <;> first | exact silent_of (by decide +kernel) | exact range_of (by decide +kernel) | decide +kernel

theorem witness_LoopCountsBringTransitions :
    (loopHold.settled = true ∧ loopHold.chip.mpc.loops[(5 : Fin 128)].state = LoopState.fbHold ∧ loopHold.chip.holdH 5 ≤ loopHold.chip.mpc.loops[(5 : Fin 128)].count) ∧
    loopHold.chip.mpc.loops[(5 : Fin 128)].good < loopHold.chip.recover 5 ∧
    (loopGood.settled = true ∧ (loopGood.chip.mpc.loops[(5 : Fin 128)].state = LoopState.fbHold ∨ loopGood.chip.mpc.loops[(5 : Fin 128)].state = LoopState.fbOpen)) ∧
    loopGood.chip.recover 5 ≤ loopGood.chip.mpc.loops[(5 : Fin 128)].good ∧
    (loopLost.settled = true ∧ loopLost.chip.mpc.loops[(5 : Fin 128)].state = LoopState.fbOpen ∧ loopLost.chip.lostL 5 ≤ loopLost.chip.mpc.loops[(5 : Fin 128)].count ∧ loopLost.chip.scn.layer = none) ∧
    loopLost.chip.mpc.loops[(5 : Fin 128)].good < loopLost.chip.recover 5 ∧
    ((5 : Fin 128) = laserLoop (5 : Fin 64) ∧ (1 : Fin 128) = laserLoop (1 : Fin 64)) ∧
    (loopLay.settled = true ∧ loopLay.chip.mpc.loops[(1 : Fin 128)].state = LoopState.fbOpen ∧ loopLay.chip.lostL 1 ≤ loopLay.chip.mpc.loops[(1 : Fin 128)].count) ∧
    loopLay.chip.mpc.loops[(1 : Fin 128)].good < loopLay.chip.recover 1 ∧
    (mpc1.settled = true ∧ mpc1.chip.mpc.loops[(90 : Fin 128)].state = LoopState.fbOpen ∧ mpc1.chip.mpc.loops[(90 : Fin 128)].failed = false ∧ mpc1.chip.mpc.loops[(90 : Fin 128)].good < mpc1.chip.recover 90 ∧ mpc1.chip.fld (Reg.MPC_L1_DEST 90) 3 0 = 0) ∧
    (mpc2.settled = true ∧ mpc2.chip.mpc.loops[(90 : Fin 128)].state = LoopState.fbOpen ∧ mpc2.chip.mpc.loops[(90 : Fin 128)].failed = false ∧ mpc2.chip.mpc.loops[(90 : Fin 128)].good < mpc2.chip.recover 90 ∧ mpc2.chip.fld (Reg.MPC_L1_DEST 90) 3 0 = 1 ∧ mpc2.chip.fld (Reg.MPC_L1_DEST 90) 11 4 = 63 ∧ mpc2.chip.loopF32 90 = false) ∧
    (mpc3.settled = true ∧ mpc3.chip.mpc.loops[(90 : Fin 128)].state = LoopState.fbOpen ∧ mpc3.chip.mpc.loops[(90 : Fin 128)].failed = false ∧ mpc3.chip.mpc.loops[(90 : Fin 128)].good < mpc3.chip.recover 90 ∧ mpc3.chip.fld (Reg.MPC_L1_DEST 90) 3 0 = 3 ∧ mpc3.chip.fld (Reg.MPC_L1_DEST 90) 11 4 = 127) ∧
    (mpc4.settled = true ∧ mpc4.chip.mpc.loops[(90 : Fin 128)].state = LoopState.fbOpen ∧ mpc4.chip.mpc.loops[(90 : Fin 128)].failed = false ∧ mpc4.chip.mpc.loops[(90 : Fin 128)].good < mpc4.chip.recover 90 ∧ mpc4.chip.fld (Reg.MPC_L1_DEST 90) 3 0 = 3 ∧ mpc4.chip.fld (Reg.MPC_L1_DEST 90) 11 4 = 90) := by
  and_intros <;> first | exact few_good (by decide +kernel) (by decide) | exact silent_of (by decide +kernel) | exact range_of (by decide +kernel) | decide +kernel

/-- A CLOSED loop of destination 0 whose trigger `k` waits. -/
def trigged (s : State) (k : Nat) : Prop :=
  s.settled = true ∧ (s.chip.mpc.loops[(90 : Fin 128)]).trig = k ∧ s.chip.fld (Reg.MPC_L1_DEST 90) 3 0 = 0 ∧
    ∀ n : Fin 128, s.chip.feeds n 3 90 = false

theorem witness_LevelOneLoopsIterate :
    (trigged mpc5 1 ∧ (mpc5.chip.mpc.loops[(90 : Fin 128)]).state = .closed) ∧
    (trigged mpc6 2 ∧ (mpc6.chip.mpc.loops[(90 : Fin 128)]).state = .closed) ∧
    (trigged mpc7 2 ∧ (mpc7.chip.mpc.loops[(90 : Fin 128)]).state ≠ .closed) := by
  and_intros <;> decide +kernel

theorem witness_TemperLearnsCodes :
    (graceS.settled = true ∧ graceS.chip.mpc.temper.phase = LearnPhase.grace ∧ graceS.chip.mpc.temper.until_ = some 100 ∧ 100 + graceS.chip.fld Reg.MPC_TMP_GRACE 15 0 ≤ graceS.chip.ttu.index) ∧
    (finalS.settled = true ∧ finalS.chip.mpc.temper.phase = LearnPhase.finalising ∧ finalS.chip.mpc.temper.learnGrid = some grid0 ∧ finalS.chip.mpc.temper.written = false ∧
      grid0.nx * grid0.ny ≤ 2 ^ 22 ∧ ∀ i : Fin 16, (finalS.chip.hst.leases[i]).state = .free) ∧
    (finalW.settled = true ∧ finalW.chip.mpc.temper.phase = .finalising ∧ finalW.chip.mpc.temper.learnGrid = some grid0 ∧
      finalW.chip.mpc.temper.written = true) := by
  and_intros <;> first | exact silent_of (by decide +kernel) | exact range_of (by decide +kernel) | decide +kernel

theorem witness_ReleaseIsRequestedAndStopped :
    (run.settled = true ∧ run.chip.writable Requester.host Reg.MPC_EMREL_CTRL (8961 : Word) = true ∧ (run.chip.emReq = false ∨ BitVec.getLsbD (8961 : Word) 0 = true ∨ run.chip.mpc.emrel = false ∨ run.chip.mpc.emrelOff.isSome = true) ∧ run.chip.writable Requester.host Reg.MPC_WDOG_CFG ((8961 : Word) ||| (2147483648 : Word)) = true ∧ run.chip.writable Requester.host Reg.MPC_LASER_STOP (1 : Word) = true ∧ run.chip.scn.armed = none ∧ run.chip.writable Requester.host Reg.MPC_EMREL_CTRL (42330 : Word) = true ∧ (run.chip.emReq = false ∨ BitVec.getLsbD (42330 : Word) 0 = true ∨ run.chip.mpc.emrel = false ∨ run.chip.mpc.emrelOff.isSome = true)) ∧
    (run.chip.writable Requester.host Reg.MPC_WDOG_CFG ((42330 : Word) ||| (2147483648 : Word)) = true ∧ run.chip.writable Requester.host Reg.MPC_EMREL_CTRL (8960 : Word) = true ∧ (run.chip.emReq = false ∨ BitVec.getLsbD (8960 : Word) 0 = true ∨ run.chip.mpc.emrel = false ∨ run.chip.mpc.emrelOff.isSome = true) ∧ run.chip.writable Requester.host Reg.MPC_WDOG_CFG ((8960 : Word) ||| (2147483648 : Word)) = true) ∧
    (estopS.settled = true ∧ estopS.chip.writable Requester.host Reg.MPC_EMREL_CTRL (8960 : Word) = true ∧ estopS.chip.emReq = true ∧ estopS.chip.mpc.emrel = true ∧ estopS.chip.mpc.emrelOff = none ∧ estopS.chip.writable Requester.host Reg.MPC_EMREL_CTRL (42330 : Word) = true ∧ estopS.chip.writable Requester.host Reg.MPC_WDOG_KICK (42330 : Word) = true ∧ estopS.chip.mpc.armed = true) ∧
    (estopS.chip.wdogExpired = false ∧ (42330 : Word) = if estopS.chip.mpc.kickA = true then (42330 : Word) else (23205 : Word)) ∧
    (BitVec.getLsbD (8960 : Word) 0 = false ∧ BitVec.getLsbD (42330 : Word) 0 = false) ∧
    (estopL.settled = true ∧ estopL.chip.writable (Requester.pair (1 : Fin 4)) Reg.MPC_EMREL_CTRL (8961 : Word) = true ∧ (estopL.chip.emReq = false ∨ BitVec.getLsbD (8961 : Word) 0 = true ∨ estopL.chip.mpc.emrel = false ∨ estopL.chip.mpc.emrelOff.isSome = true) ∧ estopL.chip.mpc.emrel = true ∧ estopL.chip.mpc.emrelOff = none ∧ estopL.chip.writable (Requester.pair (1 : Fin 4)) Reg.MPC_LASER_STOP (1 : Word) = true ∧ estopL.chip.scn.armed = none) := by
  and_intros <;> first | exact silent_of (by decide +kernel) | exact range_of (by decide +kernel) | decide +kernel

theorem witness_EmissionStopsAndLatches :
    (estopS.settled = true ∧ (estopS.chip.mpc.estopA = true ∧ false = false ∨ estopS.chip.mpc.estopB = true ∧ true = false) ∧ estopS.chip.scn.armed = none ∧ (estopS.chip.bit Reg.HVI_GLB_CFG 0 = false ∨ ∀ (x : Fin 8), estopS.chip.axis[x].underway = false) ∧ estopS.chip.mpc.armed = true ∧ estopS.chip.wdogExpired = false ∧ estopS.chip.writable Requester.host Reg.MPC_WDOG_KICK (768 : Word) = true ∧ (768 : Word) ≠ if estopS.chip.mpc.kickA = true then (42330 : Word) else (23205 : Word)) ∧
    estopS.chip.writable Requester.host Reg.MPC_SAFETY_STATUS (768 : Word) = true ∧
    (BitVec.getLsbD (768 : Word) 10 = false ∧ BitVec.getLsbD (23205 : Word) 10 = false ∧ BitVec.getLsbD (0 : Word) 10 = false) ∧
    (estopL.settled = true ∧ (estopL.chip.mpc.estopA = true ∧ true = false ∨ estopL.chip.mpc.estopB = true ∧ false = false) ∧ estopL.chip.scn.armed = none ∧ (estopL.chip.bit Reg.HVI_GLB_CFG 0 = false ∨ ∀ (x : Fin 8), estopL.chip.axis[x].underway = false) ∧ estopL.chip.mpc.armed = true ∧ estopL.chip.wdogExpired = false ∧ estopL.chip.writable Requester.host Reg.MPC_WDOG_KICK (23205 : Word) = true ∧ (23205 : Word) ≠ if estopL.chip.mpc.kickA = true then (42330 : Word) else (23205 : Word)) ∧
    (estopL.chip.writable Requester.host Reg.MPC_SAFETY_STATUS (23205 : Word) = true ∧ (¬(estopL.chip.mpc.estopA = true ∧ true = false ∨ estopL.chip.mpc.estopB = true ∧ true = false))) ∧
    (run.settled = true ∧ (¬(run.chip.mpc.estopA = true ∧ true = false ∨ run.chip.mpc.estopB = true ∧ false = false)) ∧ run.chip.writable Requester.host Reg.MPC_SAFETY_STATUS (0 : Word) = true) ∧
    (wdogE.settled = true ∧ (¬(wdogE.chip.mpc.estopA = true ∧ true = false ∨ wdogE.chip.mpc.estopB = true ∧ false = false)) ∧ wdogE.chip.mpc.estopA ≠ wdogE.chip.mpc.estopB ∧ wdogE.chip.wdogExpired = true ∧ wdogE.chip.writable Requester.host Reg.MPC_SAFETY_STATUS ((1024 : Word) ||| (1024 : Word)) = true ∧ (wdogE.chip.mpc.estopA = true ∧ false = false ∨ wdogE.chip.mpc.estopB = true ∧ false = false) ∧ wdogE.chip.scn.armed = none ∧ (wdogE.chip.bit Reg.HVI_GLB_CFG 0 = false ∨ ∀ (x : Fin 8), wdogE.chip.axis[x].underway = false)) ∧
    wdogE.chip.writable Requester.host Reg.MPC_SAFETY_STATUS ((6912 : Word) ||| (1024 : Word)) = true := by
  and_intros <;> first | exact silent_of (by decide +kernel) | exact range_of (by decide +kernel) | decide +kernel

end Mpc

/-! ### Witnesses: Layer -/

namespace Layer

def image0 : List Byte := (List.replicate 64 0).set 6 20 ++ [1]
def recs1 : List Byte := leBytes 4 1 ++ leBytes 4 100 ++ List.replicate 24 0
/-- An Ingot of one own Billet of head 0, of one JUMP record. -/
def hdrBytes : List Byte :=
  let h := leBytes 4 0x4749584D ++ leBytes 2 0x0100 ++ leBytes 2 256 ++ leBytes 4 1440 ++ leBytes 4 77 ++ List.replicate 8 0 ++ leBytes 8 1 ++
    leBytes 4 256 ++ leBytes 4 1 ++ leBytes 4 288 ++ List.replicate 8 0 ++ leBytes 4 1312 ++ leBytes 4 1 ++ List.replicate 192 0
  h ++ leBytes 4 (crc32 h)
def ingotImage : Memory :=
  sparse 0x80000000 hdrBytes ++
  sparse 0x80000100 (leBytes 4 1408 ++ leBytes 2 1 ++ [0, 0xFF, 0xFF, 0xFF, 0, 0] ++ List.replicate 16 0 ++ leBytes 4 (crc32 recs1)) ++
  sparse 0x80000120 (leBytes 4 1376 ++ leBytes 4 1) ++ sparse 0x80000520 (leBytes 2 0x8000) ++ sparse 0x80000580 recs1
def loadDesc : Desc := desc 0x10 fun i => if i = 11 then 0x80 else 0
def loadBad : Desc := desc 0x10 fun i => if i = 11 then 0x80 else if i = 9 then 8 else 0
def loadable : State := withDram ingotImage (chg (ringed 0 [loadDesc] none))
def loadOff : State := withDram ingotImage (chg (ringed 0 [loadBad] none))
def leaseL (c : Chip) : Chip := c.onLease 4 fun l => { l with state := .loading, base := 0x80000000, len := 0x1000, layerNo := 77 }
def loading : State := withDram ingotImage (chg fun c => ringed 0 [] (some ⟨loadDesc, .load 4 hdrBytes⟩) (leaseL c))
def loadingBad : State := withDram ingotImage (chg fun c => ringed 0 [] (some ⟨loadDesc, .load 4 (hdrBytes.set 19 1)⟩) (leaseL c))
def startDesc (ns rep : Nat) : Desc := desc 0x11 fun i => if i = 4 then 4 else if 16 ≤ i ∧ i < 20 then (leBytes 4 ns).getD (i - 16) 0 else if 24 ≤ i then (leBytes 8 rep).getD (i - 24) 0 else 0
def leased (st : LeaseState) (c : Chip) : Chip := c.onLease 4 fun l => { l with state := st, base := 0x80000000, len := 0x1000, layerNo := 9, ingot := some ingot0 }
def startS (ns : Nat) : State := chg fun c => (ringed 0 [startDesc ns 0x81000040] none (leased .loaded c)).onTtu fun x => { x with index := 41, inTick := true, lock := true, noLock := false }
def opDesc (op : Byte) (i4 : Byte) : Desc := desc op fun i => if i = 4 then i4 else 0
def abortS : State := chg fun c => (ringed 0 [opDesc 0x12 2] none (laying id c)).onTtu fun x => { x with index := 41, inTick := true }
def releaseS (st : LeaseState) : State := chg fun c => ringed 0 [opDesc 0x13 4] none (leased st c)
def releaseR : State := chg fun c => ringed 0 [opDesc 0x13 2] none (laying id c)
def armedS (t : Nat) (ref : Option DescRef) : State := chg fun c =>
  { (leased .armed c).onTtu fun x => { x with index := 41, inTick := true, lock := true } with scn := { c.scn with armed := some (4, Staging.reset) } }
    |>.onLease 4 fun l => { l with start := some ⟨ref, 0x81000040, t⟩ }
def endS (ref : Option DescRef) : State := chg fun c => (ringed 0 [] none ((laying (fun y => { y with endAt := some 41, tLast := some 40, exposed := 2 }) c).onLease 2 fun l => { l with start := some ⟨ref, 0x81000040, 3⟩ })).onTtu fun x => { x with index := 41, inTick := true }
def slotBillet : Billet := { billet0 with count := 1, crc := crc32 recs1, kind := 1 }
def slotLayer (y : Layer) : Layer := { y with
  ingot := { ingot0 with dir := [slotBillet, billet0] }
  stage := { Staging.reset with pool := [⟨3, 0, false, false, false, []⟩] } }
def slotS : State := withDram (sparse 0x80000400 recs1) (chg (laying slotLayer))
def slotArm : State := withDram (sparse 0x80000400 recs1) (chg fun c =>
  { (leased .armed c).onLease 4 fun l => { l with ingot := some (slotLayer layer0).ingot } with
    scn := { c.scn with armed := some (4, (slotLayer layer0).stage) } })
def latD (b : Byte) : Desc := desc 0x21 fun i => if i = 4 then 63 else if i = 5 then b else if i = 11 then 0x80 else 0
def latS (b : Byte) : State := chg (ringed 1 [latD b] none)
def latF : Desc := desc 0x21 fun i => if i = 4 then 63 else if i = 5 then 1 else 0
def load0 : LatLoad := ⟨5, 63, 1, 0x80000000, true, true⟩
def copying (k : LatLoad) (c : Chip) : Chip :=
  { (c.onHead 63 fun x => { x with banks := x.banks.set 1 ⟨.loading, []⟩ }) with scn := { c.scn with loads := [k] } }
def latL : State := chg fun c => ringed 1 [] (some ⟨latF, .lattice 63 1⟩) (copying load0 c)
def latDead : State := chg fun c => ringed 1 [] (some ⟨latF, .lattice 63 1⟩) (copying { load0 with live := false } c)
def regBlk : List Byte :=
  let b := leBytes 8 0x80002000 ++ leBytes 8 0x80003000 ++ leBytes 8 1 ++ List.replicate 12 0 ++ leBytes 2 900 ++ leBytes 2 0 ++ leBytes 4 0 ++ leBytes 4 0 ++ List.replicate 12 0
  b ++ leBytes 4 (crc32 b)
def fidEnt (k : Nat) : List Byte := leBytes 4 k ++ leBytes 4 (100 * k) ++ leBytes 4 (200 * k * k) ++ leBytes 2 9 ++ [1] ++ List.replicate 17 0
def regTab : List Byte :=
  let es := fidEnt 1 ++ fidEnt 2
  let h := leBytes 4 0x4446584D ++ leBytes 4 2 ++ List.replicate 20 0
  h ++ leBytes 4 (crc32 (h ++ es)) ++ es
def regD : Desc := desc 0x22 fun i => if i = 11 then 0x80 else if i = 9 then 0x10 else 0
def regS : State := withDram (sparse 0x80001000 regBlk ++ sparse 0x80002000 regTab) (chg fun c =>
  ((ringed 1 [regD] none c).onHead 0 fun x => { x with banks := x.banks.set 0 ⟨.ready, image0⟩ }).onTtu fun x => { x with index := 41, inTick := true, lock := true })
def regP : RegParams := (regParams regBlk).getD ⟨0, 0, 0, 0, 0, 0, 0, 0, 0⟩
def regF : List Fiducial := (tableEntries (regTab.take 32) (regTab.drop 32)).getD []
def regRun0 : RegRun := 
  { ring := 5, lease := 4, result := 0x80003000, heads := 3, target := 4000, fids := regF
    visits := [⟨0, 0, ⟨0, 0, 0⟩, 0, 0⟩, ⟨0, 1, ⟨0, 0, 0⟩, 0, 0⟩, ⟨1, 0, ⟨0, 0, 0⟩, 0, 0⟩, ⟨1, 1, ⟨0, 0, 0⟩, 0, 0⟩]
    cals := [], done := [], begun := 0, ended := some 0 }
def regE : State := chg fun c => { (ringed 1 [] (some ⟨regD, .registration⟩) ((leased .loaded c).onLease 4 fun l => { l with own := true })) with reg := some regRun0 }
def arbS : State := chg fun c => (laying (fun y => { y with shared := [shared0 0 (.claimed 1), shared0 1 (.offered 40000)] }) c).onTtu (fun x => { x with index := 41, inTick := true })
  |>.onHead 1 fun x => { x with banks := x.banks.set 0 ⟨.ready, image0⟩, gainDue := true, claims := [(0, 7)] }
def lossS : State := chg fun c => c.onHead 63 fun x => { x with pri := true, lossDue := true }
def layer1 : State := startS 999999999
def layer2 : State := startS 102500
def layer3 : State := startS 102501
def layer4 : State := releaseS .loaded
def layer5 : State := releaseR
def layer6 : State := armedS 41 (some ⟨5, 3, false⟩)
def layer7 : State := armedS 40 none
def layer8 : State := endS none
def layer9 : State := endS (some ⟨5, 3, false⟩)
def layer10 : State := latS 0
def layer11 : State := latS 1

/-- The Ingot that a load's checks pass. -/
def passed (x : Except Nat Ingot) : Option Ingot := match x with | .ok g => some g | .error _ => none

theorem ok_of {x : Except Nat Ingot} (h : (passed x).isSome = true) : ∃ g, x = .ok g := by
  cases x with
  | ok g => exact ⟨g, rfl⟩
  | error _ => exact absurd h (by simp [passed])

theorem witness_LoadsTakeALease_loaded :
    loading.settled = true ∧ loading.chip.works 5 loadDesc (.load 4 hdrBytes) ∧
      loading.chip.headerCode (headerIngot loading.chip.hst.leases[(4 : Fin 16)].base hdrBytes) hdrBytes = 0 ∧
      ∃ x, (loading.chip.bodyCheck loading.env (headerIngot loading.chip.hst.leases[(4 : Fin 16)].base hdrBytes)
        loading.chip.hst.leases[(4 : Fin 16)].written).2 = .ok x := by
  and_intros <;> first | exact silent_of (by decide +kernel) | exact ok_of (by decide +kernel) | decide +kernel

theorem witness_LoadsTakeALease :
    (loadable.settled = true ∧ (Chip.dramRead loadable.env loadable.chip reqHST (leAt loadDesc.bytes 8 8) 256).snd.ok = true ∧ magicCode (Chip.dramRead loadable.env loadable.chip reqHST (leAt loadDesc.bytes 8 8) 256).snd.bytes = 0 ∧ loadable.chip.freeLease = some (0 : Fin 16) ∧ (∀ (k : Fin 16), loadable.chip.hst.leases[k].state = LeaseState.free ∨ meets (leAt loadDesc.bytes 8 8, roundUp 4096 (headerIngot (leAt loadDesc.bytes 8 8) (Chip.dramRead loadable.env loadable.chip reqHST (leAt loadDesc.bytes 8 8) 256).snd.bytes).len) (loadable.chip.hst.leases[k].base, loadable.chip.hst.leases[k].len) = false)) ∧
    loadable.chip.holds (5 : Fin 256) loadDesc 16 ∧
    (loadDesc.clean [(8, 15)] = true ∧ leAt loadDesc.bytes 8 8 < 2 ^ 35 ∧ leAt loadDesc.bytes 8 8 % 4096 = 0 ∧ inHostData (leAt loadDesc.bytes 8 8) 256 = true ∧ (headerIngot (leAt loadDesc.bytes 8 8) (Chip.dramRead loadable.env loadable.chip reqHST (leAt loadDesc.bytes 8 8) 256).snd.bytes).rangeBad = false) ∧
    loadOff.settled = true ∧
    loadOff.chip.holds (5 : Fin 256) loadBad 16 ∧
    (loadBad.clean [(8, 15)] = true ∧ leAt loadBad.bytes 8 8 < 2 ^ 35 ∧ leAt loadBad.bytes 8 8 % 4096 ≠ 0) ∧
    (loadingBad.settled = true ∧ loadingBad.chip.headerCode (headerIngot loadingBad.chip.hst.leases[(4 : Fin 16)].base (hdrBytes.set 19 (1 : Byte))) (hdrBytes.set 19 (1 : Byte)) ≠ 0) ∧
    loadingBad.chip.works (5 : Fin 256) loadDesc (Work.load 4 (hdrBytes.set 19 (1 : Byte))) := by
  and_intros <;> first | exact silent_of (by decide +kernel) | exact range_of (by decide +kernel) | decide +kernel

theorem witness_StartsAbortsAndReleases :
    (layer1.settled = true ∧ layer1.chip.hst.leases[(4 : Fin 16)].state = LeaseState.loaded ∧ layer1.chip.hst.leases[(4 : Fin 16)].ingot = some ingot0 ∧ layer1.chip.scn.armed = none ∧ (↑layer1.chip.ttu.index : Int) < divup (((↑(leAt (startDesc 999999999 2164260928).bytes 8 6 * 1000000000 + leAt (startDesc 999999999 2164260928).bytes 16 4) : Int) - (↑layer1.chip.epochNs : Int)) * (4 : Int)) ((5 : Int) * (↑layer1.chip.N : Int))) ∧
    layer1.chip.holds (5 : Fin 256) (startDesc 999999999 2164260928) 17 ∧
    (leAt (startDesc 999999999 2164260928).bytes 4 1 = 4 ∧ (startDesc 999999999 2164260928).clean [(4, 4), (8, 13), (16, 19), (24, 31)] = true ∧ leAt (startDesc 999999999 2164260928).bytes 16 4 ≤ 999999999 ∧ leAt (startDesc 999999999 2164260928).bytes 24 8 % 64 = 0 ∧ leAt (startDesc 999999999 2164260928).bytes 24 8 ≠ 0 ∧ leAt (startDesc 102500 2164260928).bytes 4 1 = 4 ∧ (startDesc 102500 2164260928).clean [(4, 4), (8, 13), (16, 19), (24, 31)] = true ∧ leAt (startDesc 102500 2164260928).bytes 16 4 ≤ 999999999) ∧
    (leAt (startDesc 102500 2164260928).bytes 24 8 % 64 = 0 ∧ leAt (startDesc 102500 2164260928).bytes 24 8 ≠ 0 ∧ divup (((↑(leAt (startDesc 102500 2164260928).bytes 8 6 * 1000000000 + leAt (startDesc 102500 2164260928).bytes 16 4) : Int) - (↑layer2.chip.epochNs : Int)) * (4 : Int)) ((5 : Int) * (↑layer2.chip.N : Int)) ≤ (↑layer2.chip.ttu.index : Int) ∧ leAt (startDesc 102501 2164260928).bytes 4 1 = 4 ∧ (startDesc 102501 2164260928).clean [(4, 4), (8, 13), (16, 19), (24, 31)] = true ∧ leAt (startDesc 102501 2164260928).bytes 16 4 ≤ 999999999 ∧ leAt (startDesc 102501 2164260928).bytes 24 8 % 64 = 0 ∧ leAt (startDesc 102501 2164260928).bytes 24 8 ≠ 0) ∧
    (layer2.settled = true ∧ layer2.chip.hst.leases[(4 : Fin 16)].state = LeaseState.loaded ∧ layer2.chip.hst.leases[(4 : Fin 16)].ingot = some ingot0 ∧ layer2.chip.scn.armed = none) ∧
    layer2.chip.holds (5 : Fin 256) (startDesc 102500 2164260928) 17 ∧
    (layer3.settled = true ∧ layer3.chip.hst.leases[(4 : Fin 16)].state = LeaseState.loaded ∧ layer3.chip.hst.leases[(4 : Fin 16)].ingot = some ingot0 ∧ layer3.chip.scn.armed = none ∧ (↑layer3.chip.ttu.index : Int) < divup (((↑(leAt (startDesc 102501 2164260928).bytes 8 6 * 1000000000 + leAt (startDesc 102501 2164260928).bytes 16 4) : Int) - (↑layer3.chip.epochNs : Int)) * (4 : Int)) ((5 : Int) * (↑layer3.chip.N : Int))) ∧
    layer3.chip.holds (5 : Fin 256) (startDesc 102501 2164260928) 17 ∧
    (abortS.settled = true ∧ abortS.chip.hst.leases[(2 : Fin 16)].state = LeaseState.running ∧ abortS.chip.scn.layer = some layer0) ∧
    abortS.chip.holds (5 : Fin 256) (opDesc (18 : Byte) (2 : Byte)) 18 ∧
    (leAt (opDesc (18 : Byte) (2 : Byte)).bytes 4 1 = 2 ∧ (opDesc (18 : Byte) (2 : Byte)).clean [(4, 4)] = true ∧ leAt (opDesc (19 : Byte) (4 : Byte)).bytes 4 1 = 4 ∧ (opDesc (19 : Byte) (4 : Byte)).clean [(4, 4)] = true ∧ leAt (opDesc (19 : Byte) (2 : Byte)).bytes 4 1 = 2 ∧ (opDesc (19 : Byte) (2 : Byte)).clean [(4, 4)] = true) ∧
    layer0.abortAt = none ∧
    (layer4.settled = true ∧ layer4.chip.hst.leases[(4 : Fin 16)].state = LeaseState.loaded) ∧
    layer4.chip.holds (5 : Fin 256) (opDesc (19 : Byte) (4 : Byte)) 19 ∧
    (layer5.settled = true ∧ layer5.chip.hst.leases[(2 : Fin 16)].state = LeaseState.running ∧ layer5.chip.hst.leases[(2 : Fin 16)].relPend = false) ∧
    layer5.chip.holds (5 : Fin 256) (opDesc (19 : Byte) (2 : Byte)) 19 := by
  and_intros <;> first | exact silent_of (by decide +kernel) | exact range_of (by decide +kernel) | decide +kernel

theorem witness_LayersStartStageAndEnd :
    (layer6.settled = true ∧ layer6.chip.scn.armed = some ((4 : Fin 16), Staging.reset) ∧ layer6.chip.hst.leases[(4 : Fin 16)].start = some (StartRef.mk (some (DescRef.mk 5 3 false)) 2164260928 41) ∧ layer6.chip.hst.leases[(4 : Fin 16)].ingot = some ingot0 ∧ layer6.chip.ttu.inTick = true ∧ layer6.chip.scn.layer = none ∧ (StartRef.mk (some (DescRef.mk 5 3 false)) 2164260928 41).tick = layer6.chip.ttu.index ∧ layer6.chip.ttu.lock = true) ∧
    (∀ (k : Fin 256), layer6.chip.isEventRing k = false) ∧
    (layer7.settled = true ∧ layer7.chip.scn.armed = some ((4 : Fin 16), Staging.reset) ∧ layer7.chip.hst.leases[(4 : Fin 16)].start = some (StartRef.mk none 2164260928 40) ∧ layer7.chip.hst.leases[(4 : Fin 16)].ingot = some ingot0 ∧ layer7.chip.ttu.inTick = true ∧ layer7.chip.scn.layer = none ∧ (StartRef.mk none 2164260928 40).tick < layer7.chip.ttu.index ∧ layer7.chip.hst.leases[(4 : Fin 16)].relPend = false) ∧
    (∀ (k : Fin 256), layer7.chip.isEventRing k = false) ∧
    ((StartRef.mk none 2164260928 40).ref = none ∧ (StartRef.mk (some (DescRef.mk 5 3 false)) 2164260928 3).ref = some (DescRef.mk 5 3 false)) ∧
    (layer8.settled = true ∧ layer8.chip.scn.layer = some (Layer.mk layer0.lease layer0.ingot layer0.first (some 40) layer0.abortAt (some 41) 2 layer0.skipped layer0.withheld layer0.ownLeft layer0.lostHeads layer0.fallback layer0.plume layer0.shared layer0.stage) ∧ 41 ≤ layer8.chip.ttu.index ∧ layer8.chip.hst.leases[(2 : Fin 16)].relPend = false) ∧
    (∀ (k : Fin 256), layer8.chip.isEventRing k = false) ∧
    ((Layer.mk layer0.lease layer0.ingot layer0.first (some 40) layer0.abortAt (some 41) 2 layer0.skipped layer0.withheld layer0.ownLeft layer0.lostHeads layer0.fallback layer0.plume layer0.shared layer0.stage).lease = (2 : Fin 16) ∧ (Layer.mk layer0.lease layer0.ingot layer0.first (some 40) layer0.abortAt (some 41) 2 layer0.skipped layer0.withheld layer0.ownLeft layer0.lostHeads layer0.fallback layer0.plume layer0.shared layer0.stage).endAt = some 41) ∧
    (layer9.settled = true ∧ layer9.chip.scn.layer = some (Layer.mk layer0.lease layer0.ingot layer0.first (some 40) layer0.abortAt (some 41) 2 layer0.skipped layer0.withheld layer0.ownLeft layer0.lostHeads layer0.fallback layer0.plume layer0.shared layer0.stage) ∧ 41 ≤ layer9.chip.ttu.index ∧ layer9.chip.hst.leases[(2 : Fin 16)].relPend = false ∧ layer9.chip.hst.leases[(2 : Fin 16)].start = some (StartRef.mk (some (DescRef.mk 5 3 false)) 2164260928 3) ∧ (layer9.chip.ring (5 : Fin 256)).fetched = [] ∧ (layer9.chip.ring (5 : Fin 256)).cur = none) ∧
    (∀ (k : Fin 256), layer9.chip.isEventRing k = false) ∧
    layer9.chip.serves (5 : Fin 256) ∧
    (slotS.settled = true ∧ slotS.chip.scn.layer = some (slotLayer layer0) ∧ slotS.chip.hst.leases[(2 : Fin 16)].own = false) ∧
    (∀ (k : Fin 256), slotS.chip.isEventRing k = false) ∧
    (Chip.stageRead slotS.env slotS.chip (slotLayer layer0).ingot slotBillet).snd.toOption = some recs1 ∧
    (slotArm.settled = true ∧ slotArm.chip.scn.layer = none ∧ slotArm.chip.scn.armed = some (4, (slotLayer layer0).stage) ∧
      slotArm.chip.hst.leases[(4 : Fin 16)].ingot = some (slotLayer layer0).ingot ∧ slotArm.chip.visitFree 4 0 0 = true) ∧
    (Chip.stageRead slotArm.env slotArm.chip (slotLayer layer0).ingot slotBillet).snd.toOption = some recs1 ∧
    ((slotLayer layer0).lease = (2 : Fin 16) ∧ ((slotLayer layer0).ingot.dir[0]? = some slotBillet) ∧ (slotLayer layer0).stage.awaits 0 = true ∧ slotS.chip.visitFree 2 (slotLayer layer0).lostHeads 0 = true) := by
  and_intros <;> first | exact silent_of (by decide +kernel) | exact range_of (by decide +kernel) | decide +kernel

theorem witness_LatticesAndRegistrations :
    (layer10.settled = true ∧ layer10.chip.headOn 63 = true ∧ layer10.chip.bankBusy (63 : Fin 64) (0 : Fin 2) = true) ∧
    layer10.chip.holds (5 : Fin 256) (latD (0 : Byte)) 33 ∧
    (leAt (latD (0 : Byte)).bytes 4 1 = 63 ∧ leAt (latD (0 : Byte)).bytes 5 1 = 0 ∧ (latD (0 : Byte)).clean [(4, 5), (8, 15)] = true ∧ leAt (latD (1 : Byte)).bytes 4 1 = 63 ∧ leAt (latD (1 : Byte)).bytes 5 1 = 1 ∧ (latD (1 : Byte)).clean [(4, 5), (8, 15)] = true ∧ leAt (latD (1 : Byte)).bytes 8 8 % 32 = 0 ∧ leAt (latD (1 : Byte)).bytes 8 8 + imageLen ≤ 2 ^ 35) ∧
    (layer11.settled = true ∧ layer11.chip.headOn 63 = true ∧ layer11.chip.bankBusy (63 : Fin 64) (1 : Fin 2) = false) ∧
    layer11.chip.holds (5 : Fin 256) (latD (1 : Byte)) 33 ∧
    (latL.settled = true ∧ latL.chip.headOn 63 = true) ∧
    (latL.chip.scn.loads.find? (·.ring == 5) = some load0 ∧ latDead.settled = true ∧
      latDead.chip.scn.loads.find? (·.ring == 5) = some { load0 with live := false }) ∧
    latL.chip.works 5 latF (.lattice 63 1) ∧ latDead.chip.works 5 latF (.lattice 63 1) ∧
    (regS.settled = true ∧ (Chip.dramRead regS.env regS.chip reqHST (leAt regD.bytes 8 8) 64).snd.ok = true ∧ regParams (Chip.dramRead regS.env regS.chip reqHST (leAt regD.bytes 8 8) 64).snd.bytes = some regP ∧ regS.chip.scn.armed = none ∧ regS.chip.scn.layer = none ∧ regS.chip.ttu.lock = true ∧ regS.chip.reg = none ∧ regS.chip.freeLease = some (0 : Fin 16)) ∧
    ((Chip.dramRead regS.env regS.chip reqHST regP.table 32).snd.ok = true ∧ tableCount (Chip.dramRead regS.env regS.chip reqHST regP.table 32).snd.bytes = some 2 ∧ (Chip.dramRead regS.env regS.chip reqHST (regP.table + 32) (32 * 2)).snd.ok = true ∧ tableEntries (Chip.dramRead regS.env regS.chip reqHST regP.table 32).snd.bytes (Chip.dramRead regS.env regS.chip reqHST (regP.table + 32) (32 * 2)).snd.bytes = some regF) ∧
    regS.chip.holds (5 : Fin 256) regD 34 ∧
    (regD.clean [(8, 15)] = true ∧ leAt regD.bytes 8 8 < 2 ^ 35 ∧ firstRefused (mayRead reqHST) (leAt regD.bytes 8 8) 64 = none) ∧
    (firstRefused (mayWrite reqHST) regP.result 32 = none ∧ firstRefused (mayRead reqHST) regP.table 32 = none ∧ firstRefused (mayRead reqHST) (regP.table + 32) (32 * 2) = none ∧ (∀ (k : Fin 64), regP.heads.getLsbD (↑k : Nat) = true → regS.chip.hd[k].bank.isReady = true)) ∧
    (∀ (y : Nat), regP.result ≤ y → y < regP.result + 32 → regS.chip.guardOf y = none) ∧
    (regE.settled = true ∧ regE.chip.reg = some regRun0 ∧ regE.chip.hst.leases[regRun0.lease].own = true ∧ regE.chip.hst.leases[regRun0.lease].state = LeaseState.loaded) ∧
    regE.chip.works (5 : Fin 256) regD Work.registration ∧
    (regRun0.ring = 5 ∧ regRun0.ended = some 0 ∧ (0 : Nat) ≠ 0x4D) := by
  and_intros <;> first | exact silent_of (by decide +kernel) | exact range_of (by decide +kernel) | decide +kernel

theorem witness_ArbitrationGrantsAndAges :
    (arbS.settled = true ∧ arbS.chip.scn.layer = some (Layer.mk layer0.lease layer0.ingot layer0.first layer0.tLast layer0.abortAt layer0.endAt layer0.exposed layer0.skipped layer0.withheld layer0.ownLeft layer0.lostHeads layer0.fallback layer0.plume [shared0 0 (ShState.claimed 1), shared0 1 (ShState.offered 40000)] layer0.stage) ∧ arbS.chip.resolveOrder (Layer.mk layer0.lease layer0.ingot layer0.first layer0.tLast layer0.abortAt layer0.endAt layer0.exposed layer0.skipped layer0.withheld layer0.ownLeft layer0.lostHeads layer0.fallback layer0.plume [shared0 0 (ShState.claimed 1), shared0 1 (ShState.offered 40000)] layer0.stage) = [(40000, shared0 1 (ShState.offered 40000))] ∧ arbS.chip.forceTicks ≤ 40000 ∧ arbS.chip.ttu.inTick = true ∧ arbS.chip.ttu.miss.arb = none ∧ arbS.chip.eligible (Layer.mk layer0.lease layer0.ingot layer0.first layer0.tLast layer0.abortAt layer0.endAt layer0.exposed layer0.skipped layer0.withheld layer0.ownLeft layer0.lostHeads layer0.fallback layer0.plume [shared0 0 (ShState.claimed 1), shared0 1 (ShState.offered 40000)] layer0.stage) (shared0 1 (ShState.offered 40000)) (1 : Fin 64) = true ∧ arbS.chip.hd[(1 : Fin 64)].gainDue = true) ∧
    ((Layer.mk layer0.lease layer0.ingot layer0.first layer0.tLast layer0.abortAt layer0.endAt layer0.exposed layer0.skipped layer0.withheld layer0.ownLeft layer0.lostHeads layer0.fallback layer0.plume [shared0 0 (ShState.claimed 1), shared0 1 (ShState.offered 40000)] layer0.stage).abortAt = none ∧ ((1 : Fin 64) ∈ (Layer.mk layer0.lease layer0.ingot layer0.first layer0.tLast layer0.abortAt layer0.endAt layer0.exposed layer0.skipped layer0.withheld layer0.ownLeft layer0.lostHeads layer0.fallback layer0.plume [shared0 0 (ShState.claimed 1), shared0 1 (ShState.offered 40000)] layer0.stage).candidates (shared0 1 (ShState.offered 40000)).billet)) ∧
    (lossS.settled = true ∧ lossS.chip.hd[(63 : Fin 64)].lossDue = true) := by
  and_intros <;> first | exact silent_of (by decide +kernel) | exact range_of (by decide +kernel) | decide +kernel

def latC : State := chg fun c => ringed 1 [] (some ⟨latD 1, .lattice 63 1⟩) (copying load0 c)

theorem lattice_readable : firstRefused (mayRead reqLattice) 0x80000000 imageLen = none := by
  rw [firstRefused_eq_none]
  intro i hi
  have : imageLen = 68704 := rfl
  unfold mayRead
  rw [if_neg (by decide), if_neg (by omega), if_neg (by omega)]
  exact decide_eq_true (by omega)

/-! ### A lattice image that passes every check (R141) -/

def goodHdr : List Byte := [0x4D, 0x58, 0x4C, 0x54, 0x00, 0x01, 8] ++ List.replicate 53 0
def goodCrc : Nat := crc32 (goodHdr ++ List.replicate 68612 0)
def goodImage : List Byte := (goodHdr ++ leBytes 4 goodCrc) ++ List.replicate 68640 0

theorem crc32_lt (bs : List Byte) : crc32 bs < 2 ^ 32 := by
  have hb : ∀ c, c < 2 ^ 32 → crc32Bit c < 2 ^ 32 := by
    intro c h
    unfold crc32Bit
    split
    · exact Nat.xor_lt_two_pow (by omega) (by decide)
    · omega
  have hy : ∀ c (b : Byte), c < 2 ^ 32 → crc32Byte c b < 2 ^ 32 := by
    intro c b h
    have h0 : c ^^^ b.toNat < 2 ^ 32 := Nat.xor_lt_two_pow h (by have := b.isLt; omega)
    unfold crc32Byte
    generalize c ^^^ b.toNat = x at h0
    generalize List.range 8 = l
    induction l generalizing x with
    | nil => exact h0
    | cons _ l ih => exact ih _ (hb x h0)
  have hf : ∀ c, c < 2 ^ 32 → bs.foldl crc32Byte c < 2 ^ 32 := by
    induction bs with
    | nil => exact fun c h => h
    | cons b bs ih => exact fun c h => ih _ (hy c b h)
  exact Nat.xor_lt_two_pow (hf _ (by decide)) (by decide)

theorem leNat_leBytes_four {x : Nat} (h : x < 2 ^ 32) : leNat (leBytes 4 x) = x := by
  simp only [leBytes, leNat, BitVec.toNat_ofNat]
  omega

theorem bytesAt_left (a b : List Byte) (lo k : Nat) (h : lo + k ≤ a.length) : bytesAt (a ++ b) lo k = bytesAt a lo k := by
  unfold bytesAt
  apply List.map_congr_left
  intro i hi
  rw [List.mem_range] at hi
  simp only [List.getD_eq_getElem?_getD]
  rw [List.getElem?_append_left (by omega)]

theorem goodImage_passes : imageCode goodImage = 0 := by
  have hl : goodHdr.length = 60 := by decide
  have hf : (goodHdr ++ leBytes 4 goodCrc).length = 64 := by simp [hl, leBytes]
  have h : ∀ lo k, lo + k ≤ 60 → leAt goodImage lo k = leAt goodHdr lo k := by
    intro lo k hk
    unfold leAt goodImage
    rw [bytesAt_left _ _ _ _ (by omega), bytesAt_left _ _ _ _ (by omega)]
  have hc : leAt goodImage 60 4 = goodCrc := by
    have : bytesAt goodImage 60 4 = leBytes 4 goodCrc := by
      unfold goodImage
      rw [bytesAt_left _ _ _ _ (by omega)]
      unfold bytesAt
      simp only [List.getD_eq_getElem?_getD]
      have : ∀ i, (goodHdr ++ leBytes 4 goodCrc)[60 + i]? = (leBytes 4 goodCrc)[i]? := by
        intro i
        rw [List.getElem?_append_right (by omega), hl, Nat.add_sub_cancel_left]
      simp only [this]
      rfl
    unfold leAt
    rw [this]
    exact leNat_leBytes_four (crc32_lt _)
  have ht : goodImage.take 60 = goodHdr := by
    unfold goodImage
    rw [List.append_assoc, List.take_left' hl]
  have hd : (goodImage.drop 64).take (imageCrcEnd - 64) = List.replicate 68612 0 := by
    unfold goodImage
    rw [List.drop_left' hf, List.take_replicate]
    rfl
  unfold imageCode Bank.pitch Bank.xyShift Bank.zShift Bank.goffX Bank.goffY Bank.zoff leSAt
  simp only [hc, ht, hd]
  simp only [h 0 4 (by omega), h 4 2 (by omega), h 52 8 (by omega), h 6 1 (by omega), h 7 1 (by omega), h 36 4 (by omega),
    h 40 4 (by omega), h 44 4 (by omega)]
  rw [if_neg (by decide +kernel), if_neg (by decide +kernel), if_neg (fun k => k rfl)]

/-- What was written at an address reads back. -/
theorem reads_back (m : Memory) (a : Nat) (x : List Byte) :
    (List.range x.length).map (fun i => Memory.read dramDefault (Memory.writes dramDefault m a x) (a + i)) = x := by
  apply List.ext_getElem
  · simp
  · intro i h1 h2
    simp only [List.getElem_map, List.getElem_range]
    exact Memory.read_writes_inside _ _ _ _ _ h2

/-- A state that loads a lattice, with an image at 2 GiB. -/
def latGood (im : List Byte) : State := withDram (Memory.writes dramDefault [] 0x80000000 im) latC

theorem latGood_read (im : List Byte) (h : im.length = imageLen) :
    (latGood im).chip.dramRead (latGood im).env reqLattice 0x80000000 imageLen = (latC.chip, ⟨im, true⟩) := by
  rw [Chip.dramRead_quiet _ _ _ _ rfl rfl lattice_readable, ← h]
  show (latC.chip, (⟨_, true⟩ : DramData)) = _
  rw [show (latGood im).env.mem.dram = Memory.writes dramDefault [] 0x80000000 im from rfl, reads_back]

theorem goodImage_length : goodImage.length = imageLen := by
  simp only [goodImage, List.length_append, List.length_replicate]
  rfl

theorem latC_loading : latC.chip.scn.loads.find? (·.ring == 5) = some load0 := by decide +kernel

theorem witness_LatticesAndRegistrations_accepted : ∃ s : State, s.settled = true ∧ s.chip.headOn 63 = true ∧
      s.chip.works 5 (latD 1) (.lattice 63 1) ∧ s.chip.scn.loads.find? (·.ring == 5) = some load0 ∧
      firstRefused (mayRead reqLattice) load0.addr imageLen = none ∧
      (s.chip.dramRead s.env reqLattice load0.addr imageLen).2.ok = true ∧
      imageCode (s.chip.dramRead s.env reqLattice load0.addr imageLen).2.bytes = 0 := by
  have key : ∀ im : List Byte, im.length = imageLen → imageCode im = 0 →
      (latGood im).settled = true ∧ (latGood im).chip.headOn 63 = true ∧
      (latGood im).chip.works 5 (latD 1) (.lattice 63 1) ∧ (latGood im).chip.scn.loads.find? (·.ring == 5) = some load0 ∧
      firstRefused (mayRead reqLattice) load0.addr imageLen = none ∧
      ((latGood im).chip.dramRead (latGood im).env reqLattice load0.addr imageLen).2.ok = true ∧
      imageCode ((latGood im).chip.dramRead (latGood im).env reqLattice load0.addr imageLen).2.bytes = 0 := by
    intro im hl h
    rw [show load0.addr = 0x80000000 from rfl, latGood_read im hl]
    have a : latC.settled = true := by decide +kernel
    have b : latC.chip.headOn 63 = true := by decide +kernel
    have c : latC.chip.works 5 (latD 1) (.lattice 63 1) := by and_intros <;> first | exact silent_of (by decide +kernel) | decide +kernel
    exact ⟨a, b, c, latC_loading, lattice_readable, rfl, h⟩
  exact ⟨_, key goodImage goodImage_length goodImage_passes⟩

end Layer

/-! ### Witnesses: Cam -/

namespace Cam

def camOn (p : Fin 16) (f : Cam → Cam) (c : Chip) : Chip := (c.onCam p f).onTtu fun x => { x with index := 41, inTick := true, lock := true }
def cfg0 (h : Nat) : CamCfg := ⟨0x2B, 4, h, 0, 64, 512, 500, [⟨0, 0, 0, 2, 2⟩], [], 3, 65536, 0, 0, 65536, 0, 0⟩
def frame0 (h : Nat) (ls : List (List Nat)) : CamFrame := ⟨cfg0 h, 9, 0, 5, false, 3, 40, 0, false, ls, none, 30, false, false, false, false, 0, none⟩
def camIdle : State := chg (camOn 15 fun k => { k with state := .idle, gap := true, idOk := true, seq := 2 ^ 32 - 1 })
def camBadCfg : State := chg fun c => (c.wrn (Reg.CAM_ROI_SIZE 3 0) 0x01010101).wrn (Reg.CAM_PHY_CFG 3) 0x5DD
def camFrameS (h : Nat) : State := chg (camOn 15 fun k => { k with state := .inFrame, frame := some (frame0 h [[1, 2, 3, 4]]) })
def camTmo : State := chg fun c => camOn 15 (fun k => { k with state := .inFrame, frame := some (frame0 1 [[1, 2, 3, 4]]) }) (c.wrn (Reg.CAM_FRAME_CFG 15) 0x000B0000)
def camIdent (cfg : Nat) : State := chg fun c => camOn 0 (fun k => { k with state := .ident }) ((c.wrn (Reg.CAM_ID_CFG 0) cfg).wrPair (Reg.CAM_ID_EXP_LO 0) 0x0102)
def gen0 : ExpGen := ⟨7, 100, [1, 2]⟩
def camGen (p x : Option ExpGen) : State := chg fun c => camOn 2 (fun k => { k with state := .idle, gap := true, seq := 5, pend := p, xfer := x, lastGen := 65535, waiting := [⟨3, 50, 9, true⟩] }) ((c.wrn (Reg.CAM_CCI_CFG 2) 0x3500).wrn (Reg.CAM_EXP_WR 2 1) 77)
def shut0 : CamFrame := { frame0 4 [[600, 600, 0, 600], [0, 0, 0, 600]] with closeTick := 41 }
def camClosed : State := chg (camOn 2 fun k => { k with closed := [shut0, frame0 1 []], gen := 1 })
def cam1 : State := camFrameS 2
def cam2 : State := camIdent 0
def cam3 : State := camIdent 0x10000
def cam4 : State := camIdent 0x120000
def cam5 : State := camIdent 0x180000
def cam6 : State := camIdent 0x80000
def cam7 : State := camIdent 0xF0000
def cam8 : State := camFrameS 1
def camEmb : State := { camFrameS 2 with chip := (camFrameS 2).chip.wrn (Reg.CAM_BIND 15) 0x1002B }
def cam9 : State := camGen none none
def cam10 : State := camGen (some gen0) none
def cam11 : State := camGen (some gen0) (some gen0)

theorem witness_PipelinesStartAndIdentify_valid :
    run.settled = true ∧ run.chip.writable .host (Reg.CAM_CTRL 3) (0 ||| 1) = true ∧ run.chip.cam[(3 : Fin 16)].state = .off ∧
      ((run.chip.seenBy .host).wr (Reg.CAM_CTRL 3)
        ((run.chip.rd (Reg.CAM_CTRL 3) &&& ~~~0xFFF7) ||| ((0 ||| 1) &&& 0xFFF7))).camValid 3 = true := by
  and_intros <;> decide +kernel

theorem witness_PipelinesStartAndIdentify :
    (camBadCfg.settled = true ∧ camBadCfg.chip.writable Requester.host (Reg.CAM_CTRL 3) ((17 : Word) ||| (1 : Word)) = true ∧ camBadCfg.chip.cam[(3 : Fin 16)].state = CamState.off ∧ ((camBadCfg.chip.seenBy Requester.host).wr (Reg.CAM_CTRL 3) (camBadCfg.chip.rd (Reg.CAM_CTRL 3) &&& ~~~(65527 : Word) ||| ((17 : Word) ||| (1 : Word)) &&& (65527 : Word))).camValid 3 = false) ∧
    (camIdle.settled = true ∧ camIdle.chip.writable Requester.host (Reg.CAM_CTRL 15) ((17 : Word) &&& (4294967294 : Word)) = true ∧ camIdle.chip.cam[(15 : Fin 16)].state ≠ CamState.off ∧ camIdle.chip.cam[(15 : Fin 16)].pend = none) ∧
    (cam1.settled = true ∧ cam1.chip.writable (Requester.pair (1 : Fin 4)) (Reg.CAM_CTRL 15) ((17 : Word) &&& (4294967294 : Word)) = true ∧ cam1.chip.cam[(15 : Fin 16)].state ≠ CamState.off ∧ cam1.chip.cam[(15 : Fin 16)].pend = none) ∧
    (cam2.settled = true ∧ cam2.chip.writable Requester.host (Reg.CAM_CTRL 0) ((17 : Word) &&& (4294967294 : Word)) = true ∧ cam2.chip.cam[(0 : Fin 16)].state ≠ CamState.off ∧ cam2.chip.cam[(0 : Fin 16)].pend = none ∧ cam2.chip.cam[(0 : Fin 16)].state = CamState.ident ∧ cam2.chip.fld (Reg.CAM_ID_CFG 0) 19 16 = 0) ∧
    (cam3.settled = true ∧ cam3.chip.cam[(0 : Fin 16)].state = CamState.ident ∧ 0 < cam3.chip.fld (Reg.CAM_ID_CFG 0) 19 16 ∧ cam3.chip.fld (Reg.CAM_ID_CFG 0) 19 16 ≤ 8) ∧
    (cam4.settled = true ∧ cam4.chip.cam[(0 : Fin 16)].state = CamState.ident ∧ 0 < cam4.chip.fld (Reg.CAM_ID_CFG 0) 19 16 ∧ cam4.chip.fld (Reg.CAM_ID_CFG 0) 19 16 ≤ 8) ∧
    (cam5.settled = true ∧ cam5.chip.cam[(0 : Fin 16)].state = CamState.ident ∧ 0 < cam5.chip.fld (Reg.CAM_ID_CFG 0) 19 16 ∧ cam5.chip.fld (Reg.CAM_ID_CFG 0) 19 16 ≤ 8) ∧
    (cam7.settled = true ∧ cam7.chip.writable Requester.host (Reg.CAM_CTRL 0) ((17 : Word) &&& (4294967294 : Word)) = true ∧ cam7.chip.cam[(0 : Fin 16)].state ≠ CamState.off ∧ cam7.chip.cam[(0 : Fin 16)].pend = none ∧ cam7.chip.cam[(0 : Fin 16)].state = CamState.ident ∧ cam7.chip.fld (Reg.CAM_ID_CFG 0) 19 16 ≠ 0) ∧
    (run.settled = true ∧ run.chip.writable Requester.host (Reg.CAM_CTRL 3) ((16 : Word) ||| (1 : Word)) = true ∧ run.chip.cam[(3 : Fin 16)].state = CamState.off ∧ ((run.chip.seenBy Requester.host).wr (Reg.CAM_CTRL 3) (run.chip.rd (Reg.CAM_CTRL 3) &&& ~~~(65527 : Word) ||| ((16 : Word) ||| (1 : Word)) &&& (65527 : Word))).camValid 3 = false) := by
  and_intros <;> first | exact silent_of (by decide +kernel) | exact range_of (by decide +kernel) | decide +kernel

/-- The header of a packet of virtual channel 0, with a number of its bits inverted on the way. -/
def header (dt wc flip : Nat) : BitVec 32 :=
  let x := dt + 2 ^ 8 * wc
  BitVec.ofNat 32 ((x + 2 ^ 24 * eccOf x) ^^^ flip)
/-- What its ECC gives, and that it belongs to the stream bound at a pipeline. -/
def bound (s : State) (p : Fin 16) (dt wc flip : Nat) : Bool :=
  decide (eccCheck (header dt wc flip).toNat = some (dt + 2 ^ 8 * wc, decide (flip ≠ 0))) && s.chip.isBound p (dt + 2 ^ 8 * wc)
def line0 : List Byte := [1, 2, 3, 4, 5]

theorem witness_FramesOpenFillAndClose :
    (eccCheck (header 0 7 3).toNat = none ∧ camIdle.settled = true ∧ camIdle.chip.cam[(15 : Fin 16)].state = .idle) ∧
    (eccCheck (header 0x2A 7 0).toNat = some (0x72A, false) ∧ camIdle.chip.isBound 15 0x72A = false ∧
      eccCheck (header 0x2A 7 (2 ^ 9)).toNat = some (0x72A, true) ∧ camIdle.chip.isBound 15 0x100072A = false) ∧
    (bound camIdle 15 0 0xFFFF 0 = true ∧ bound camIdle 15 1 0 (2 ^ 29) = true) ∧
    (cam8.settled = true ∧ cam8.chip.cam[(15 : Fin 16)].state = .inFrame ∧
      cam8.chip.cam[(15 : Fin 16)].frame = some (frame0 1 [[1, 2, 3, 4]]) ∧ cam8.chip.fld (Reg.CAM_CTRL 15) 2 1 ≠ 1 ∧
      bound cam8 15 0 0 1 = true ∧ bound cam8 15 1 7 0 = true) ∧
    ((frame0 1 [[1, 2, 3, 4]]).lines.length = (frame0 1 [[1, 2, 3, 4]]).cfg.height ∧
      (frame0 2 [[1, 2, 3, 4]]).lines.length < (frame0 2 [[1, 2, 3, 4]]).cfg.height) ∧
    (cam1.settled = true ∧ cam1.chip.cam[(15 : Fin 16)].state = .inFrame ∧
      cam1.chip.cam[(15 : Fin 16)].frame = some (frame0 2 [[1, 2, 3, 4]]) ∧ cam1.chip.fld (Reg.CAM_CTRL 15) 2 1 ≠ 1 ∧
      bound cam1 15 1 0 0 = true ∧ bound cam1 15 0x2B 5 0 = true ∧ bound cam1 15 0x2B 6 0 = true) ∧
    (shortType 0x2B = false ∧ (line0.take 5).length = 5 ∧ (line0.take 6).length ≠ 6 ∧
      (unpackLine 0x2B (line0.take 5)).map (·.length) = some 4) ∧
    (camTmo.settled = true ∧ camTmo.chip.cam[(15 : Fin 16)].state = .inFrame ∧
      camTmo.chip.cam[(15 : Fin 16)].frame = some (frame0 1 [[1, 2, 3, 4]]) ∧ camTmo.chip.fld (Reg.CAM_CTRL 15) 2 1 ≠ 1 ∧
      camTmo.chip.fld (Reg.CAM_FRAME_CFG 15) 31 16 ≠ 0 ∧
      (frame0 1 [[1, 2, 3, 4]]).lastPkt + camTmo.chip.fld (Reg.CAM_FRAME_CFG 15) 31 16 ≤ camTmo.chip.ttu.index) ∧
    (camEmb.settled = true ∧ camEmb.chip.cam[(15 : Fin 16)].state = .inFrame ∧
      camEmb.chip.cam[(15 : Fin 16)].frame = some (frame0 2 [[1, 2, 3, 4]]) ∧ bound camEmb 15 0x12 64 0 = true) := by
  and_intros <;> decide +kernel

theorem witness_ExposuresAndFeatureRecords :
    (cam9.settled = true ∧ cam9.chip.writable Requester.host (Reg.CAM_EXP_CTRL 2) ((4294967048 : Word) ||| (2147483648 : Word)) = true ∧ cam9.chip.cam[(2 : Fin 16)].pend = none) ∧
    (cam10.settled = true ∧ cam10.chip.writable Requester.host (Reg.CAM_EXP_CTRL 2) ((0 : Word) ||| (2147483648 : Word)) = true ∧ cam10.chip.cam[(2 : Fin 16)].pend = some gen0 ∧ cam10.chip.cam[(2 : Fin 16)].state = CamState.idle ∧ cam10.chip.cam[(2 : Fin 16)].gap = true ∧ cam10.chip.cam[(2 : Fin 16)].xfer = none) ∧
    gen0.writes ≠ [] ∧
    (cam11.settled = true ∧ cam11.chip.cam[(2 : Fin 16)].xfer = some gen0) ∧
    (camClosed.settled = true ∧ camClosed.chip.cam[(2 : Fin 16)].closed = [shut0, frame0 1 []] ∧ shut0.buf = none ∧
      camClosed.chip.camRing 4 2 = none) := by
  and_intros <;> first | exact silent_of (by decide +kernel) | exact range_of (by decide +kernel) | decide +kernel

end Cam

/-! ### Witnesses: Lnk -/

namespace Lnk

def p62a : ProbeRun := ⟨(List.range 62).map fun (i : Nat) => 1000 + (i : Int), 8, 127⟩
def p62b : ProbeRun := { p62a with missed := 7 }
def p63 : ProbeRun := ⟨(List.range 63).map fun (i : Nat) => 200000 + (i : Int), 3, 127⟩
def ln (h : Fin 64) (f : Lane → Lane) (c : Chip) : Chip := (c.onLane (headLane h) f).onTtu fun x => { x with index := 1000, inTick := true, lock := true }
def lnS (h : Fin 64) (f : Lane → Lane) : State := chg (ln h f)
def lnDown : State := lnS 63 fun k => { k with state := .down, seq := 255, tsOwn := true }
def lnAlign (run : Nat) (s2 : Bool) (r2 : Nat) : State := lnS 63 fun k => { k with state := .align, sendTs2 := s2, tsRun := run, ts2Run := r2, sent := [.ts1] }
def capRec : List Byte := leBytes 4 9 ++ leBytes 4 8 ++ leBytes 4 1 ++ [1, 4] ++ leBytes 2 2000 ++ [8, 1, 48, 0] ++ List.replicate 12 0
def msg0 (op r : Nat) : LaneMsg := ⟨9, op, [1, 2, 3], r, false⟩
def lnCapx (m : Option LaneMsg) : State := lnS 0 fun k => { k with state := .capx, fcSeen := true, crd := 128, msg := m, up := k.up.set 2 (some 4), seq := 255, tickPkt := some ⟨9, [], false⟩ }
def lnMeas (n miss : Nat) : State := lnS 7 fun k => { k with state := .measure, probe := some ⟨(List.range n).map fun (i : Nat) => 1000 + (i : Int), miss, 127⟩, probeId := 127 }
def lnCapMin : Chip → Chip := fun c => c.wrn (Reg.LNK_CAP 7 3) (1500 * 2 ^ 16)
def lnMeas63 : State := chg fun c => lnCapMin (ln 7 (fun k => { k with state := .measure, probe := some p63, probeId := 0 }) c)
def lnAct : State := chg fun c => ln 7 (fun k => { k with state := .active, fcSeen := true, crd := 20, used := 5, grant := 255, up := Vector.replicate 3 (some 4), pdMask := 5, seq := 255, quiet := 1000, sent := [.ts2] }) c
def lnSync : State := chg fun c => ln 7 (fun k => { k with state := .sync, up := Vector.replicate 3 (some 4) }) ((c.onHead 7 fun x => { x with down := true }))
def lnMsg (r : Nat) : State := lnS 7 fun k => { k with state := .active, fcSeen := true, crd := 20, used := 10, msg := some (msg0 3 r) }
def lnIdleReq : State := lnS 7 fun k => { k with state := .active, fcSeen := true, crd := 20, used := 10, msgs := [(3, [])], idleReq := true, msg := some (msg0 4 0) }
def lnIdle : State := lnS 7 fun k => { k with state := .idle }
def lnSt (st : LaneState) : State := lnS 7 fun k => { k with state := st, quiet := 15, tsOther := true, tsOwn := false, probe := some ⟨[], 8, 3⟩, tickPkt := some ⟨9, [], false⟩ }
def lnSt2 (st : LaneState) : State := { lnSt st with chip := laying (fun y => { y with shared := [shared0 0 (.claimed 7)] }) (lnSt st).chip }
def prbsS (cfg : Nat) : State := chg fun c => ((c.wrn (Reg.LNK_PRBS_CFG 75) cfg).wrn (Reg.LNK_PRBS_ERR 75) 0xFFFFFFFE).wrn (Reg.LNK_EYE_CFG 75) 0x80000000 |>.onLane 75 fun k => { k with eye := true }
def lnMsgI : State := { lnMsg 2 with chip := (lnMsg 2).chip.wrn (Reg.LNK_CFG 7) 0x6418040F }
def lnk1 : State := lnAlign 14 false 3
def lnk2 : State := lnAlign 20 true 7
def lnk3 : State := lnCapx none
def lnk4 : State := lnCapx (some (msg0 1 2))
def lnk5 : State := lnMeas 62 8
def lnk6 : State := lnMeas 62 7
def lnk7 : State := lnMsg 2
def lnk8 : State := prbsS 0x09
def lnk9 : State := prbsS 0x11
def lnk10 : State := prbsS 0x111
def lnk11 : State := lnSt2 .active
def lnk12 : State := lnSt .capx
def lnk13 : State := lnSt .measure
def lnk14 : State := lnSt .align
def lnk15 : State := lnSt .sync
def lnk16 : State := lnSt .exit

theorem witness_LanesTrain :
    (run.settled = true ∧ run.chip.headOn 0 = true ∧ run.chip.writable Requester.host (Reg.LNK_CTRL (↑(headLane (0 : Fin 64)) : Nat)) ((17 : Word) ||| (1 : Word)) = true ∧ run.chip.lane[headLane (0 : Fin 64)].state = LaneState.off ∧ run.chip.headOn 63 = true ∧ run.chip.writable Requester.host (Reg.LNK_CTRL (↑(headLane (63 : Fin 64)) : Nat)) ((1 : Word) ||| (1 : Word)) = true ∧ run.chip.lane[headLane (63 : Fin 64)].state = LaneState.off) ∧
    (lnDown.settled = true ∧ lnDown.chip.headOn 63 = true ∧ lnDown.chip.writable Requester.host (Reg.LNK_CTRL (↑(headLane (63 : Fin 64)) : Nat)) ((1 : Word) ||| (2 : Word)) = true ∧ lnDown.chip.lane[headLane (63 : Fin 64)].state = LaneState.down ∧ lnDown.chip.bit Reg.LNK_GLB_CFG 16 = true ∧ lnDown.chip.fld (Reg.LNK_PRBS_CFG (↑(headLane (63 : Fin 64)) : Nat)) 2 0 = 0) ∧
    (BitVec.getLsbD (1 : Word) 0 = true ∧ BitVec.toNat (2000000 : BitVec 24) ≤ 2000000 ∧ BitVec.toNat (1000 : BitVec 24) ≤ 2000000 ∧
      ((3 : Byte), (5 : Byte)).2 ≠ ~~~((3 : Byte), (5 : Byte)).1) ∧
    (lnk1.settled = true ∧ lnk1.chip.headOn 63 = true ∧ lnk1.chip.lane[headLane (63 : Fin 64)].state = LaneState.align ∧ lnk1.chip.lane[headLane (63 : Fin 64)].sendTs2 = false ∧ lnk1.chip.lane[headLane (63 : Fin 64)].tsRun + 1 < 16) ∧
    (lnk2.settled = true ∧ lnk2.chip.headOn 63 = true ∧ lnk2.chip.lane[headLane (63 : Fin 64)].state = LaneState.align ∧ lnk2.chip.lane[headLane (63 : Fin 64)].sendTs2 = true ∧ 7 ≤ lnk2.chip.lane[headLane (63 : Fin 64)].ts2Run) ∧
    (lnk3.settled = true ∧ lnk3.chip.headOn 0 = true ∧ lnk3.chip.lane[headLane (0 : Fin 64)].state = LaneState.capx ∧ lnk3.chip.lane[headLane (0 : Fin 64)].dup (2 : Fin 3) (BitVec.toNat (5 : BitVec 8)) = false ∧ lnk3.chip.lane[headLane (0 : Fin 64)].msg = none ∧ lnk3.chip.lane[headLane (0 : Fin 64)].msgs = [] ∧ 9 ≤ lnk3.chip.lane[headLane (0 : Fin 64)].credit ∧ lnk3.chip.lane[headLane (0 : Fin 64)].dup (2 : Fin 3) (BitVec.toNat (3 : BitVec 8)) = false) ∧
    (capOk capRec = true ∧ leAt capRec 14 2 ≤ lnk3.chip.N) ∧
    (lnk4.settled = true ∧ lnk4.chip.headOn 0 = true ∧ lnk4.chip.lane[headLane (0 : Fin 64)].state = LaneState.capx ∧ lnk4.chip.lane[headLane (0 : Fin 64)].msg = some (msg0 1 2) ∧ lnk4.chip.lane[headLane (0 : Fin 64)].msgs = []) ∧
    ((msg0 1 2).op = 1 ∧ (msg0 1 2).seq < 256) ∧
    (lnk5.settled = true ∧ lnk5.chip.headOn 7 = true ∧ lnk5.chip.lane[headLane (7 : Fin 64)].state = LaneState.measure ∧ lnk5.chip.lane[headLane (7 : Fin 64)].probe = some p62a) ∧
    (p62a.id < 128 ∧ p62a.values.length < 63 ∧ p62a.missed ≤ 8) ∧
    (lnk6.settled = true ∧ lnk6.chip.headOn 7 = true ∧ lnk6.chip.lane[headLane (7 : Fin 64)].state = LaneState.measure ∧ lnk6.chip.lane[headLane (7 : Fin 64)].probe = some p62b) ∧
    (p62b.id < 128 ∧ p62b.missed < 8 ∧ p62b.values.length ≠ 64) ∧
    (lnMeas63.settled = true ∧ lnMeas63.chip.headOn 7 = true ∧ lnMeas63.chip.lane[headLane (7 : Fin 64)].state = LaneState.measure ∧ lnMeas63.chip.lane[headLane (7 : Fin 64)].probe = some p63 ∧ lnMeas63.chip.fld (Reg.LNK_CAP 7 3) 31 16 ≤ lnMeas63.chip.N) ∧
    (p63.id < 128 ∧ p63.values.length = 63 ∧ delayOf (p63.values ++ [(↑401000 : Int) - (↑(BitVec.toNat (1000 : BitVec 24)) : Int)]) ≤ (250 : Int) * (↑lnMeas63.chip.N : Int) - (50000 : Int) ∧ delayOf (p63.values ++ [(↑0 : Int) - (↑(BitVec.toNat (1000 : BitVec 24)) : Int)]) ≤ (250 : Int) * (↑lnMeas63.chip.N : Int) - (50000 : Int)) ∧
    (lnAct.settled = true ∧ lnAct.chip.headOn 7 = true ∧ lnAct.chip.lane[headLane (7 : Fin 64)].state = LaneState.active ∧ lnAct.chip.fld (Reg.LNK_CFG 7) 31 24 ≠ 0 ∧ lnAct.chip.lane[headLane (7 : Fin 64)].probe = none) := by
  and_intros <;> first | exact silent_of (by decide +kernel) | exact range_of (by decide +kernel) | decide +kernel

theorem witness_LanesCarryTraffic :
    ((0 : Byte) ≠ fcCheck 5 7) ∧
    (lnAct.settled = true ∧ lnAct.chip.headOn 7 = true ∧ lnAct.chip.lane[headLane (7 : Fin 64)].dup (1 : Fin 3) (BitVec.toNat (5 : BitVec 8)) = false ∧ lnAct.chip.lane[headLane (7 : Fin 64)].state = LaneState.active ∧ 0 < lnAct.chip.fld (Reg.LNK_CFG 7) 11 8 ∧ lnAct.chip.lane[headLane (7 : Fin 64)].dup (0 : Fin 3) (BitVec.toNat (3 : BitVec 8)) = false ∧ [[1, 2, 3, 4, 5, 6, 7, 8], [9, 9, 9, 9, 9, 9, 9, 70000]].length = (maskBits lnAct.chip.lane[headLane (7 : Fin 64)].pdMask).length ∧ resolveTick lnAct.chip.ttu.index (BitVec.toNat (231 : BitVec 8)) = some 999) ∧
    ((∀ (x : Samples), x ∈ lnAct.chip.mpc.heads[(7 : Fin 64)].sets ++ lnAct.chip.mpc.heads[(7 : Fin 64)].newSets → x.tick ≠ 999) ∧ lnAct.chip.lane[headLane (7 : Fin 64)].dup (2 : Fin 3) (BitVec.toNat (3 : BitVec 8)) = false ∧ lnAct.chip.lane[headLane (7 : Fin 64)].msg = none ∧ lnAct.chip.lane[headLane (7 : Fin 64)].msgs = []) ∧
    (lnSync.settled = true ∧ lnSync.chip.headOn 7 = true ∧ lnSync.chip.lane[headLane (7 : Fin 64)].dup (1 : Fin 3) (BitVec.toNat (3 : BitVec 8)) = false ∧ lnSync.chip.lane[headLane (7 : Fin 64)].state = LaneState.sync) ∧
    ((∀ (x : List Nat), x ∈ [[1, 2, 3, 4, 5, 6, 7, 8], [9, 9, 9, 9, 9, 9, 9, 70000]] → x.length = 8) ∧ BitVec.getLsbD (1 : Word) 0 = true ∧ BitVec.getLsbD (1 : Word) 1 = false ∧ BitVec.getLsbD (9 : Word) 0 = true) ∧
    (lnk7.settled = true ∧ lnk7.chip.headOn 7 = true ∧ lnk7.chip.lane[headLane (7 : Fin 64)].msg = some (msg0 3 2) ∧ lnk7.chip.bit (Reg.LNK_INJECT (↑(headLane (7 : Fin 64)) : Nat)) 0 = false) ∧
    ((msg0 3 2).resends < 3 ∧ (23 + (msg0 3 2).payload.length) / 16 + 8 ≤ lnk7.chip.lane[headLane (7 : Fin 64)].credit) ∧
    (lnMsgI.settled = true ∧ lnMsgI.chip.headOn 7 = true ∧ lnMsgI.chip.writable Requester.host (Reg.LNK_CTRL (↑(headLane (7 : Fin 64)) : Nat)) ((1 : Word) ||| (4 : Word)) = true ∧ lnMsgI.chip.lane[headLane (7 : Fin 64)].state = LaneState.active ∧ lnMsgI.chip.lane[headLane (7 : Fin 64)].idleReq = false ∧ lnMsgI.chip.lane[headLane (7 : Fin 64)].msg = some (msg0 3 2) ∧ (msg0 3 2).cut = false) ∧
    (lnIdleReq.settled = true ∧ lnIdleReq.chip.headOn 7 = true ∧ lnIdleReq.chip.lane[headLane (7 : Fin 64)].state = LaneState.active ∧ lnIdleReq.chip.lane[headLane (7 : Fin 64)].idleReq = true ∧ lnIdleReq.chip.lane[headLane (7 : Fin 64)].dup (2 : Fin 3) (BitVec.toNat (3 : BitVec 8)) = false) ∧
    (lnIdle.settled = true ∧ lnIdle.chip.headOn 7 = true ∧ lnIdle.chip.writable Requester.host (Reg.LNK_CTRL (↑(headLane (7 : Fin 64)) : Nat)) ((1 : Word) ||| (8 : Word)) = true ∧ lnIdle.chip.lane[headLane (7 : Fin 64)].state = LaneState.idle ∧ lnIdle.chip.lane[headLane (7 : Fin 64)].idleRegrid = none ∧ lnIdle.chip.writable Requester.host (Reg.LNK_CTRL (↑(headLane (7 : Fin 64)) : Nat)) ((9 : Word) ||| (8 : Word)) = true) := by
  and_intros <;> first | exact silent_of (by decide +kernel) | exact range_of (by decide +kernel) | decide +kernel

/-- The code groups of symbols from negative running disparity on. -/
def groups (ss : List Symbol) : List (BitVec 10) := (encodeAll false ss).1.map (BitVec.ofNat 10)
def body (bs : List Byte) (last : Symbol) : List Symbol := symSOP :: bs.map Symbol.data ++ [last]
def statusBody : List Byte := [3, 5, 231, 1, 0, 0, 255, 255, 255, 2, 0, 0]
def statusBytes : List Byte := statusBody ++ leBytes 2 (crc16 statusBody)
def lnOpen : State := lnS 7 fun k => { k with state := .active, rx := { k.rx with aligned := true } }

/-- K28.5 and D10.2 as the code of IEEE 802.3 has them, and the pattern of x^7 + x^6 + 1 from its register of ones (R229,
R253). -/
theorem test_line_code :
    encodeSymbol false (.ctrl 0xBC) = 0b0011111010 ∧ encodeSymbol true (.ctrl 0xBC) = 0b1100000101 ∧
      encodeSymbol false (.data 0x4A) = 0b0101010101 ∧ encodeSymbol false (.data 0) = 0b1001110100 ∧
      (List.range 8).foldl (fun (y : List Bool × Nat) _ =>
        (y.1 ++ [prbsNext 1 y.2], prbsPush 1 y.2 (prbsNext 1 y.2))) ([], 127) =
        ([false, false, false, false, false, false, true, false], 2) := by decide +kernel

theorem witness_LanesAreTested_packets :
    (lnAct.settled = true ∧ lnAct.chip.headOn 7 = true ∧ lnAct.chip.lane[(7 : Fin 76)].state.hears = true) ∧
    (∀ x ∈ [groups (body [] symSOP), groups (body [3, 5] symEDB), groups (body statusBytes symEOP)],
      ∀ y ∈ decodeAll false (x.map (·.toNat)), y.isSome = true) ∧
    packetBody ((decodeAll false ((groups (body [] symSOP)).map (·.toNat))).filterMap id) = none ∧
    packetBody ((decodeAll false ((groups (body [3, 5] symEDB)).map (·.toNat))).filterMap id) = some ([3, 5], true) ∧
    packetBody ((decodeAll false ((groups (body statusBytes symEOP)).map (·.toNat))).filterMap id) = some (statusBytes, false) ∧
    (statusBytes.length = 14 ∧ leAt statusBytes 12 2 = crc16 (statusBytes.take 12) ∧ leAt statusBytes 0 1 % 16 = 3) := by
  and_intros <;> decide +kernel

theorem witness_LanesGoDown_codeErrors :
    lnOpen.settled = true ∧ lnOpen.chip.headOn 7 = true ∧ lnOpen.chip.lane[headLane 7].state = .active ∧
      ((lnOpen.chip.lane[headLane 7]).rx.take false (List.replicate 160 true)).excess = true := by
  and_intros <;> decide +kernel

theorem witness_LanesGoDown :
    (lnk11.settled = true ∧ lnk11.chip.headOn 7 = true ∧ lnk11.chip.writable Requester.host (Reg.LNK_CTRL (↑(headLane (7 : Fin 64)) : Nat)) ((1 : Word) &&& (4294967294 : Word)) = true ∧ lnk11.chip.lane[headLane (7 : Fin 64)].state ≠ LaneState.off ∧ lnk11.chip.writable Requester.host (Reg.LNK_CTRL (↑(headLane (7 : Fin 64)) : Nat)) ((1 : Word) ||| (2 : Word)) = true ∧ lnk11.chip.lane[headLane (7 : Fin 64)].state = LaneState.active ∧ (lnk11.chip.lane[headLane (7 : Fin 64)].state = LaneState.sync ∨ lnk11.chip.lane[headLane (7 : Fin 64)].state = LaneState.active) ∧ lnk11.chip.fld (Reg.LNK_CFG 7) 19 16 ≤ lnk11.chip.lane[headLane (7 : Fin 64)].quiet) ∧
    lnk11.chip.lane[headLane (7 : Fin 64)].dup (1 : Fin 3) (BitVec.toNat (128 : BitVec 8)) = false ∧
    (BitVec.getLsbD (1 : Word) 0 = true ∧ (ProbeRun.mk [] 8 3).missed = 8 ∧ (ProbeRun.mk [] 8 3).values.length ≠ 64) ∧
    (lnk12.settled = true ∧ lnk12.chip.headOn 7 = true ∧ lnk12.chip.writable Requester.host (Reg.LNK_CTRL (↑(headLane (7 : Fin 64)) : Nat)) ((0 : Word) &&& (4294967294 : Word)) = true ∧ lnk12.chip.lane[headLane (7 : Fin 64)].state ≠ LaneState.off ∧ (lnk12.chip.lane[headLane (7 : Fin 64)].state = LaneState.capx ∨ lnk12.chip.lane[headLane (7 : Fin 64)].state = LaneState.measure ∨ lnk12.chip.lane[headLane (7 : Fin 64)].state = LaneState.sync)) ∧
    (lnk13.settled = true ∧ lnk13.chip.headOn 7 = true ∧ lnk13.chip.writable Requester.host (Reg.LNK_CTRL (↑(headLane (7 : Fin 64)) : Nat)) ((0 : Word) &&& (4294967294 : Word)) = true ∧ lnk13.chip.lane[headLane (7 : Fin 64)].state ≠ LaneState.off ∧ (lnk13.chip.lane[headLane (7 : Fin 64)].state = LaneState.capx ∨ lnk13.chip.lane[headLane (7 : Fin 64)].state = LaneState.measure ∨ lnk13.chip.lane[headLane (7 : Fin 64)].state = LaneState.sync) ∧ lnk13.chip.lane[headLane (7 : Fin 64)].state = LaneState.measure ∧ lnk13.chip.lane[headLane (7 : Fin 64)].probe = some (ProbeRun.mk [] 8 3)) ∧
    (lnk14.settled = true ∧ lnk14.chip.headOn 7 = true ∧ lnk14.chip.lane[headLane (7 : Fin 64)].state = LaneState.align) ∧
    (lnk15.settled = true ∧ lnk15.chip.headOn 7 = true ∧ (lnk15.chip.lane[headLane (7 : Fin 64)].state = LaneState.capx ∨ lnk15.chip.lane[headLane (7 : Fin 64)].state = LaneState.measure ∨ lnk15.chip.lane[headLane (7 : Fin 64)].state = LaneState.sync) ∧ (lnk15.chip.lane[headLane (7 : Fin 64)].state = LaneState.sync ∨ lnk15.chip.lane[headLane (7 : Fin 64)].state = LaneState.active)) ∧
    (lnk16.settled = true ∧ lnk16.chip.headOn 7 = true ∧ lnk16.chip.lane[headLane (7 : Fin 64)].state = LaneState.exit) := by
  and_intros <;> first | exact silent_of (by decide +kernel) | exact range_of (by decide +kernel) | decide +kernel

theorem witness_LanesAreTested :
    (run.settled = true ∧ run.chip.writable Requester.host (Reg.LNK_INJECT 75) ((2565 : Word) ||| (1 : Word)) = true) ∧
    (BitVec.getLsbD (2565 : Word) 3 = false ∧ BitVec.getLsbD (7940 : Word) 3 = false ∧ (7 : Fin 76) = headLane (7 : Fin 64)) ∧
    (lnk8.settled = true ∧ lnk8.chip.writable Requester.host (Reg.LNK_INJECT 75) ((7940 : Word) ||| (1 : Word)) = true ∧ lnk8.chip.writable Requester.host (Reg.LNK_INJECT 75) ((7940 : Word) ||| (8 : Word)) = true ∧ lnk8.chip.fld (Reg.LNK_PRBS_CFG 75) 2 0 ≠ 0 ∧ lnk8.chip.bit (Reg.LNK_PRBS_CFG 75) 3 = true ∧ lnk8.chip.lane[(75 : Fin 76)].quiescent = true ∧
      lnk8.chip.fld (Reg.LNK_INJECT 75) 12 8 = 0 ∧ lnk8.chip.lane[(75 : Fin 76)].prbs.flips = 0) ∧
    (lnk9.settled = true ∧ lnk9.chip.writable Requester.host (Reg.LNK_EYE_CFG 75) ((2039583 : Word) ||| (1073741824 : Word)) = true ∧ lnk9.chip.fld (Reg.LNK_PRBS_CFG 75) 2 0 ≠ 0 ∧ lnk9.chip.bit (Reg.LNK_PRBS_CFG 75) 4 = true ∧ lnk9.chip.lane[(75 : Fin 76)].quiescent = true) ∧
    (lnk10.settled = true ∧ lnk10.chip.fld (Reg.LNK_PRBS_CFG 75) 2 0 ≠ 0 ∧ lnk10.chip.bit (Reg.LNK_PRBS_CFG 75) 4 = true ∧ lnk10.chip.lane[(75 : Fin 76)].quiescent = true ∧ lnk10.chip.lane[(75 : Fin 76)].eye = true) := by
  and_intros <;> first | exact silent_of (by decide +kernel) | exact range_of (by decide +kernel) | decide +kernel

end Lnk

/-! ### Witnesses: Hvi -/

namespace Hvi

def axOn (a : Fin 8) (f : Axis → Axis) (c : Chip) : Chip := ((c.onAxis a f).onTtu fun x => { x with index := 41, inTick := true, lock := true }) |> fun c => { c with island := { c.island with powered := true, linkOk := true } }
def axS (f : Axis → Axis) : State := chg (axOn 7 f)
def q0 : QMove := ⟨100, 10, false, true⟩
def axMoving (d : AxDo) : State := axS fun x => { x with state := .moving, doing := d, queue := [q0], staged := [⟨5, 10, false, false, none⟩], s := 77 * 2 ^ 32 + 9, v := 2 ^ 33, homed := true }
def axHoming : State := axS fun x => { x with state := .homing, doing := .search, s := 0x1000000 * 2 ^ 32, homeFrom := 0, v := 2 ^ 33, limitDue := true, latchDue := some (41, 1999), latch := some ⟨55, 41 * 2000, 42 * 2000 - 1, 3, true⟩ }
def axHoming2 : State := axS fun x => { x with state := .homing, doing := .search, latch := some ⟨55, 41 * 2000, 42 * 2000 - 1, 0, false⟩ }
def axFault : State := axS fun x => { x with state := .fault, bridge := 1 }
/-- A winding measurement of axis 7 at a stage, phase A measured with 940 µH and 376 mΩ. -/
def measuring (w : WindRun) : State := chg fun c => axOn 7 (fun x => { x with state := .measure, bridge := 1, wind := some w })
  ((c.wrn Reg.HVI_ISL_STATUS 4800).wrn (Reg.HVI_AX_WIND_A 7) (376 + 940 * 2 ^ 16))
/-- A sample of axis 7 is at least a number of twentieths of TEST_MA. -/
def reaches (s : State) (share : Nat) (code : Int) : Bool :=
  decide (share * s.chip.maMag 7 (s.chip.fld (Reg.HVI_AX_WIND_CFG 7) 15 0) ≤ 20 * codeMag code)
/-- A phase's reading that lies in the windows of axis 7. -/
def inWindows (s : State) (r l : Nat) : Bool :=
  decide (50 * s.chip.fld (Reg.HVI_AX_WIND_LIM 7) 7 0 ≤ r ∧ r ≤ 50 * s.chip.fld (Reg.HVI_AX_WIND_LIM 7) 15 8 ∧
    100 * s.chip.fld (Reg.HVI_AX_WIND_LIM 7) 23 16 ≤ l ∧ l ≤ 100 * s.chip.fld (Reg.HVI_AX_WIND_LIM 7) 31 24)
def phaseB : WindRun := ⟨1, true, .wait, 64, 16000⟩
def axRamp : State := chg fun c => (axOn 7 (fun x => { x with state := .ramp, rampTick := 0x190, rampTo := .still }) c)
def axReady (k : Nat) : State := chg fun c => (axOn 7 (fun x => { x with state := .ready, restTicks := k, s := 9 * 2 ^ 32, bridge := 1 }) c)
def axStill : State := axS fun x => { x with state := .still, s := 9 * 2 ^ 32, homed := true }
def axUnp : State := chg fun c => axOn 7 (fun x => { x with state := .unpowered }) c |> fun c => { c with island := { c.island with powered := false } }
def axFb : State := chg fun c => (axOn 7 (fun x => { x with state := .ready, bridge := 1 }) (c.wrn (Reg.HVI_AX_FAULT 7) 0xFFFF00)).onLoop (phaseLoop 7 1) fun l => { l with state := .fbOpen, good := 15, count := 400 }
def pt (p : Fin 24) (cfg : Nat) (f : Port → Port) (c : Chip) : Chip := ((c.wrn (Reg.EFP_CFG p) cfg).onPort p f).onTtu fun x => { x with up := 500000000, index := 41, inTick := true }
def ptS (cfg : Nat) (f : Port → Port) : State := chg (pt 23 cfg f)
def hvi1 : State := axReady 200000
def hvi2 : State := axMoving .moves
def hvi3 : State := ptS 6 id
def hvi4 : State := ptS 1 fun x => { x with state := .run, valid := true, raw := true }
def hvi5 : State := ptS 1 fun x => { x with state := .tripped, tripAt := 420000000 }
def hvi6 : State := ptS 1 fun x => { x with state := .tripped, tripAt := 420000001 }
def hvi7 : State := ptS 1 fun x => { x with state := .diag }
def hvi8 : State := ptS 2 fun x => { x with state := .diag }
def hvi9 : State := ptS 2 fun x => { x with state := .run, valid := true }
def hvi10 : State := ptS 1 fun x => { x with state := .run, valid := true }
def hvi11 : State := ptS 5 fun x => { x with state := .run, valid := true, dutyL1 := 7 }

theorem witness_AxisCommandsWaitForTheBoundary :
    (∀ n < 9, n ≠ 0 → run.chip.writable Requester.host (Reg.HVI_AX_CTRL 7) (BitVec.ofNat 32 n) = true) ∧
    (run.settled = true ∧ run.chip.writable Requester.host (Reg.HVI_AX_CTRL 7) (BitVec.ofNat 32 1) = true ∧ run.chip.writable Requester.host (Reg.HVI_AX_CTRL 7) (BitVec.ofNat 32 2) = true ∧ run.chip.writable Requester.host (Reg.HVI_AX_CTRL 7) (BitVec.ofNat 32 3) = true) ∧
    ((axS id).chip.axis[(7 : Fin 8)].state = AxState.disabled ∧ (axS id).chip.island.powered = true ∧ (axS id).chip.axValid 7 = true ∧ axFault.chip.axis[(7 : Fin 8)].state = .fault) ∧
    (((axMoving AxDo.moves).chip.axis[(7 : Fin 8)].state = AxState.moving ∨ (axMoving AxDo.moves).chip.axis[(7 : Fin 8)].state = AxState.homing) ∧ (axMoving AxDo.moves).chip.axis[(7 : Fin 8)].doing ≠ AxDo.rest ∧ (axMoving AxDo.moves).chip.axis[(7 : Fin 8)].doing ≠ AxDo.eStop ∧ ((axMoving AxDo.decStop).chip.axis[(7 : Fin 8)].state = AxState.moving ∨ (axMoving AxDo.decStop).chip.axis[(7 : Fin 8)].state = AxState.homing) ∧ (axMoving AxDo.decStop).chip.axis[(7 : Fin 8)].doing ≠ AxDo.rest ∧ (axMoving AxDo.decStop).chip.axis[(7 : Fin 8)].doing ≠ AxDo.eStop) ∧
    ((axHoming.chip.axis[(7 : Fin 8)].state = AxState.moving ∨ axHoming.chip.axis[(7 : Fin 8)].state = AxState.homing) ∧ axHoming.chip.axis[(7 : Fin 8)].doing ≠ AxDo.rest ∧ axHoming.chip.axis[(7 : Fin 8)].doing ≠ AxDo.eStop) ∧
    ((axReady 0).chip.axis[(7 : Fin 8)].state.enabled = true ∧ (axReady 0).chip.axis[(7 : Fin 8)].doing = AxDo.rest ∧ (axReady 0).chip.axis[(7 : Fin 8)].state = AxState.ready ∧ (axReady 0).chip.limitActive 7 (if (axReady 0).chip.bit (Reg.HVI_AX_HOME_CFG 7) 6 = true then (1 : Int) else (-1 : Int)) = false ∧ ((axReady 0).chip.axis[(7 : Fin 8)].state = AxState.ready ∨ (axReady 0).chip.axis[(7 : Fin 8)].state = AxState.still)) ∧
    (axStill.chip.axis[(7 : Fin 8)].state.enabled = true ∧ axStill.chip.axis[(7 : Fin 8)].doing = AxDo.rest ∧ (axStill.chip.axis[(7 : Fin 8)].state = AxState.ready ∨ axStill.chip.axis[(7 : Fin 8)].state = AxState.still)) := by
  and_intros <;> first | exact silent_of (by decide +kernel) | exact range_of (by decide +kernel) | decide +kernel

theorem witness_AxesTakeDueTransitions :
    (∀ w ∈ [WindRun.mk 0 false (.drive 3) 0 0, ⟨1, true, .drive 16000, 0, 0⟩, ⟨0, false, .wait, 64, 16000⟩, phaseB],
      (measuring w).settled = true ∧ (measuring w).chip.axis[(7 : Fin 8)].wind = some w ∧ reaches (measuring w) 20 2185 = true ∧
        reaches (measuring w) 20 (-2184) = false ∧ reaches (measuring w) 1 109 = false) ∧
    (3 * run.chip.N * 5 < 160000000 ∧ 160000000 ≤ 16000 * run.chip.N * 5) ∧
    (inWindows (measuring phaseB) ((measuring phaseB).chip.fld (Reg.HVI_AX_WIND_A 7) 15 0)
        ((measuring phaseB).chip.fld (Reg.HVI_AX_WIND_A 7) 31 16) = true ∧
      let k := windPhase (measuring phaseB).chip.N ((measuring phaseB).chip.fld Reg.HVI_ISL_STATUS 15 0 * 10)
        ((measuring phaseB).chip.fld (Reg.HVI_AX_SENSE 7) 31 16) ((measuring phaseB).chip.fld (Reg.HVI_AX_WIND_CFG 7) 15 0) 64 16000
      inWindows (measuring phaseB) (min k.1 0xFFFF) (min k.2 0xFFFF) = true) ∧
    (axRamp.settled = true ∧ axRamp.chip.axis[(7 : Fin 8)].state = AxState.ramp ∧ axRamp.chip.actFld (Reg.HVI_AX_STILL 7) 15 4 ≤ axRamp.chip.axis[(7 : Fin 8)].rampTick ∧ axRamp.chip.axis[(7 : Fin 8)].rampTo ≠ AxState.homing) ∧
    (hvi1.settled = true ∧ hvi1.chip.axis[(7 : Fin 8)].state = AxState.ready ∧ hvi1.chip.axis[(7 : Fin 8)].queue = [] ∧ hvi1.chip.actFld (Reg.HVI_AX_STILL 7) 31 16 * 4000000 ≤ hvi1.chip.axis[(7 : Fin 8)].restTicks * hvi1.chip.N * 5) ∧
    (axHoming.settled = true ∧ axHoming.chip.axis[(7 : Fin 8)].limitDue = true ∧ axHoming.chip.axis[(7 : Fin 8)].doing ≠ AxDo.rest ∧ axHoming.chip.axis[(7 : Fin 8)].searching = true ∧ axHoming.chip.rdn (Reg.HVI_AX_HOME_RANGE 7) * 2 ^ 32 ≤ (axHoming.chip.axis[(7 : Fin 8)].s - axHoming.chip.axis[(7 : Fin 8)].homeFrom).natAbs ∧ axHoming.chip.axis[(7 : Fin 8)].latchDue = some (axHoming.chip.ttu.index, 1999) ∧ axHoming.chip.axis[(7 : Fin 8)].latch = some (HomeLatch.mk (55 : Int) (41 * 2000) (42 * 2000 - 1) 3 true) ∧ (HomeLatch.mk (55 : Int) (41 * 2000) (42 * 2000 - 1) 3 true).count ≤ axHoming.chip.fld (Reg.HVI_AX_DEB 7) 11 8) ∧
    (HomeLatch.mk (55 : Int) (41 * 2000) (42 * 2000 - 1) 3 true).till ≤ (axHoming.chip.ttu.index + 1) * axHoming.chip.N - 1 ∧
    ((HomeLatch.mk (55 : Int) (41 * 2000) (42 * 2000 - 1) 3 true).active = true ∧ (HomeLatch.mk (55 : Int) (41 * 2000) (42 * 2000 - 1) 0 false).active = false) ∧
    (axHoming2.settled = true ∧ axHoming2.chip.axis[(7 : Fin 8)].searching = true ∧ axHoming2.chip.axis[(7 : Fin 8)].latch = some (HomeLatch.mk (55 : Int) (41 * 2000) (42 * 2000 - 1) 0 false) ∧ (HomeLatch.mk (55 : Int) (41 * 2000) (42 * 2000 - 1) 0 false).count ≤ axHoming2.chip.fld (Reg.HVI_AX_DEB 7) 11 8 ∧ (HomeLatch.mk (55 : Int) (41 * 2000) (42 * 2000 - 1) 0 false).till ≤ (axHoming2.chip.ttu.index + 1) * axHoming2.chip.N - 1) := by
  and_intros <;> first | exact silent_of (by decide +kernel) | exact range_of (by decide +kernel) | decide +kernel

theorem witness_AxesFaultAndLosePower_limits :
    (axS id).chip.fld (Reg.HVI_AX_PROT 7) 15 0 < 5001 ∧ 5000 ≤ (axS id).chip.fld (Reg.HVI_AX_PROT 7) 15 0 ∧
      (axS id).settled = true ∧ (axS id).chip.axis[(7 : Fin 8)].state ≠ .fault ∧
      axFault.settled = true ∧ axFault.chip.axis[(7 : Fin 8)].state = .fault ∧ axFault.chip.fld (Reg.HVI_AX_PROT 7) 15 0 < 5001 ∧
      (∀ k ∈ ([219, -219, 219, 32767] : List Int),
        axStill.chip.maMag 7 (axStill.chip.fld (Reg.HVI_AX_PROT 7) 31 16) < codeMag k ∧
        axUnp.chip.maMag 7 (axUnp.chip.fld (Reg.HVI_AX_PROT 7) 31 16) < codeMag k) ∧
      ¬ axStill.chip.maMag 7 (axStill.chip.fld (Reg.HVI_AX_PROT 7) 31 16) < codeMag (-218) ∧
      axStill.chip.axis[(7 : Fin 8)].moved = (0, 0) ∧ axUnp.chip.axis[(7 : Fin 8)].moved = (0, 0) := by
  and_intros <;> decide +kernel

theorem witness_AxesFaultAndLosePower :
    (axFb.settled = true ∧ axFb.chip.axis[(7 : Fin 8)].state.enabled = true ∧ axFb.chip.writable Requester.host (Reg.HVI_MV_PUSH 7) (1 : Word) = true ∧ axFb.chip.movesRefused = false ∧ axFb.chip.axis[(7 : Fin 8)].staged.length < 8 ∧ axFb.chip.mpc.loops[phaseLoop (7 : Fin 8) (1 : Fin 2)].state = LoopState.fbOpen ∧ axFb.chip.lostL (↑(phaseLoop (7 : Fin 8) (1 : Fin 2)) : Nat) ≤ axFb.chip.mpc.loops[phaseLoop (7 : Fin 8) (1 : Fin 2)].count ∧ axFb.chip.fld Reg.HVI_ISL_CFG 31 16 < 6201) ∧
    (1599 < axFb.chip.fld Reg.HVI_ISL_CFG 15 0 ∧ axFb.chip.island.powered = true) ∧
    axFb.chip.mpc.loops[phaseLoop (7 : Fin 8) (1 : Fin 2)].good < axFb.chip.recover (↑(phaseLoop (7 : Fin 8) (1 : Fin 2)) : Nat) ∧
    (hvi2.settled = true ∧ 1599 < hvi2.chip.fld Reg.HVI_ISL_CFG 15 0 ∧ hvi2.chip.island.powered = true) ∧
    (axUnp.settled = true ∧ axUnp.chip.fld Reg.HVI_ISL_CFG 15 0 + 100 ≤ 1700 ∧ axUnp.chip.island.powered = false ∧ axUnp.chip.axis[(7 : Fin 8)].state.enabled = true ∧ (axUnp.chip.axis[(7 : Fin 8)].state = AxState.still ∨ axUnp.chip.axis[(7 : Fin 8)].state = AxState.unpowered) ∧ axUnp.chip.writable Requester.host (Reg.HVI_MV_PUSH 7) (1 : Word) = true ∧ axUnp.chip.movesRefused = false ∧ axUnp.chip.axis[(7 : Fin 8)].staged.length < 8) ∧
    (axStill.settled = true ∧ axStill.chip.axis[(7 : Fin 8)].state.enabled = true ∧ (axStill.chip.axis[(7 : Fin 8)].state = AxState.still ∨ axStill.chip.axis[(7 : Fin 8)].state = AxState.unpowered) ∧ axStill.chip.writable (Requester.pair (2 : Fin 4)) (Reg.HVI_MV_PUSH 7) (1 : Word) = true ∧ axStill.chip.movesRefused = false ∧ axStill.chip.axis[(7 : Fin 8)].staged.length < 8) := by
  and_intros <;> first | exact silent_of (by decide +kernel) | exact range_of (by decide +kernel) | decide +kernel

theorem witness_PortsFollowTheirStates :
    (run.settled = true ∧ run.chip.writable Requester.host (Reg.EFP_CTRL 23) ((16 : Word) ||| (1 : Word)) = true ∧ run.chip.port[(23 : Fin 24)].state = PortState.off ∧ run.chip.portValid 23 = true) ∧
    (hvi3.settled = true ∧ hvi3.chip.writable Requester.host (Reg.EFP_CTRL 23) ((17 : Word) ||| (1 : Word)) = true ∧ hvi3.chip.port[(23 : Fin 24)].state = PortState.off ∧ hvi3.chip.portValid 23 = false) ∧
    (hvi4.settled = true ∧ hvi4.chip.writable Requester.host (Reg.EFP_CTRL 23) ((17 : Word) &&& (4294967294 : Word)) = true ∧ hvi4.chip.port[(23 : Fin 24)].state ≠ PortState.off ∧ hvi4.chip.writable Requester.host (Reg.EFP_CTRL 23) ((17 : Word) ||| (2 : Word)) = true ∧ hvi4.chip.port[(23 : Fin 24)].state = PortState.run) ∧
    BitVec.getLsbD (17 : Word) 0 = true ∧
    (hvi5.settled = true ∧ hvi5.chip.writable Requester.host (Reg.EFP_CTRL 23) ((17 : Word) &&& (4294967294 : Word)) = true ∧ hvi5.chip.port[(23 : Fin 24)].state ≠ PortState.off ∧ hvi5.chip.writable Requester.host (Reg.EFP_CTRL 23) ((17 : Word) ||| (4 : Word)) = true ∧ hvi5.chip.port[(23 : Fin 24)].state = PortState.tripped ∧ hvi5.chip.port[(23 : Fin 24)].tripAt + 100 * edgesPerMs ≤ hvi5.chip.ttu.up) ∧
    (hvi6.settled = true ∧ hvi6.chip.writable Requester.host (Reg.EFP_CTRL 23) ((17 : Word) &&& (4294967294 : Word)) = true ∧ hvi6.chip.port[(23 : Fin 24)].state ≠ PortState.off ∧ hvi6.chip.writable Requester.host (Reg.EFP_CTRL 23) ((17 : Word) ||| (4 : Word)) = true ∧ hvi6.chip.port[(23 : Fin 24)].state = PortState.tripped ∧ hvi6.chip.ttu.up < hvi6.chip.port[(23 : Fin 24)].tripAt + 100 * edgesPerMs) ∧
    (hvi8.settled = true ∧ hvi8.chip.port[(23 : Fin 24)].state = PortState.diag ∧ (hvi8.chip.port[(23 : Fin 24)].state = PortState.diag ∨ hvi8.chip.port[(23 : Fin 24)].state = PortState.run)) ∧
    (hvi8.chip.govTrips 23 ([25000, 25001, 25001, 25001].zip [10501, 10501, 10500, 10501]) = 0 ∧ hvi8.chip.asy = none ∧
      hvi8.chip.govTrips 23 ([25001, 25001, 25001, 25001].zip [0, 0, 0, 0]) = 1 ∧
      hvi8.chip.govTrips 23 ([0, 0, 0, 0].zip [10501, 10501, 10501, 10501]) = 2 ∧
      (hvi8.chip.port[(23 : Fin 24)]).diagAt + 120 ≤ hvi8.chip.ttu.up) ∧
    (hvi7.settled = true ∧ hvi7.chip.port[(23 : Fin 24)].state = PortState.diag) := by
  and_intros <;> first | exact silent_of (by decide +kernel) | exact range_of (by decide +kernel) | decide +kernel

theorem witness_PortsConvertAndSwitch :
    (hvi9.settled = true ∧ hvi9.chip.port[(23 : Fin 24)].state = PortState.run ∧ hvi9.chip.port[(23 : Fin 24)].valid = true ∧ hvi9.chip.port[(23 : Fin 24)].stale = false ∧ hvi9.chip.fld (Reg.EFP_CFG 23) 2 0 = 2 ∧ (∀ (m : Fin 128), hvi9.chip.feeds (↑m : Nat) 2 23 = false)) ∧
    ((3600 : Int) ≤ (3600 : Int) ∧ (3600 : Int) ≤ (21000 : Int) ∧ (21000 : Int) ≤ (21000 : Int) ∧ (3599 : Int) < (3600 : Int)) ∧
    (hvi10.settled = true ∧ hvi10.chip.port[(23 : Fin 24)].state = PortState.run ∧ hvi10.chip.fld (Reg.EFP_CFG 23) 2 0 = 1 ∧ hvi10.chip.port[(23 : Fin 24)].raw ≠ contactClosed false 0 1 ∧
      hvi10.chip.port[(23 : Fin 24)].raw = contactClosed false 3 1) ∧
    (hvi11.settled = true ∧ hvi11.chip.port[(23 : Fin 24)].state = PortState.run ∧ hvi11.chip.fld (Reg.EFP_CFG 23) 2 0 = 5) := by
  and_intros <;> first | exact silent_of (by decide +kernel) | exact range_of (by decide +kernel) | decide +kernel

end Hvi

/-! ### Witnesses: Drc -/

namespace Drc

def upS : State := chg fun c => (c.onDrc fun d => { d with initDone := true, chans := d.chans.map fun x => { x with up := true } }).wrn Reg.HST_BAR2_BASE 2
def upL : State := { upS with chip := laying id upS.chip, mem := { upS.mem with dram := [(0x80000005, 9), (0x8000100A, 3)], nor := [(0x3FFFFFF, 3)], spad := [(0xA7FFFF, 7)] } }
def upLd : State := { upS with chip := upS.chip.onLease 4 fun l => { l with state := .loading, base := 0x80001000, len := 0x1000 } }
def pairS : State := { upL with chip := ((upL.chip.onSvc fun x => { x with running := 3 }).wrn (Reg.SVC_PWIN_SIZE 1 2) 12).wrPair (Reg.SVC_PWIN_BASE_LO 1 2) 0x60000000 }
def scrubEnd : State := { upL with chip := upL.chip.onDrc fun d => { d with scrubPos := 2 ^ 28 - 1, scrubPasses := 0xFFFF, crbPos := 48 * 2 ^ 17 - 1, crbPasses := 5, needed := true } }
def trainS (t : Option Nat) (l : List Nat) (pos : Nat) : State := { upS with chip := upS.chip.onDrc fun d => { d with training := t, trainLeft := l, needed := true, crbPos := pos, chans := d.chans.map fun x => { x with drift := 39 } } }
def rhS : State := { upS with chip := upS.chip.onChan 1 fun x => { x with acts := [((5, 3), 7), ((6, 2), 9)], throttled := [(4, 3)] } }
def pairW : State := { pairS with chip := [0, 1, 3].foldl (fun c w => c.wrn (Reg.SVC_PWIN_SIZE 1 w) 0) pairS.chip }
def upBusy : State := { upL with chip := upL.chip.wrn Reg.DRC_TRAIN_CFG 0x286D }
def upLow : State := { upS with chip := upS.chip.wrn Reg.HST_BAR2_BASE 1 }
def upHi : State := { upS with chip := upS.chip.wrn Reg.HST_BAR2_BASE 31 }
def drc1 : State := trainS none [] 0x390000
def drc2 : State := trainS (some 0) [1] 0x390000
def drc3 : State := trainS (some 1) [] 0x390000
def drc4 : State := trainS (some 1) [] 0x410000

theorem witness_OneSymbolErrorsAreCorrected :
    ([1, 2, 3, 4, 5, 6, 7, 255].length = 8 ∧ (∀ (b : Nat), b ∈ [1, 2, 3, 4, 5, 6, 7, 255] → b < 256) ∧ [0, 0, 0, 0, 0, 0, 0, 0].length = 8 ∧ (∀ (b : Nat), b ∈ [0, 0, 0, 0, 0, 0, 0, 0] → b < 256)) := by
  decide +kernel

theorem witness_BarTwoReachesMemory :
    (upS.settled = true ∧ upS.chip.drc.initDone = true ∧ (∀ (k : Nat), k < [(1 : Byte), (2 : Byte), (3 : Byte)].length → mayWrite reqBAR2 (upS.chip.fld Reg.HST_BAR2_BASE 4 0 * 2 ^ 30 + BitVec.toNat (2147483648 : BitVec 32) + k) = true) ∧ (∀ (k : Nat), k < [(1 : Byte), (2 : Byte), (3 : Byte)].length → upS.chip.guardOf (upS.chip.fld Reg.HST_BAR2_BASE 4 0 * 2 ^ 30 + BitVec.toNat (2147483648 : BitVec 32) + k) = none) ∧ (∀ (k : Nat), k < 3 → mayRead reqBAR2 (upS.chip.fld Reg.HST_BAR2_BASE 4 0 * 2 ^ 30 + BitVec.toNat (2147483648 : BitVec 32) + k) = true)) ∧
    (∀ (r : Fin 256), upS.chip.isEventRing r = false) ∧
    [(1 : Byte), (2 : Byte), (3 : Byte)] ≠ [] ∧
    (upL.settled = true ∧ upL.chip.drc.initDone = true ∧ (∀ (k : Nat), k < [(1 : Byte), (2 : Byte), (3 : Byte)].length → mayWrite reqBAR2 (upL.chip.fld Reg.HST_BAR2_BASE 4 0 * 2 ^ 30 + BitVec.toNat (5 : BitVec 32) + k) = true) ∧ (∀ (k : Nat), k < 3 → mayRead reqBAR2 (upL.chip.fld Reg.HST_BAR2_BASE 4 0 * 2 ^ 30 + BitVec.toNat (5 : BitVec 32) + k) = true) ∧ (∀ (k : Nat), k < [(1 : Byte), (2 : Byte), (3 : Byte)].length → mayWrite reqBAR2 (upL.chip.fld Reg.HST_BAR2_BASE 4 0 * 2 ^ 30 + BitVec.toNat (4094 : BitVec 32) + k) = true) ∧ (∀ (k : Nat), k < 3 → mayRead reqBAR2 (upL.chip.fld Reg.HST_BAR2_BASE 4 0 * 2 ^ 30 + BitVec.toNat (4094 : BitVec 32) + k) = true)) ∧
    (∀ (r : Fin 256), upL.chip.isEventRing r = false) ∧
    (upLd.settled = true ∧ upLd.chip.drc.initDone = true ∧ (∀ (k : Nat), k < [(1 : Byte), (2 : Byte), (3 : Byte)].length → mayWrite reqBAR2 (upLd.chip.fld Reg.HST_BAR2_BASE 4 0 * 2 ^ 30 + BitVec.toNat (4094 : BitVec 32) + k) = true) ∧ (∀ (k : Nat), k < [(1 : Byte), (2 : Byte), (3 : Byte)].length → upLd.chip.guardOf (upLd.chip.fld Reg.HST_BAR2_BASE 4 0 * 2 ^ 30 + BitVec.toNat (4094 : BitVec 32) + k) = none)) ∧
    (upLow.settled = true ∧ upLow.chip.drc.initDone = true ∧ (∃ k, k < [(1 : Byte), (2 : Byte), (3 : Byte)].length ∧ mayWrite reqBAR2 (upLow.chip.fld Reg.HST_BAR2_BASE 4 0 * 2 ^ 30 + BitVec.toNat (268435454 : BitVec 32) + k) = false)) ∧
    (upHi.settled = true ∧ upHi.chip.drc.initDone = true ∧ (∃ k, k < [(1 : Byte), (2 : Byte), (3 : Byte)].length ∧ mayWrite reqBAR2 (upHi.chip.fld Reg.HST_BAR2_BASE 4 0 * 2 ^ 30 + BitVec.toNat (1073741822 : BitVec 32) + k) = false) ∧ (∃ k, k < 3 ∧ mayRead reqBAR2 (upHi.chip.fld Reg.HST_BAR2_BASE 4 0 * 2 ^ 30 + BitVec.toNat (1073741822 : BitVec 32) + k) = false)) := by
  and_intros <;> first | exact silent_of (by decide +kernel) | exact range_of (by decide +kernel) | decide +kernel

theorem witness_BarTwoReachesMemory_untrained : run.settled = true ∧ run.chip.drc.initDone = false := by decide +kernel

theorem witness_PairsLoadAndStore_scratchpad :
    (pairS.settled = true ∧ pairS.chip.svc.running.getLsbD 0 = true) ∧
    (0xA7FFFD + 3 ≤ 0xA80000 ∧ 0xA80000 < 0xA7FFFE + 3 ∧ 0x3FFFFFF + 1 ≤ 0x4000000) ∧
    (0x2580000 ≤ 8 * 0x4B0000 ∧ 0x4B0000 < 48 * 2 ^ 17 ∧ 0x2580000 ≤ 8 * (48 * 2 ^ 17 - 1)) := by
  and_intros <;> decide +kernel

theorem witness_PairsLoadAndStore :
    (pairS.settled = true ∧ pairS.chip.svc.running.getLsbD 0 = true ∧ (!windowed 2147487753 [(4 : Byte), (5 : Byte)].length || pairS.chip.inWindow (0 : Fin 4) 2147487753 [(4 : Byte), (5 : Byte)].length) = true ∧ (∀ (k : Nat), k < [(4 : Byte), (5 : Byte)].length → pairS.chip.guardOf (2147487753 + k) = none) ∧ pairS.chip.bit Reg.PMC_USER_EN 0 = false ∧ pairS.chip.svc.running.getLsbD 1 = true ∧ (!windowed 1610616830 [(4 : Byte), (5 : Byte)].length || pairS.chip.inWindow (1 : Fin 4) 1610616830 [(4 : Byte), (5 : Byte)].length) = true ∧ (∀ (k : Nat), k < [(4 : Byte), (5 : Byte)].length → pairS.chip.guardOf (1610616830 + k) = none)) ∧
    ((!windowed 1610616831 [(4 : Byte), (5 : Byte)].length || pairS.chip.inWindow (1 : Fin 4) 1610616831 [(4 : Byte), (5 : Byte)].length) = true ∧ (∀ (k : Nat), k < [(4 : Byte), (5 : Byte)].length → pairS.chip.guardOf (1610616831 + k) = none) ∧ (!windowed 2147483648 [(4 : Byte), (5 : Byte)].length || pairS.chip.inWindow (1 : Fin 4) 2147483648 [(4 : Byte), (5 : Byte)].length) = true ∧ (∃ k, k < [(4 : Byte), (5 : Byte)].length ∧ pairS.chip.guardOf (2147483648 + k) ≠ none) ∧ (!windowed 2147487743 [(4 : Byte), (5 : Byte)].length || pairS.chip.inWindow (1 : Fin 4) 2147487743 [(4 : Byte), (5 : Byte)].length) = true ∧ pairS.chip.svc.boot = BootState.fwRun) ∧
    ((∀ (k : Nat), k < 3 → mayRead (reqPair 0) (2147487753 + k) = true) ∧ [(4 : Byte), (5 : Byte)] ≠ [] ∧ (∀ (k : Nat), k < [(4 : Byte), (5 : Byte)].length → mayWrite (reqPair 0) (2147487753 + k) = true) ∧ (∀ (k : Nat), k < 3 → mayRead (reqPair 1) (1610616830 + k) = true) ∧ (∀ (k : Nat), k < [(4 : Byte), (5 : Byte)].length → mayWrite (reqPair 1) (1610616830 + k) = true) ∧ (∀ (k : Nat), k < 3 → mayRead (reqPair 1) (1610616831 + k) = true) ∧ (∀ (k : Nat), k < [(4 : Byte), (5 : Byte)].length → mayWrite (reqPair 1) (1610616831 + k) = true) ∧ (∀ (k : Nat), k < [(4 : Byte), (5 : Byte)].length → mayWrite (reqPair 1) (2147483648 + k) = true)) ∧
    (∀ (k : Nat), k < [(4 : Byte), (5 : Byte)].length → mayWrite (reqPair 1) (2147487743 + k) = true) ∧
    (pairW.settled = true ∧ pairW.chip.svc.running.getLsbD 1 = true ∧ (!windowed 1610616831 [(4 : Byte), (5 : Byte)].length || pairW.chip.inWindow (1 : Fin 4) 1610616831 [(4 : Byte), (5 : Byte)].length) = false) := by
  and_intros <;> first | exact silent_of (by decide +kernel) | exact range_of (by decide +kernel) | decide +kernel

/-- The burst that patrol scrub reads next comes back corrected. -/
def scrubCorrects (s : State) (errs : List DramErr) : Bool :=
  ((({ s.chip with derr := errs } : Chip).decodeBurst s.env (128 * s.chip.drc.scrubPos)).1.bind id).isSome &&
    errs.any fun y => y.beat / 16 == s.chip.drc.scrubPos

def heldS : State := { drc1 with chip := drc1.chip.onDrc fun d => { d with heldOff := true } }
def histS : State := trainS none [] 0x291001
theorem witness_MemoriesAreLookedAfter_more :
    (upS.settled = true ∧ upS.chip.bit Reg.DRC_SCRUB_CFG 31 = true ∧ upS.chip.drc.initDone = true ∧
      scrubCorrects upS [⟨0, 3, 5⟩] = true ∧ scrubCorrects upS [⟨15, 9, 255⟩, ⟨16, 0, 1⟩] = true) ∧
    (heldS.settled = true ∧ heldS.chip.drc.needed = true ∧ heldS.chip.drc.training = none ∧ heldS.chip.layerGap = true ∧
      heldS.chip.drc.heldOff = true ∧ drc1.chip.drc.heldOff = false ∧ drc1.chip.startWithin 8000000 = false) ∧
    (upL.settled = true ∧ upL.chip.layerGap = false) ∧
    (histS.settled = true ∧ (crbRegion (8 * histS.chip.drc.crbPos)).1 = 2) := by
  and_intros <;> decide +kernel

theorem witness_MemoriesAreLookedAfter :
    (upS.settled = true ∧ upS.chip.drc.chans[(1 : Fin 2)].up = true ∧ (upS.chip.scn.layer.isSome = false ∨ 110 ≤ upS.chip.fld Reg.DRC_TRAIN_CFG 7 0) ∧ ¬upS.chip.fld Reg.DRC_TRAIN_CFG 15 8 < (satS 16 (upS.chip.drc.chans[(1 : Fin 2)].drift + (-5 : Int))).natAbs ∧ upS.chip.drc.chans[(0 : Fin 2)].up = true ∧ upS.chip.fld Reg.DRC_TRAIN_CFG 15 8 < (satS 16 (upS.chip.drc.chans[(0 : Fin 2)].drift + (32767 : Int))).natAbs ∧ upS.chip.bit Reg.DRC_SCRUB_CFG 31 = true ∧ upS.chip.drc.initDone = true) ∧
    (∀ (y : DramErr), y ∈ [DramErr.mk 16 (3 : Fin 10) (5 : Byte), DramErr.mk 17 (3 : Fin 10) (5 : Byte)] → y.beat / 16 ≠ upS.chip.drc.scrubPos) ∧
    (upL.settled = true ∧ upL.chip.drc.chans[(0 : Fin 2)].up = true ∧ (upL.chip.scn.layer.isSome = false ∨ 110 ≤ upL.chip.fld Reg.DRC_TRAIN_CFG 7 0) ∧ upL.chip.fld Reg.DRC_TRAIN_CFG 15 8 < (satS 16 (upL.chip.drc.chans[(0 : Fin 2)].drift + (41 : Int))).natAbs) ∧
    (scrubEnd.settled = true ∧ scrubEnd.chip.bit Reg.DRC_SCRUB_CFG 31 = true ∧ scrubEnd.chip.drc.initDone = true ∧ (∀ (y : DramErr), y ∈ [DramErr.mk 16 (3 : Fin 10) (5 : Byte)] → y.beat / 16 ≠ scrubEnd.chip.drc.scrubPos) ∧ scrubEnd.chip.drc.chans[(0 : Fin 2)].up = true ∧ (scrubEnd.chip.scn.layer.isSome = false ∨ 110 ≤ scrubEnd.chip.fld Reg.DRC_TRAIN_CFG 7 0) ∧ scrubEnd.chip.fld Reg.DRC_TRAIN_CFG 15 8 < (satS 16 (scrubEnd.chip.drc.chans[(0 : Fin 2)].drift + (32767 : Int))).natAbs) ∧
    (drc1.settled = true ∧ drc1.chip.drc.chans[(0 : Fin 2)].up = true ∧ (drc1.chip.scn.layer.isSome = false ∨ 110 ≤ drc1.chip.fld Reg.DRC_TRAIN_CFG 7 0) ∧ ¬drc1.chip.fld Reg.DRC_TRAIN_CFG 15 8 < (satS 16 (drc1.chip.drc.chans[(0 : Fin 2)].drift + (1 : Int))).natAbs ∧ drc1.chip.drc.needed = true ∧ drc1.chip.drc.training = none ∧ drc1.chip.layerGap = true) ∧
    (drc2.settled = true ∧ drc2.chip.drc.training = some 0) ∧
    (drc3.settled = true ∧ drc3.chip.drc.chans[(1 : Fin 2)].up = true ∧ (drc3.chip.scn.layer.isSome = false ∨ 110 ≤ drc3.chip.fld Reg.DRC_TRAIN_CFG 7 0) ∧ drc3.chip.fld Reg.DRC_TRAIN_CFG 15 8 < (satS 16 (drc3.chip.drc.chans[(1 : Fin 2)].drift + (-80 : Int))).natAbs ∧ drc3.chip.drc.training = some 1 ∧ (crbRegion (8 * drc3.chip.drc.crbPos)).fst = 3 ∧ (8 * drc3.chip.drc.crbPos - 29884416) / 262144 = 0) ∧
    (drc4.settled = true ∧ drc4.chip.drc.chans[(1 : Fin 2)].up = true ∧ (drc4.chip.scn.layer.isSome = false ∨ 110 ≤ drc4.chip.fld Reg.DRC_TRAIN_CFG 7 0) ∧ drc4.chip.fld Reg.DRC_TRAIN_CFG 15 8 < (satS 16 (drc4.chip.drc.chans[(1 : Fin 2)].drift + (-80 : Int))).natAbs ∧ drc4.chip.drc.training = some 1 ∧ (crbRegion (8 * drc4.chip.drc.crbPos)).fst = 4) ∧
    (upBusy.settled = true ∧ upBusy.chip.drc.chans[(1 : Fin 2)].up = true ∧ upBusy.chip.scn.layer.isSome = true ∧ upBusy.chip.fld Reg.DRC_TRAIN_CFG 7 0 < 110) := by
  and_intros <;> first | exact silent_of (by decide +kernel) | exact range_of (by decide +kernel) | decide +kernel

theorem witness_HammeredBanksAreThrottled :
    (rhS.settled = true ∧ rhS.chip.bit Reg.DRC_RH_CFG 31 = true ∧ rhS.chip.drc.chans[(1 : Fin 2)].up = true ∧ (rhS.chip.fld Reg.DRC_RH_CFG 15 0 ≤ (List.map (fun x => x.snd) (List.filter (fun y => (↑y.fst : Nat) != reqScrub) [((3 : Fin 32), 20000), ((2 : Fin 32), 20000), ((14 : Fin 32), 50000)])).sum) ∧ (∀ (y : Nat × Nat), y ∈ rhS.chip.drc.chans[(1 : Fin 2)].throttled → y.fst ≠ 5)) ∧
    (∀ (r : Fin 256), rhS.chip.isEventRing r = false) ∧
    (topRequester [((3 : Fin 32), 20000), ((2 : Fin 32), 20000), ((14 : Fin 32), 50000)] = some 2 ∧ topRequester [((3 : Fin 32), 20), ((2 : Fin 32), 20), ((3 : Fin 32), 1), ((14 : Fin 32), 50000)] = some 3) := by
  and_intros <;> first | exact silent_of (by decide +kernel) | exact range_of (by decide +kernel) | decide +kernel

end Drc

/-! ### Witnesses: Hst -/

namespace Hst

def ringOff (cfg : Nat) : State := chg fun c => (c.wrn (Reg.HST_RING_CFG 5) cfg).wrn (Reg.HST_RING_BASE_LO 5) 0x10000
def nopD : Desc := desc 0 fun _ => 0
def nopBad : Desc := desc 0 fun i => if i = 9 then 1 else 0
def ringS (ty : Nat) (f : List Desc) (cur : Option Current) : State := chg (ringed ty f cur)
def ringF (ty : Nat) (f : Ring → Ring) : State := chg fun c => (ringed ty [] none c).onRing 5 f
def ringH : State := ringF 0 fun g => { g with cqTail := 18, held := [⟨7, 0, false, true, some 1, some 2⟩] }
def ringSt : State := ringF 4 fun g => { g with recProd := 9, recCons := 3 }
def ringRd : State := chg fun c => { (ringed 1 [] none c) with hst := { (ringed 1 [] none c).hst with reads := [⟨7, 9, 0x500, 32, .chainEntry⟩, ⟨8, 5, 0x10080, 64, .fetch 4 2⟩] } }
def twoNops : List Byte := (List.replicate 32 0) ++ (List.replicate 32 0).set 0 2
def ringWbS (ty : Nat) : State := chg fun c => (((ringed ty [] none c).wrn (Reg.HST_RING_WB_LO 5) 0x30000).onRing 5 fun g => { g with wbPend := true, recProd := 3 }).onTtu fun x => { x with index := 777 }
def msixS (w m : Bool) (cfg : Nat) : State := chg fun c => { c.wrn Reg.HST_IRQ_CFG cfg with hst := { c.hst with msixOn := true, spacing := 1#64 <<< 63, waiting := if w then 1#64 <<< 63 else 0, msix := c.hst.msix.set 63 ⟨0x4000, 1, 0x99, if m then 1 else 0⟩ } }
def ringLocS : State := chg fun c => ((ringed 0x400011 [nopD] none c).wrn (Reg.HST_RING_CQ_LO 5) 0x60000000).onTtu fun x => { x with index := 12 }
def chainD (n a : Nat) : Desc := desc 1 fun i => if 8 ≤ i ∧ i < 16 then (leBytes 8 a).getD (i - 8) 0 else if 16 ≤ i ∧ i < 18 then (leBytes 2 n).getD (i - 16) 0 else 0
def chainS : State := chg fun c => (ringed 1 [] none c).onRing 5 fun g => { g with chain := some (chainD 3 0x7000, ⟨0x7000, 1, 2⟩), chainHead := some nopD }
def copyD (n s d : Nat) : Desc := desc 2 fun i => if 4 ≤ i ∧ i < 8 then (leBytes 4 n).getD (i - 4) 0 else if 8 ≤ i ∧ i < 16 then (leBytes 8 s).getD (i - 8) 0 else if 16 ≤ i ∧ i < 24 then (leBytes 8 d).getD (i - 16) 0 else 0
def copyS (d : Desc) : State := chg (ringed 0 [d] none)
def copyG (d : Desc) : State := chg fun c => laying id (ringed 0 [d] none c)
def copyW : State := chg fun c => let c := ringed 0 [] (some ⟨copyD 4100 0x1000 0x81000000, .copy 0x1000 0x81000000 4100 4096⟩) c
  { c with hst := { c.hst with reads := [⟨9, 5, 0x2000, 4, .copyStep 4⟩] } }
def regD (off v commit : Nat) : Desc := desc 0x20 fun i => if i = 4 then 1 else if i = 5 then BitVec.ofNat 8 commit else if 8 ≤ i ∧ i < 12 then (leBytes 4 off).getD (i - 8) 0 else if 12 ≤ i ∧ i < 16 then (leBytes 4 v).getD (i - 12) 0 else 0
def regS (d : Desc) : State := chg (ringed 1 [d] none)
def passD (h len rmax : Byte) : Desc := desc 0x24 fun i => if i = 4 then h else if i = 5 then len else if i = 9 then 0x20 else if i = 17 then 0x50 else if i = 24 then rmax else 0
def passS (h len : Byte) (st : LaneState) : State := chg fun c => (ringed 1 [passD h len 4] none c).onLane 63 fun k => { k with state := st, fcSeen := true, crd := 20 }
def passW : State := chg fun c => (ringed 1 [] (some ⟨passD 63 0 4, .passReply 63 0x5000 4⟩) c).onLane 63 fun k => { k with state := .active, fcSeen := true, crd := 20 }
def mvD (f : Byte) : Desc := desc 0x30 fun i => if i = 4 then 7 else if i = 5 then f else if i = 8 then 0xF0 else if i = 11 then 0xFF else if i = 12 then 9 else 0
def mvS (n : Nat) (f : Byte) : State := chg fun c => (ringed 2 [mvD f] none c).onAxis 7 fun x => { x with staged := List.replicate n ⟨5, 10, false, false, none⟩ }
def axD (f : Byte) : Desc := desc 0x31 fun i => if i = 4 then 7 else if i = 5 then f else 0
def axCmdS (f : Byte) : State := chg (ringed 2 [axD f] none)
def hst1 : State := ringOff 0x400
def hst2 : State := ringOff 0x300
def hst3 : State := ringOff 0x40040F
def hst4 : State := ringS 0 [] none
def hst5 : State := ringS 0 [] (some ⟨nopD, .registration⟩)
def hst6 : State := ringS 0 [nopD] none
def hst7 : State := ringF 1 fun g => { g with sqTail := 9 }
def hst8 : State := ringWbS 1
def hst9 : State := ringWbS 4
def hst10 : State := msixS false false 9
def hst11 : State := msixS true true 9
def hst12 : State := msixS true false 9
def hst13 : State := msixS true false 0
def hst14 : State := ringS 1 [nopD] none
def hst15 : State := ringS 1 [nopBad] none
def hst16 : State := ringS 1 [chainD 4096 0x7000] none
def hst17 : State := ringS 1 [chainD 4097 0x7000] none
def hst18 : State := ringS 1 [chainD 1 0x7010] none
def hst19 : State := copyS (copyD 33 0x1000 0x81000000)
def hst20 : State := copyG (copyD 50 0x1000 0x80000FFF)
def hst21 : State := regS (regD 0x40004 0x1F 0)
def hst22 : State := regS (regD 0x40004 0x1F 15)
def hst23 : State := regS (regD 0x40004 0x1F 16)
def hst24 : State := regS (regD 0x800000 0x1F 0)
def hst25 : State := passS 63 0 .active
def hst26 : State := passS 63 0 .idle
def hst27 : State := passS 63 252 .active
def hst28 : State := mvS 7 3
def hst29 : State := mvS 8 0
def hst30 : State := axCmdS 8

/-- A FRAME ring whose one buffer holds nothing, and an EVENT ring that every record held is older than. -/
def frameS : State := ringF 3 fun g => { g with bufs := [⟨3, false, 0x7000, 256⟩], wait := [(3, none)] }
def eventS : State := ringF 5 fun g => { g with cursor := 4, recProd := 9, recCons := 3 }

theorem witness_RingsRunAsTheHostAsks_streams :
    (frameS.settled = true ∧ frameS.chip.writable .host (Reg.HST_RING_CTRL 5) 0 = true ∧ (frameS.chip.ring 5).on = true ∧
      (frameS.chip.ring 5).fetched = [] ∧ (frameS.chip.ring 5).bufs = [⟨3, false, 0x7000, 256⟩] ∧
      (frameS.chip.ring 5).wait = [(3, none)] ∧ (frameS.chip.ring 5).held = [] ∧
      (frameS.chip.ring 5).cqUsed < frameS.chip.ringSize 5 ∧ frameS.chip.ringLoc 5 = false) ∧
    (eventS.settled = true ∧ eventS.chip.ringType 5 = 5 ∧ (eventS.chip.ring 5).state = .enabled ∧
      eventS.chip.evr.oldest ≤ (eventS.chip.ring 5).cursor ∧ (∀ y ∈ eventS.chip.evr.ram, y.num < (eventS.chip.ring 5).cursor) ∧
      (9 - (eventS.chip.ring 5).recCons).toNat ≤ (eventS.chip.ring 5).recUsed) ∧
    (∀ k : Fin 256, run.chip.isEventRing k = false) ∧
    (∀ k : Fin 256, (eventS.chip.ring k).fetched = [] ∧ (eventS.chip.ring k).wait = []) ∧
    ConfigAccess.aerStatus ≠ .msixControl true false := by
  and_intros <;> first | exact silent_of (by decide +kernel) | decide +kernel

theorem witness_RingsRunAsTheHostAsks :
    (hst1.settled = true ∧ hst1.chip.writable Requester.host (Reg.HST_RING_CTRL 5) (1 : Word) = true ∧ (hst1.chip.ring (5 : Fin 256)).state = RingState.disabled ∧ hst1.chip.enableFails (5 : Fin 256) = 0) ∧
    (hst2.settled = true ∧ hst2.chip.writable Requester.host (Reg.HST_RING_CTRL 5) (1 : Word) = true ∧ (hst2.chip.ring (5 : Fin 256)).state = RingState.disabled ∧ hst2.chip.enableFails (5 : Fin 256) ≠ 0) ∧
    (∀ (k : Fin 256), hst2.chip.isEventRing k = false) ∧
    (hst4.settled = true ∧ hst4.chip.writable Requester.host (Reg.HST_RING_CTRL 5) (0 : Word) = true ∧ (hst4.chip.ring (5 : Fin 256)).on = true ∧ (hst4.chip.ring (5 : Fin 256)).wait = [] ∧ (hst4.chip.ring (5 : Fin 256)).fetched = [] ∧ (Requester.host = ownerReq (hst4.chip.ringOwner 5) ∧ (hst4.chip.svc.boot = BootState.fwRun ∨ Requester.host ≠ Requester.host)) ∧ (hst4.chip.ring (5 : Fin 256)).state = RingState.enabled ∧ isStream (hst4.chip.ringType 5) = false) ∧
    ((BitVec.extractLsb' 0 16 (14 : Word) - (hst4.chip.ring (5 : Fin 256)).sqHead).toNat ≤ hst4.chip.ringSize 5 ∧ (BitVec.extractLsb' 0 16 (14 : Word) - (hst4.chip.ring (5 : Fin 256)).cqHead).toNat ≤ (hst4.chip.ring (5 : Fin 256)).cqUsed ∧ (hst4.chip.ring (5 : Fin 256)).held = []) ∧
    (BitVec.toNat (14 : Word) < 2 ^ 16 ∧ BitVec.toNat (20 : Word) < 2 ^ 16 ∧ BitVec.toNat (3 : Word) < 2 ^ 16 ∧ (Machine.Compl.mk 7 0 false true (some 1) (some 2)).irq = false ∧ BitVec.toNat (9 : Word) < 2 ^ 16) ∧
    (hst5.settled = true ∧ hst5.chip.writable Requester.host (Reg.HST_RING_CTRL 5) (0 : Word) = true ∧ (hst5.chip.ring (5 : Fin 256)).on = true ∧ (hst5.chip.ring (5 : Fin 256)).wait = [] ∧ (hst5.chip.ring (5 : Fin 256)).fetched = [] ∧ (Requester.host = ownerReq (hst5.chip.ringOwner 5) ∧ (hst5.chip.svc.boot = BootState.fwRun ∨ Requester.host ≠ Requester.host)) ∧ (hst5.chip.ring (5 : Fin 256)).state = RingState.enabled ∧ isStream (hst5.chip.ringType 5) = false) ∧
    (BitVec.extractLsb' 0 16 (20 : Word) - (hst5.chip.ring (5 : Fin 256)).sqHead).toNat ≤ hst5.chip.ringSize 5 ∧
    (hst6.settled = true ∧ (Requester.host = ownerReq (hst6.chip.ringOwner 5) ∧ (hst6.chip.svc.boot = BootState.fwRun ∨ Requester.host ≠ Requester.host)) ∧ (hst6.chip.ring (5 : Fin 256)).state = RingState.enabled ∧ (BitVec.extractLsb' 0 16 (3 : Word) - (hst6.chip.ring (5 : Fin 256)).cqHead).toNat ≤ (hst6.chip.ring (5 : Fin 256)).cqUsed ∧ (hst6.chip.ring (5 : Fin 256)).held = [] ∧ hst6.chip.writable Requester.host (Reg.HST_RING_CTRL 5) (0 : Word) = true ∧ (hst6.chip.ring (5 : Fin 256)).on = true ∧ (hst6.chip.ring (5 : Fin 256)).bufs = []) ∧
    ((hst6.chip.ring (5 : Fin 256)).fetched = [nopD] ∧ (hst6.chip.ring (5 : Fin 256)).cqUsed < hst6.chip.ringSize 5 ∧ hst6.chip.ringLoc 5 = false ∧ (hst6.chip.ring 5).wait = []) ∧
    nopD.irq = false ∧
    (ringH.settled = true ∧ (Requester.host = ownerReq (ringH.chip.ringOwner 5) ∧ (ringH.chip.svc.boot = BootState.fwRun ∨ Requester.host ≠ Requester.host)) ∧ (ringH.chip.ring (5 : Fin 256)).state = RingState.enabled ∧ (BitVec.extractLsb' 0 16 (3 : Word) - (ringH.chip.ring (5 : Fin 256)).cqHead).toNat ≤ (ringH.chip.ring (5 : Fin 256)).cqUsed ∧ (ringH.chip.ring (5 : Fin 256)).held = [Machine.Compl.mk 7 0 false true (some 1) (some 2)] ∧ ((ringH.chip.ring (5 : Fin 256)).cqTail - BitVec.extractLsb' 0 16 (3 : Word)).toNat < ringH.chip.ringSize 5 ∧ (ringH.chip.ring 5).wait = []) ∧
    (∀ (k : Fin 256), ringH.chip.isEventRing k = false) ∧
    (ringSt.settled = true ∧ ringSt.chip.writable Requester.host (Reg.HST_RING_CTRL 5) (0 : Word) = true ∧ (ringSt.chip.ring (5 : Fin 256)).on = true ∧ (ringSt.chip.ring (5 : Fin 256)).wait = [] ∧ (ringSt.chip.ring (5 : Fin 256)).fetched = [] ∧ (Requester.host = ownerReq (ringSt.chip.ringOwner 5) ∧ (ringSt.chip.svc.boot = BootState.fwRun ∨ Requester.host ≠ Requester.host)) ∧ (ringSt.chip.ring (5 : Fin 256)).state = RingState.enabled ∧ (BitVec.extractLsb' 0 16 (9 : Word) - (ringSt.chip.ring (5 : Fin 256)).cqHead).toNat ≤ (ringSt.chip.ring (5 : Fin 256)).cqUsed) ∧
    ((ringSt.chip.ring (5 : Fin 256)).held = [] ∧ ringSt.chip.ringType 5 = 4 ∧ (BitVec.extractLsb' 0 16 (9 : Word) - (ringSt.chip.ring (5 : Fin 256)).recCons).toNat ≤ (ringSt.chip.ring (5 : Fin 256)).recUsed) := by
  and_intros <;> first | exact silent_of (by decide +kernel) | exact range_of (by decide +kernel) | decide +kernel

theorem witness_EntriesAreFetchedAndCompleted :
    (hst7.settled = true ∧ isStream (hst7.chip.ringType 5) = false ∧ 0 < hst7.chip.batch (5 : Fin 256) ∧ hst7.chip.hst.reads.length < 256 ∧ (∀ (y : HostRead), y ∈ hst7.chip.hst.reads → y.ring ≠ 5)) ∧
    hst7.chip.serves (5 : Fin 256) ∧
    (ringRd.settled = true ∧ (ringRd.chip.ring (5 : Fin 256)).fetched = [] ∧ HostRead.mk 8 5 65664 64 (ReadUse.fetch 4 2) ∈ ringRd.chip.hst.reads ∧ (∀ (z : HostRead), z ∈ ringRd.chip.hst.reads → z.id = (HostRead.mk 8 5 65664 64 (ReadUse.fetch 4 2)).id → z = HostRead.mk 8 5 65664 64 (ReadUse.fetch 4 2)) ∧ acceptsOp (ringRd.chip.ringType 5) (leAt twoNops 0 1) = true) ∧
    ringRd.chip.serves (5 : Fin 256) ∧
    ((HostRead.mk 8 5 65664 64 (ReadUse.fetch 4 2)).ring = 5 ∧ (HostRead.mk 8 5 65664 64 (ReadUse.fetch 4 2)).use = ReadUse.fetch 4 2 ∧ (HostRead.mk 8 5 65664 64 (ReadUse.fetch 4 2)).len = 32 * 2) ∧
    twoNops.length = (HostRead.mk 8 5 65664 64 (ReadUse.fetch 4 2)).len ∧
    (hst8.settled = true ∧ hst8.chip.ringWb 5 ≠ 0 ∧ (hst8.chip.ring (5 : Fin 256)).wbPend = true ∧ (hst8.chip.ring (5 : Fin 256)).on = true ∧ hst8.chip.ringLoc 5 = false) ∧
    (hst9.settled = true ∧ hst9.chip.ringWb 5 ≠ 0 ∧ (hst9.chip.ring (5 : Fin 256)).wbPend = true ∧ (hst9.chip.ring (5 : Fin 256)).on = true ∧ hst9.chip.ringLoc 5 = false) ∧
    (hst10.settled = true ∧ hst10.chip.hst.waiting.getLsbD 63 = false) ∧
    (hst11.settled = true ∧ hst11.chip.hst.waiting.getLsbD 63 = true ∧ BitVec.getLsbD hst11.chip.hst.msix[(63 : Fin 64)].ctrl 0 = true ∧
      hst11.chip.hst.msixMask = false ∧ hst11.chip.hst.msixOn = true) ∧
    (hst12.settled = true ∧ hst12.chip.hst.waiting.getLsbD 63 = true ∧ BitVec.getLsbD hst12.chip.hst.msix[(63 : Fin 64)].ctrl 0 = false ∧
      hst12.chip.hst.msixMask = false ∧ hst12.chip.hst.msixOn = true) ∧
    (hst13.settled = true ∧ hst13.chip.hst.waiting.getLsbD 63 = true ∧ BitVec.getLsbD hst13.chip.hst.msix[(63 : Fin 64)].ctrl 0 = false ∧
      hst13.chip.hst.msixMask = false ∧ hst13.chip.hst.msixOn = true) ∧
    hst14.settled = true ∧
    hst14.chip.holds (5 : Fin 256) nopD 0 ∧
    (nopD.clean [] = true ∧ nopD.irq = false ∧ nopD.op = 0) ∧
    hst15.settled = true ∧
    hst15.chip.holds (5 : Fin 256) nopBad 0 ∧
    nopBad.clean [] = false ∧
    (ringLocS.settled = true ∧ (ringLocS.chip.ring (5 : Fin 256)).state = RingState.enabled ∧ ringLocS.chip.nextRing = some 5 ∧ (ringLocS.chip.ring (5 : Fin 256)).wait = [] ∧ (ringLocS.chip.ring (5 : Fin 256)).chain = none ∧ (ringLocS.chip.ring (5 : Fin 256)).held = [] ∧ (ringLocS.chip.ring (5 : Fin 256)).cqUsed < ringLocS.chip.ringSize 5 ∧ (ringLocS.chip.ring (5 : Fin 256)).fetched = [nopD] ∧ (ringLocS.chip.ring (5 : Fin 256)).cur = none ∧ ringLocS.chip.ringLoc 5 = true) ∧
    (∀ (k : Nat), k < 16 → mayWrite reqHST (ringLocS.chip.nextSlot (5 : Fin 256) + k) = true ∧ ringLocS.chip.guardOf (ringLocS.chip.nextSlot (5 : Fin 256) + k) = none) ∧
    (chainS.settled = true ∧ (chainS.chip.ring (5 : Fin 256)).state = RingState.enabled ∧ (chainS.chip.ring (5 : Fin 256)).chain = some (chainD 3 28672, ChainRun.mk 28672 1 2) ∧ (chainS.chip.ring (5 : Fin 256)).chainHead = some nopD ∧ chainS.chip.nextRing = some 5 ∧ (chainS.chip.ring (5 : Fin 256)).wait = [] ∧ (chainS.chip.ring (5 : Fin 256)).cur = none ∧ (chainS.chip.ring (5 : Fin 256)).held = [] ∧ (chainS.chip.ring (5 : Fin 256)).fetched = [] ∧ (chainS.chip.ring (5 : Fin 256)).cqUsed < chainS.chip.ringSize 5) ∧
    chainS.chip.ringLoc 5 = false ∧
    ((chainD 3 28672).irq = false ∧ (chainD 4096 28672).clean [(8, 17)] = true ∧ 0 < leAt (chainD 4096 28672).bytes 16 2 ∧ leAt (chainD 4096 28672).bytes 16 2 ≤ 4096 ∧ leAt (chainD 4096 28672).bytes 8 8 % 32 = 0 ∧ (leAt (chainD 4097 28672).bytes 16 2 = 0 ∨ 4096 < leAt (chainD 4097 28672).bytes 16 2 ∨ leAt (chainD 4097 28672).bytes 8 8 % 32 ≠ 0) ∧ (leAt (chainD 1 28688).bytes 16 2 = 0 ∨ 4096 < leAt (chainD 1 28688).bytes 16 2 ∨ leAt (chainD 1 28688).bytes 8 8 % 32 ≠ 0)) ∧
    hst16.settled = true ∧
    hst16.chip.holds (5 : Fin 256) (chainD 4096 28672) 1 ∧
    hst17.settled = true ∧
    hst17.chip.holds (5 : Fin 256) (chainD 4097 28672) 1 ∧
    hst18.settled = true ∧
    hst18.chip.holds (5 : Fin 256) (chainD 1 28688) 1 := by
  and_intros <;> first | exact silent_of (by decide +kernel) | exact range_of (by decide +kernel) | decide +kernel

theorem witness_DescriptorsCopyAndWriteRegisters :
    hst19.settled = true ∧
    hst19.chip.holds (5 : Fin 256) (copyD 33 4096 2164260864) 2 ∧
    ((copyD 33 4096 2164260864).clean [(4, 23)] = true ∧ 0 < leAt (copyD 33 4096 2164260864).bytes 4 4 ∧ leAt (copyD 33 4096 2164260864).bytes 4 4 ≤ 2 ^ 30 ∧ leAt (copyD 33 4096 2164260864).bytes 16 8 + leAt (copyD 33 4096 2164260864).bytes 4 4 ≤ 2 ^ 35 ∧ (∀ (k : Nat), k < leAt (copyD 33 4096 2164260864).bytes 4 4 → mayWrite reqHST (leAt (copyD 33 4096 2164260864).bytes 16 8 + k) = true ∧ hst19.chip.guardOf (leAt (copyD 33 4096 2164260864).bytes 16 8 + k) = none) ∧ (copyD 50 4096 2147487743).clean [(4, 23)] = true ∧ 0 < leAt (copyD 50 4096 2147487743).bytes 4 4 ∧ leAt (copyD 50 4096 2147487743).bytes 4 4 ≤ 2 ^ 30) ∧
    (leAt (copyD 50 4096 2147487743).bytes 16 8 + leAt (copyD 50 4096 2147487743).bytes 4 4 ≤ 2 ^ 35 ∧ (∀ (k : Nat), k < leAt (copyD 50 4096 2147487743).bytes 4 4 → mayWrite reqHST (leAt (copyD 50 4096 2147487743).bytes 16 8 + k) = true)) ∧
    hst20.settled = true ∧
    hst20.chip.holds (5 : Fin 256) (copyD 50 4096 2147487743) 2 ∧
    (copyW.settled = true ∧ HostRead.mk 9 5 8192 4 (ReadUse.copyStep 4) ∈ copyW.chip.hst.reads ∧ (∀ (z : HostRead), z ∈ copyW.chip.hst.reads → z.id = (HostRead.mk 9 5 8192 4 (ReadUse.copyStep 4)).id → z = HostRead.mk 9 5 8192 4 (ReadUse.copyStep 4)) ∧ (∀ (k : Nat), k < [(1 : Byte), (2 : Byte), (3 : Byte), (4 : Byte)].length → mayWrite reqHST (2164260864 + 4096 + k) = true ∧ copyW.chip.guardOf (2164260864 + 4096 + k) = none)) ∧
    copyW.chip.works (5 : Fin 256) (copyD 4100 4096 2164260864) (Work.copy 4096 2164260864 4100 4096) ∧
    ((HostRead.mk 9 5 8192 4 (ReadUse.copyStep 4)).ring = 5 ∧ (HostRead.mk 9 5 8192 4 (ReadUse.copyStep 4)).use = ReadUse.copyStep 4 ∧ [(1 : Byte), (2 : Byte), (3 : Byte), (4 : Byte)].length = (HostRead.mk 9 5 8192 4 (ReadUse.copyStep 4)).len ∧ [(1 : Byte), (2 : Byte), (3 : Byte), (4 : Byte)] ≠ [] ∧ 4100 ≤ 4096 + [(1 : Byte), (2 : Byte), (3 : Byte), (4 : Byte)].length) ∧
    (hst21.settled = true ∧ hst21.chip.writable (ownerReq (hst21.chip.ringOwner 5)) (leAt (regD 262148 31 0).bytes 8 4) (BitVec.ofNat 32 (leAt (regD 262148 31 0).bytes 12 4)) = true) ∧
    hst21.chip.holds (5 : Fin 256) (regD 262148 31 0) 32 ∧
    ((regD 262148 31 0).clean [(4, 5), (8, 15)] = true ∧ leAt (regD 262148 31 0).bytes 4 1 = 1 ∧ plainReg (leAt (regD 262148 31 0).bytes 8 4) = true ∧ rowOf (leAt (regD 262148 31 0).bytes 8 4) = some (row 262148) ∧ plainBlock (leAt (regD 262148 31 0).bytes 8 4) = true ∧ leAt (regD 262148 31 0).bytes 5 1 = 0 ∧ (regD 262148 31 15).clean [(4, 5), (8, 15)] = true ∧ leAt (regD 262148 31 15).bytes 4 1 = 1) ∧
    (plainReg (leAt (regD 262148 31 15).bytes 8 4) = true ∧ rowOf (leAt (regD 262148 31 15).bytes 8 4) = some (row 262148) ∧ plainBlock (leAt (regD 262148 31 15).bytes 8 4) = true ∧ 0 < leAt (regD 262148 31 15).bytes 5 1 ∧ leAt (regD 262148 31 15).bytes 5 1 ≤ 15 ∧ (regD 262148 31 16).clean [(4, 5), (8, 15)] = true ∧ leAt (regD 262148 31 16).bytes 4 1 = 1 ∧ 15 < leAt (regD 262148 31 16).bytes 5 1) ∧
    ((regD 8388608 31 0).clean [(4, 5), (8, 15)] = true ∧ leAt (regD 8388608 31 0).bytes 4 1 = 1 ∧ 8388608 ≤ leAt (regD 8388608 31 0).bytes 8 4 ∧ leAt (regD 8388608 31 0).bytes 5 1 = 0) ∧
    memberOf (row 262148).name = Member.single ∧
    (hst22.settled = true ∧ hst22.chip.writable (ownerReq (hst22.chip.ringOwner 5)) (leAt (regD 262148 31 15).bytes 8 4) (BitVec.ofNat 32 (leAt (regD 262148 31 15).bytes 12 4)) = true) ∧
    hst22.chip.holds (5 : Fin 256) (regD 262148 31 15) 32 ∧
    hst23.settled = true ∧
    hst23.chip.holds (5 : Fin 256) (regD 262148 31 16) 32 ∧
    hst24.settled = true ∧
    hst24.chip.holds (5 : Fin 256) (regD 8388608 31 0) 32 := by
  and_intros <;> first | exact silent_of (by decide +kernel) | exact range_of (by decide +kernel) | decide +kernel

theorem witness_DescriptorsReachHeadsAndAxes :
    (hst25.settled = true ∧ hst25.chip.lane[headLane (63 : Fin 64)].state = LaneState.active) ∧
    hst25.chip.holds (5 : Fin 256) (passD (63 : Byte) (0 : Byte) (4 : Byte)) 36 ∧
    ((passD (63 : Byte) (0 : Byte) (4 : Byte)).clean [(4, 5), (8, 24)] = true ∧ leAt (passD (63 : Byte) (0 : Byte) (4 : Byte)).bytes 4 1 = 63 ∧ leAt (passD (63 : Byte) (0 : Byte) (4 : Byte)).bytes 5 1 = 0 ∧ (passD (63 : Byte) (252 : Byte) (4 : Byte)).clean [(4, 5), (8, 24)] = true ∧ leAt (passD (63 : Byte) (252 : Byte) (4 : Byte)).bytes 4 1 = 63 ∧ 0 < leAt (passD (63 : Byte) (252 : Byte) (4 : Byte)).bytes 5 1 ∧ leAt (passD (63 : Byte) (252 : Byte) (4 : Byte)).bytes 5 1 ≤ 252) ∧
    (hst26.settled = true ∧ hst26.chip.lane[headLane (63 : Fin 64)].state ≠ LaneState.active) ∧
    hst26.chip.holds (5 : Fin 256) (passD (63 : Byte) (0 : Byte) (4 : Byte)) 36 ∧
    (hst27.settled = true) ∧
    hst27.chip.holds (5 : Fin 256) (passD (63 : Byte) (252 : Byte) (4 : Byte)) 36 ∧
    (passW.settled = true ∧ passW.chip.headOn 63 = true ∧ passW.chip.lane[headLane (63 : Fin 64)].state.hears = true ∧ passW.chip.lane[headLane (63 : Fin 64)].dup (2 : Fin 3) (BitVec.toNat (9 : BitVec 8)) = false) ∧
    passW.chip.works (5 : Fin 256) (passD (63 : Byte) (0 : Byte) (4 : Byte)) (Work.passReply 63 20480 4) ∧
    (hst28.settled = true ∧ hst28.chip.movesRefused = false ∧ hst28.chip.axis[(7 : Fin 8)].staged.length < 8) ∧
    hst28.chip.holds (5 : Fin 256) (mvD (3 : Byte)) 48 ∧
    (leAt (mvD (3 : Byte)).bytes 4 1 = 7 ∧ (mvD (3 : Byte)).clean [(4, 5), (8, 15)] = true ∧ leAt (mvD (3 : Byte)).bytes 5 1 ≤ 3 ∧ leAt (mvD (0 : Byte)).bytes 4 1 = 7 ∧ (mvD (0 : Byte)).clean [(4, 5), (8, 15)] = true ∧ leAt (mvD (0 : Byte)).bytes 5 1 ≤ 3) ∧
    (hst29.settled = true ∧ 8 ≤ hst29.chip.axis[(7 : Fin 8)].staged.length) ∧
    hst29.chip.holds (5 : Fin 256) (mvD (0 : Byte)) 48 ∧
    hst30.settled = true ∧
    hst30.chip.holds (5 : Fin 256) (axD (8 : Byte)) 49 ∧
    (leAt (axD (8 : Byte)).bytes 4 1 = 7 ∧ (axD (8 : Byte)).clean [(4, 5)] = true ∧ 1 ≤ leAt (axD (8 : Byte)).bytes 5 1 ∧ leAt (axD (8 : Byte)).bytes 5 1 ≤ 8) := by
  and_intros <;> first | exact silent_of (by decide +kernel) | exact range_of (by decide +kernel) | decide +kernel

/-- No other ring waits for a reply of the head. -/
theorem witness_DescriptorsReachHeadsAndAxes_reply : ∀ k : Fin 256, k ≠ 5 → ∀ x, (passW.chip.ring k).cur = some x →
    ∀ a b, x.work ≠ .passReply 63 a b := by
  have h : ∀ k : Fin 256, k ≠ 5 → (passW.chip.ring k).cur = none := by decide +kernel
  intro k hk x hx
  rw [h k hk] at hx
  cases hx

end Hst

/-! ### Witnesses: Net -/

namespace Net

def putF (l : List (Nat × List Byte)) (i : Nat) : Byte := (l.findSome? fun x => if x.1 ≤ i then x.2[i - x.1]? else none).getD 0
def bufD (op : Byte) (len a : Nat) : Desc := desc op (putF [(4, leBytes 4 len), (8, leBytes 8 a)])
def txD (len a id : Nat) (ts : Byte) : Desc := desc 0x50 (putF [(4, leBytes 2 len), (6, [ts]), (8, leBytes 2 id), (16, leBytes 8 a)])
def port3 (cfg : Nat) (c : Chip) : Chip :=
  ((c.wrn (Reg.NET_PORT_CFG 3) cfg).wrn (Reg.NET_PORT_CTRL 3) 1).onEth 3 fun x => { x with linkUp := true }
def ring3 (ty : Nat) (f : List Desc) (cur : Option Current) (g : Ring → Ring) (c : Chip) : Chip := (ringed (ty + 3 * 2 ^ 18) f cur c).onRing 5 g
def bufS (ty : Nat) (d : Desc) : State := chg (ring3 ty [d] none fun g => { g with wait := [(2, none)] })
/-- The ring with nothing begun. -/
def bare (s : State) : Chip := s.chip.onRing 5 fun g => { g with wait := [] }
def txS (up : Bool) : State := chg fun c => (ring3 6 [txD 64 0x9000 0x1234 1] none id (port3 0x05EE0002 c)).onEth 3 fun x => { x with linkUp := up }
def body0 : List Byte := List.replicate 6 0xFF ++ List.replicate 6 0 ++ [0x88, 0xF7, 0x00, 0x02] ++ List.replicate 44 0x33
def rxS (cfg : Nat) (len : Nat) : State := chg fun c => (ring3 7 [] none (fun g => { g with bufs := [⟨9, false, 0x40000, len⟩, ⟨11, false, 0x50000, 64⟩], wait := [(9, none), (11, none)] }) (port3 cfg c)).wrn (Reg.NET_TS_CORR 3) 0x00100008
def rxE (cfg : Nat) : State := chg (port3 cfg)
def tx0 (passed bad : Bool) : TxFrame := ⟨true, 0x1234, body0, bad, passed⟩
def sent (cfg n : Nat) (f : TxFrame) : State := chg fun c => ((ring3 6 [] (some ⟨txD 64 0x9000 0x1234 1, .netTx 3 true⟩) id (port3 cfg c)).onEth 3 fun x =>
  { x with tx := some f, txts := List.replicate n ⟨1, 5⟩ }).wrn (Reg.NET_TS_CORR 3) 0x0010FFF8
def dNop : Desc := desc 0 fun _ => 0
def t1s : State := rxS 0x05EE0042 60
def net1 : State := bufS 3 (bufD 0x40 0x1000 0x40000)
def net2 : State := bufS 7 (bufD 0x51 64 0x40000)
def net3 : State := bufS 7 (bufD 0x51 65535 0x40000)
def net4 : State := chg (ring3 3 [bufD 0x40 0x1000 0x40020] none id)
def net4r : State := chg (ring3 7 [bufD 0x51 64 0x40001] none id)
def net5 : State := bufS 7 (bufD 0x51 64 0x40001)
def net6 : State := txS true
def net7 : State := txS false
def net8 : State := rxE 0x05EE0042
def net9 : State := rxS 0x05EE0042 60
def net10 : State := rxS 0x05EE0002 64
def net11 : State := sent 0x05EE0042 0 (tx0 true false)
def net12 : State := sent 0x05EE0142 63 (tx0 false false)
def net13 : State := rxE 0x05EE0002
def net14 : State := chg fun c => (port3 5 c).onEth 3 fun x => { x with linkUp := false}
def net15 : State := sent 0x05EE0042 2 (tx0 true true)

def pauseBody : List Byte := [0x01, 0x80, 0xC2, 0, 0, 1] ++ List.replicate 6 0 ++ [0x88, 0x08, 0, 1, 0xFF, 0xFF] ++ List.replicate 42 0
def paused (s : State) : State := { s with chip := s.chip.onEth 3 fun x => { x with pauseTill := 10 ^ 9 } }
def fetching : State := chg fun c =>
  let c := ring3 6 [] (some ⟨txD 60 0x9000 0x1234 1, .netTx 3 false⟩) id (port3 0x05EE0142 c)
  { c with hst := { c.hst with reads := [⟨9, 5, 0x9000, 60, .frameData 60⟩] } }

theorem witness_FramesArePostedReceivedAndSent_more :
    (net13.settled = true ∧ (rxE 0x05EE000A).settled = true ∧ (rxE 0x05EE000A).chip.netCfg 3 3 = true ∧
      (rxE 0x05EE000A).chip.netOn 3 = true ∧ (rxE 0x05EE000A).chip.pauseOf 3 pauseBody = some 0xFFFF ∧
      net9.chip.netCfg 3 3 = false ∧ (rxE 0x05EE000A).chip.pauseOf 3 body0 = none ∧ pauseBody.length = 60 ∧
      pauseBody.length + 4 ≤ (rxE 0x05EE000A).chip.maxFrame 3) ∧
    net8.chip.maxFrame 3 < (List.replicate 1515 (0 : Byte)).length + 4 ∧
    (fetching.settled = true ∧ fetching.chip.netOn 3 = true ∧ fetching.chip.eth[(3 : Fin 4)].linkUp = true ∧
      fetching.chip.works 5 (txD 60 0x9000 0x1234 1) (.netTx 3 false) ∧
      (∀ z ∈ fetching.chip.hst.reads, z = ⟨9, 5, 0x9000, 60, .frameData 60⟩) ∧ body0.length = 60 ∧
      fetching.chip.eth[(3 : Fin 4)].pauseTill ≤ fetching.chip.ttu.up ∧ fetching.chip.eth[(3 : Fin 4)].txts.length < 64) ∧
    (fetching.chip.netCfg 3 8 = true ∧ ptpType body0 = some 0 ∧ ptpCarrier body0 = .ether 14 ∧ 14 + 44 ≤ body0.length) ∧
    ((paused net12).settled = true ∧ (paused net12).chip.works 5 (txD 64 36864 4660 1) (.netTx 3 true) ∧
      (paused net12).chip.txRing 3 = some (5, txD 64 36864 4660 1) ∧ (paused net12).chip.eth[(3 : Fin 4)].tx = some (tx0 false false) ∧
      ((paused net12).chip.wait 7).ttu.up < (paused net12).chip.eth[(3 : Fin 4)].pauseTill ∧
      net12.chip.eth[(3 : Fin 4)].pauseTill ≤ (net12.chip.wait 7).ttu.up ∧ net12.chip.eth[(3 : Fin 4)].linkUp = true) ∧
    (net15.chip.works 5 (txD 64 36864 4660 1) (.netTx 3 true) ∧ net15.chip.txRing 3 = some (5, txD 64 36864 4660 1) ∧
      net15.chip.eth[(3 : Fin 4)].tx = some (tx0 true true)) := by
  and_intros <;> first | exact silent_of (by decide +kernel) | decide +kernel

theorem witness_FramesArePostedReceivedAndSent :
    net1.settled = true ∧
    (bare net1).holds (5 : Fin 256) (bufD (64 : Byte) 4096 262144) 64 ∧
    ((bufD (64 : Byte) 4096 262144).clean [(4, 15)] = true ∧ leAt (bufD (64 : Byte) 4096 262144).bytes 8 8 % 64 = 0 ∧ (bufD (81 : Byte) 64 262144).clean [(4, 15)] = true ∧ leAt (bufD (81 : Byte) 64 262144).bytes 8 8 % 64 = 0 ∧ 64 ≤ leAt (bufD (81 : Byte) 64 262144).bytes 4 4 ∧ leAt (bufD (81 : Byte) 64 262144).bytes 4 4 ≤ 65535 ∧ (bufD (81 : Byte) 65535 262144).clean [(4, 15)] = true ∧ leAt (bufD (81 : Byte) 65535 262144).bytes 8 8 % 64 = 0) ∧
    (64 ≤ leAt (bufD (81 : Byte) 65535 262144).bytes 4 4 ∧ leAt (bufD (81 : Byte) 65535 262144).bytes 4 4 ≤ 65535 ∧ leAt (bufD (64 : Byte) 4096 262176).bytes 8 8 % 64 ≠ 0 ∧ leAt (bufD (81 : Byte) 64 262145).bytes 8 8 % 64 ≠ 0) ∧
    net2.settled = true ∧
    (bare net2).holds (5 : Fin 256) (bufD (81 : Byte) 64 262144) 81 ∧
    net3.settled = true ∧
    (bare net3).holds (5 : Fin 256) (bufD (81 : Byte) 65535 262144) 81 ∧
    (net4.settled = true ∧ (net5.chip.ring 5).wait = [(2, none)] ∧ net5.chip.ringType 5 = 7) ∧
    net4.chip.holds (5 : Fin 256) (bufD (64 : Byte) 4096 262176) 64 ∧
    net5.settled = true ∧
    (net4r.settled = true ∧ net4r.chip.holds 5 (bufD 0x51 64 0x40001) 0x51) ∧
    (bare net5).holds (5 : Fin 256) (bufD (81 : Byte) 64 262145) 81 ∧
    (net6.settled = true ∧ net6.chip.ringBind 5 = 3 ∧ net6.chip.txFieldsOk (txD 64 36864 4660 (1 : Byte)) (3 : Fin 4) false = true ∧ net6.chip.netOn (3 : Fin 4) = true ∧ net6.chip.eth[(3 : Fin 4)].linkUp = true) ∧
    net6.chip.holds (5 : Fin 256) (txD 64 36864 4660 (1 : Byte)) 80 ∧
    (net7.settled = true ∧ net7.chip.ringBind 5 = 3 ∧ net7.chip.txFieldsOk (txD 64 36864 4660 (1 : Byte)) (3 : Fin 4) false = true ∧ ¬(net7.chip.netOn (3 : Fin 4) = true ∧ net7.chip.eth[(3 : Fin 4)].linkUp = true)) ∧
    net7.chip.holds (5 : Fin 256) (txD 64 36864 4660 (1 : Byte)) 80 ∧
    (net8.settled = true ∧ net8.chip.netOn (3 : Fin 4) = true ∧ net8.chip.eth[(3 : Fin 4)].linkUp = true ∧ net8.chip.macAccepts (3 : Fin 4) (List.take 6 body0) = true ∧ net8.chip.netRing 7 (3 : Fin 4) = none ∧ net8.chip.eth[(3 : Fin 4)].tx = none) ∧
    (14 ≤ body0.length ∧ [(1 : Byte), (2 : Byte), (3 : Byte), (4 : Byte)] ≠ fcs body0 ∧ body0.length + 4 ≤ net8.chip.maxFrame (3 : Fin 4) ∧ body0.length + 4 ≤ net9.chip.maxFrame (3 : Fin 4) ∧ body0.length ≤ (Buffer.mk 9 false 262144 60).len ∧ body0.length + 4 ≤ net10.chip.maxFrame (3 : Fin 4) ∧ body0.length ≤ (Buffer.mk 9 false 262144 64).len) ∧
    ([(1 : Byte), (2 : Byte), (3 : Byte), (4 : Byte)].length = 4 ∧ (Buffer.mk 9 false 262144 60).irq = false ∧ (Buffer.mk 9 false 262144 64).irq = false) ∧
    (net9.settled = true ∧ net9.chip.netOn (3 : Fin 4) = true ∧ net9.chip.eth[(3 : Fin 4)].linkUp = true ∧ net9.chip.macAccepts (3 : Fin 4) (List.take 6 body0) = true ∧ net9.chip.netRing 7 (3 : Fin 4) = some (5 : Fin 256) ∧ (net9.chip.ring (5 : Fin 256)).bufs = [⟨9, false, 262144, 60⟩, ⟨11, false, 0x50000, 64⟩] ∧
      (net9.chip.ring 5).wait = [(9, none), (11, none)] ∧ (net9.chip.ring (5 : Fin 256)).fetched = []) ∧
    (bare net9).serves 5 ∧
    (net10.settled = true ∧ net10.chip.netOn (3 : Fin 4) = true ∧ net10.chip.eth[(3 : Fin 4)].linkUp = true ∧ net10.chip.macAccepts (3 : Fin 4) (List.take 6 body0) = true ∧ net10.chip.netRing 7 (3 : Fin 4) = some (5 : Fin 256) ∧ (net10.chip.ring (5 : Fin 256)).bufs = [⟨9, false, 262144, 64⟩, ⟨11, false, 0x50000, 64⟩] ∧
      (net10.chip.ring 5).wait = [(9, none), (11, none)] ∧ (net10.chip.ring (5 : Fin 256)).fetched = []) ∧
    (bare net10).serves 5 ∧
    (net11.settled = true ∧ net11.chip.txRing (3 : Fin 4) = some ((5 : Fin 256), txD 64 36864 4660 (1 : Byte)) ∧ net11.chip.eth[(3 : Fin 4)].tx = some (tx0 true false) ∧ net11.chip.eth[(3 : Fin 4)].txts.length < 64 ∧ net11.chip.eth[(3 : Fin 4)].linkUp = true) ∧
    net11.chip.works (5 : Fin 256) (txD 64 36864 4660 (1 : Byte)) (Work.netTx 3 true) ∧
    (net12.settled = true ∧ net12.chip.txRing (3 : Fin 4) = some ((5 : Fin 256), txD 64 36864 4660 (1 : Byte)) ∧ net12.chip.eth[(3 : Fin 4)].tx = some (tx0 false false) ∧ net12.chip.eth[(3 : Fin 4)].txts.length < 64) ∧
    net12.chip.works (5 : Fin 256) (txD 64 36864 4660 (1 : Byte)) (Work.netTx 3 true) ∧
    (run.settled = true ∧ run.chip.eth[(3 : Fin 4)].tx = none) ∧
    (net13.settled = true ∧ net13.chip.netOn (3 : Fin 4) = true ∧ net13.chip.fld (Reg.NET_PORT_CFG 3) 1 0 ≠ 0) ∧
    (net14.settled = true ∧ net14.chip.netOn (3 : Fin 4) = true ∧ net14.chip.fld (Reg.NET_PORT_CFG 3) 1 0 ≠ 0) ∧
    (net15.settled = true ∧ net15.chip.writable Requester.host (Reg.NET_TXTS_POP 3) (1 : Word) = true) := by
  and_intros <;> first | exact silent_of (by decide +kernel) | exact range_of (by decide +kernel) | decide +kernel

end Net

/-! ### Witnesses: Svc -/

namespace Svc

def keyHash : List Byte := [42,126,226,162,96,246,171,186,213,236,96,180,19,9,160,162,217,67,191,32,9,41,182,74,3,35,252,191,159,87,143,19,174,145,223,129,140,30,191,164,10,47,158,133,249,225,238,237]
def bootS (bt : BootState) (srcs : List BootState) (nor : Memory) : State :=
  let s := chg fun c => c.onSvc fun x => { x with boot := bt, sources := srcs }
  { s with mem := { s.mem with nor := nor }, fuses := { s.fuses with keys := s.fuses.keys.set 2 (some keyHash), minVer := 6 } }
def svS (f : Svc → Svc) : State := chg fun c => c.onSvc f
def resS (f : Svc → Svc) : State := chg fun c => ((((c.wr Reg.TTU_LCL_INC_LO 0x55).wr (Reg.TTU_DOM_ADJ 0) 7).wr (Reg.MPC_EMREL_CTRL) 1).onTtu fun x => { x with lcl := 1234567, index := 5 }).onAxis 3 (fun x => { x with s := 9, doing := .moves, state := .moving }) |>.onSvc f |>.wr (Reg.HVI_AX_FLAGS 2) 0x5
def blkV (k : Nat) (b : Bool) : State := chg fun c =>
  let c := (((c.wr (Reg.PMC_CNT_CFG 3 2) 7).wr (Reg.CAM_EXP_NS 1) 5).wr (Reg.LNK_CFG 9) 3).wr (Reg.NET_MAC_LO 2) 9
  if b then c else match k with
  | 0 => c.onAxis 7 fun x => { x with state := .moving } | 1 | 2 | 3 | 6 => laying id c | 4 => c.onCam 7 fun x => { x with state := .idle } | 5 => c.onLane 63 fun x => { x with state := .active }
  | 7 => c.wr (Reg.NET_PORT_CTRL 3) 1 | 8 => c.onDsp 1 fun x => { x with state := .run } | 10 => c.onPort 7 fun x => { x with state := .run } | _ => c
def pairS (r : BitVec 4) (m : BitVec 4) (f : Svc → Svc) : State := svS fun x => f { x with running := r, masked := m }
def norA (a : Nat) (f : Svc → Svc) : State := chg fun c => ((c.wrn Reg.SVC_NOR_ADDR a).wrn Reg.SVC_NOR_BUF_LO 0x40000000).onSvc f
def svc1 : State := resS fun x => { x with resetReq := true, running := 15, locks := 5 }
def svc2 : State := resS fun x => { x with pfail := true, running := 15, locks := 5 }
def svc3 : State := resS fun x => { x with held := true, running := 15, locks := 5 }
def svc4 : State := resS id
def svc5 : State := chg fun c => laying id c
def svc27 : State := bootS .dramInit [.bootB, .bootA] []
def svc28 : State := bootS .bootMbox [] []
def svc29 : State := svS fun x => { x with runKey := some 1, runVer := 8}
def svc30 : State := svS fun x => { x with runKey := some 2, runVer := 8}
def svc31 : State := { bootS .fwRun [] [] with chip := { Chip.reset with svc := {Svc.reset with boot := .fwRun}} }
def svc32 : State := svS fun x => { x with otp := some (.minVer 9) }
def svc33 : State := svS fun x => { x with otp := some (.revoke 3) }
def svc34 : State := svS fun x => { x with otp := some (.program 3 keyHash) }
def svc35 : State := svS fun x => { x with locks := 2 }
def svc36 : State := pairS 9 0 id
def svc37 : State := pairS 9 8 id
def svc38 : State := pairS 1 8 id
def svc39 : State := pairS 9 0 fun x => { x with h2fFull := true, f2hFull := true }
def svc40 : State := chg fun c => { c with hst := { c.hst with msix := c.hst.msix.set 63 ⟨0, 0, 0, 1⟩ } }
def svc41 : State := norA 0 fun x => { x with source := 2 }
def svc42 : State := norA 0x37F0000 fun x => { x with source := 2 }
def svc43 : State := norA 0x3800000 fun x => { x with source := 2 }
def svc44 : State := norA 0x1800000 fun x => { x with source := 2 }
def svc45 : State := norA 0x37FFF00 fun x => { x with source := 1 }
def svc46 : State := norA 0x1 fun x => { x with source := 1 }
def svc47 : State := { norA 0x1 fun x => { x with nor := some (.program 0x10000 (List.replicate 256 3)) } with mem := { run.mem with nor := [(0xFFFF,1),(0x10000,2),(0x20000,4)] }}

def span0 : PowerSpan := ⟨true, true, true, true, 10000⟩
def spanOff : PowerSpan := { span0 with vaux := false }

theorem witness_ResetsFollowTheirDomains :
    (svc1.settled = true ∧ svc1.chip.svc.resetReq = true) ∧
    (svc2.settled = true ∧ svc2.chip.svc.pfail = true) ∧
    (svc3.settled = true ∧ svc3.chip.svc.held = true) ∧
    (svc4.settled = true ∧ svc4.chip.svc.pfail = false ∧ svc4.chip.scn.armed = none) ∧
    (svc5.settled = true ∧ svc5.chip.svc.pfail = false ∧ svc5.chip.scn.armed = none) ∧
    (run.settled = true ∧ run.chip.writable Requester.host Reg.SVC_RST_CTRL (1 : Word) = true) ∧
    (∀ x ∈ [(0, false), (0, true), (1, false), (2, false), (2, true), (3, false), (4, false), (4, true), (5, false), (5, true),
        (6, false), (6, true), (7, false), (7, true), (8, false), (8, true), (9, true), (10, false), (10, true), (11, true), (12, true)],
      (blkV x.1 x.2).settled = true ∧ (blkV x.1 x.2).chip.resettable x.1 = x.2 ∧
        (blkV x.1 x.2).chip.writable .host Reg.SVC_BLK_RST (BitVec.ofNat 32 (2 ^ x.1)) = true) ∧
    ((∀ x ∈ [span0], x.vaux = true) ∧ (∃ x ∈ [span0, spanOff], x.vaux = false) ∧ powerGood span0 = true ∧
      powerGood spanOff = false ∧ 10000 ≤ goodFor [spanOff, span0] ∧ goodFor [span0, spanOff] < 10000) := by
  and_intros <;> first | exact silent_of (by decide +kernel) | exact range_of (by decide +kernel) | decide +kernel

theorem witness_ImagesBootAndFusesBurn :
    (State.reset.settled = true ∧ State.reset.chip.svc.boot = BootState.dramInit) ∧
    (svc27.settled = true ∧ svc27.chip.svc.boot = BootState.dramInit ∧ svc27.chip.svc.held = false ∧
      svc3.settled = true ∧ svc3.chip.svc.held = true) ∧
    ((bootS .bootA [.bootMbox] []).settled = true ∧ (bootS .bootA [.bootMbox] []).chip.svc.boot = .bootA ∧
      (∀ i : Fin 16, ((bootS .bootA [.bootMbox] []).chip.hst.leases[i]).guards = false)) ∧
    (svc28.settled = true ∧ svc28.chip.writable Requester.host Reg.SVC_BOOT_MBOX ((4 : Word) ||| (2147483648 : Word)) = true ∧ svc28.chip.svc.boot = BootState.bootMbox ∧ svc28.chip.svc.mboxGo = none ∧ svc28.chip.svc.bootsel ≠ 4) ∧
    (svc29.settled = true ∧ svc29.chip.writable Requester.jtag Reg.SVC_OTP_CMD (259653633 : Word) = true ∧ svc29.chip.writable Requester.jtag Reg.SVC_OTP_CMD ((259653634 : Word) + BitVec.ofNat 32 (16 * 2)) = true ∧ svc29.chip.writable Requester.jtag Reg.SVC_OTP_CMD ((259653635 : Word) + BitVec.ofNat 32 (16 * 2)) = true) ∧
    (svc30.settled = true ∧ svc30.chip.writable (Requester.pair (3 : Fin 4)) Reg.SVC_OTP_CMD (259653633 : Word) = true ∧ svc30.chip.writable (Requester.pair (3 : Fin 4)) Reg.SVC_OTP_CMD ((259653634 : Word) + BitVec.ofNat 32 (16 * 2)) = true) ∧
    (svc31.settled = true ∧ svc31.chip.writable Requester.jtag Reg.SVC_OTP_CMD (259653633 : Word) = true ∧ svc31.chip.writable Requester.jtag Reg.SVC_OTP_CMD ((259653634 : Word) + BitVec.ofNat 32 (16 * 2)) = true) ∧
    (svc32.settled = true ∧ svc32.chip.svc.otp = some (OtpOp.minVer 9)) ∧
    (svc33.settled = true ∧ svc33.chip.svc.otp = some (OtpOp.revoke (3 : Fin 4))) ∧
    (svc34.settled = true ∧ svc34.chip.svc.otp = some (OtpOp.program (3 : Fin 4) keyHash)) ∧
    (svc35.settled = true ∧ svc35.chip.writable Requester.jtag Reg.SVC_LOCK (65 : Word) = true) := by
  and_intros <;> first | exact silent_of (by decide +kernel) | exact range_of (by decide +kernel) | decide +kernel

theorem witness_PairsMailboxAndNorAnswer :
    (svc36.settled = true ∧ svc36.chip.svc.running.getLsbD 3 = true ∧ svc36.chip.writable Requester.jtag Reg.SVC_MBOX_CTRL ((50331648 : Word) ||| (1 : Word)) = true ∧ svc36.chip.svc.h2fFull = false ∧ svc36.chip.writable Requester.jtag Reg.SVC_MBOX_CTRL ((50331648 : Word) ||| (64 : Word)) = true) ∧
    (svc37.settled = true ∧ svc37.chip.writable Requester.host Reg.SVC_PAIR_CTRL (BitVec.ofNat 32 (2 ^ 3)) = true ∧ svc37.chip.svc.running.getLsbD 3 = true ∧ svc37.chip.writable Requester.host Reg.SVC_PAIR_CTRL (BitVec.ofNat 32 (2 ^ (8 + 3))) = true ∧ svc37.chip.writable Requester.host Reg.SVC_MBOX_CTRL ((50331648 : Word) ||| (1 : Word)) = true ∧ svc37.chip.svc.h2fFull = false ∧ svc37.chip.writable Requester.host Reg.SVC_MBOX_CTRL ((50331648 : Word) ||| (64 : Word)) = true) ∧
    (svc38.settled = true ∧ svc38.chip.writable Requester.host Reg.SVC_PAIR_CTRL (BitVec.ofNat 32 (2 ^ 3)) = true ∧ svc38.chip.svc.running.getLsbD 3 = false) ∧
    ((∀ (k : Fin 4), Requester.host ≠ Requester.pair k) ∧ (∀ (k : Fin 4), Requester.jtag ≠ Requester.pair k) ∧ (∃ k, Requester.pair (2 : Fin 4) = Requester.pair k)) ∧
    (svc39.settled = true ∧ svc39.chip.writable Requester.jtag Reg.SVC_MBOX_CTRL ((50331648 : Word) ||| (1 : Word)) = true ∧ svc39.chip.svc.h2fFull = true ∧ svc39.chip.writable Requester.jtag Reg.SVC_MBOX_CTRL ((50331648 : Word) ||| (64 : Word)) = true ∧ svc39.chip.writable (Requester.pair (2 : Fin 4)) Reg.SVC_MBOX_CTRL ((4128768 : Word) ||| (16 : Word)) = true ∧ svc39.chip.svc.f2hFull = true ∧ svc39.chip.writable (Requester.pair (2 : Fin 4)) Reg.SVC_MBOX_CTRL ((4128768 : Word) ||| (4 : Word)) = true) ∧
    (svc40.settled = true ∧ svc40.chip.writable (Requester.pair (2 : Fin 4)) Reg.SVC_MBOX_CTRL ((4128768 : Word) ||| (16 : Word)) = true ∧ svc40.chip.svc.f2hFull = false ∧ svc40.chip.writable (Requester.pair (2 : Fin 4)) Reg.SVC_MBOX_CTRL ((4128768 : Word) ||| (4 : Word)) = true) ∧
    (svc41.settled = true ∧ svc41.chip.writable (Requester.pair (2 : Fin 4)) Reg.SVC_NOR_CTRL (1 : Word) = true ∧ svc41.chip.fld Reg.SVC_NOR_ADDR 25 0 % 65536 = 0 ∧ svc41.chip.fld Reg.SVC_NOR_ADDR 25 0 < 58720256 ∧ svc41.chip.runningSlot (svc41.chip.fld Reg.SVC_NOR_ADDR 25 0) = false ∧ svc41.chip.writable (Requester.pair (2 : Fin 4)) Reg.SVC_NOR_CTRL (2 : Word) = true ∧ svc41.chip.fld Reg.SVC_NOR_ADDR 25 0 % 256 = 0 ∧ (∀ (i : Nat), i < 256 → mayRead (reqPair 2) (svc41.chip.rdPair Reg.SVC_NOR_BUF_LO + i) = true)) ∧
    (svc42.settled = true ∧ svc42.chip.writable (Requester.pair (2 : Fin 4)) Reg.SVC_NOR_CTRL (1 : Word) = true ∧ svc42.chip.fld Reg.SVC_NOR_ADDR 25 0 % 65536 = 0 ∧ svc42.chip.fld Reg.SVC_NOR_ADDR 25 0 < 58720256 ∧ svc42.chip.runningSlot (svc42.chip.fld Reg.SVC_NOR_ADDR 25 0) = false ∧ svc42.chip.writable (Requester.pair (2 : Fin 4)) Reg.SVC_NOR_CTRL (2 : Word) = true ∧ svc42.chip.fld Reg.SVC_NOR_ADDR 25 0 % 256 = 0 ∧ (∀ (i : Nat), i < 256 → mayRead (reqPair 2) (svc42.chip.rdPair Reg.SVC_NOR_BUF_LO + i) = true)) ∧
    (svc43.settled = true ∧ svc43.chip.writable (Requester.pair (2 : Fin 4)) Reg.SVC_NOR_CTRL (1 : Word) = true ∧ (svc43.chip.fld Reg.SVC_NOR_ADDR 25 0 % 65536 ≠ 0 ∨ 58720256 ≤ svc43.chip.fld Reg.SVC_NOR_ADDR 25 0 ∨ svc43.chip.runningSlot (svc43.chip.fld Reg.SVC_NOR_ADDR 25 0) = true) ∧ svc43.chip.writable (Requester.pair (2 : Fin 4)) Reg.SVC_NOR_CTRL (2 : Word) = true ∧ (svc43.chip.fld Reg.SVC_NOR_ADDR 25 0 % 256 ≠ 0 ∨ 58720256 ≤ svc43.chip.fld Reg.SVC_NOR_ADDR 25 0)) ∧
    (svc44.settled = true ∧ svc44.chip.writable (Requester.pair (2 : Fin 4)) Reg.SVC_NOR_CTRL (1 : Word) = true ∧ (svc44.chip.fld Reg.SVC_NOR_ADDR 25 0 % 65536 ≠ 0 ∨ 58720256 ≤ svc44.chip.fld Reg.SVC_NOR_ADDR 25 0 ∨ svc44.chip.runningSlot (svc44.chip.fld Reg.SVC_NOR_ADDR 25 0) = true) ∧ svc44.chip.writable (Requester.pair (2 : Fin 4)) Reg.SVC_NOR_CTRL (2 : Word) = true ∧ svc44.chip.fld Reg.SVC_NOR_ADDR 25 0 % 256 = 0 ∧ svc44.chip.fld Reg.SVC_NOR_ADDR 25 0 < 58720256 ∧ (∀ (i : Nat), i < 256 → mayRead (reqPair 2) (svc44.chip.rdPair Reg.SVC_NOR_BUF_LO + i) = true)) ∧
    (svc45.settled = true ∧ svc45.chip.writable Requester.jtag Reg.SVC_NOR_CTRL (1 : Word) = true ∧ (svc45.chip.fld Reg.SVC_NOR_ADDR 25 0 % 65536 ≠ 0 ∨ 58720256 ≤ svc45.chip.fld Reg.SVC_NOR_ADDR 25 0 ∨ svc45.chip.runningSlot (svc45.chip.fld Reg.SVC_NOR_ADDR 25 0) = true) ∧ svc45.chip.writable Requester.jtag Reg.SVC_NOR_CTRL (2 : Word) = true ∧ svc45.chip.fld Reg.SVC_NOR_ADDR 25 0 % 256 = 0 ∧ svc45.chip.fld Reg.SVC_NOR_ADDR 25 0 < 58720256 ∧ (∀ (i : Nat), i < 256 → mayRead (reqPair 0) (svc45.chip.rdPair Reg.SVC_NOR_BUF_LO + i) = true)) ∧
    (svc46.settled = true ∧ svc46.chip.writable Requester.jtag Reg.SVC_NOR_CTRL (1 : Word) = true ∧ (svc46.chip.fld Reg.SVC_NOR_ADDR 25 0 % 65536 ≠ 0 ∨ 58720256 ≤ svc46.chip.fld Reg.SVC_NOR_ADDR 25 0 ∨ svc46.chip.runningSlot (svc46.chip.fld Reg.SVC_NOR_ADDR 25 0) = true) ∧ svc46.chip.writable Requester.jtag Reg.SVC_NOR_CTRL (2 : Word) = true ∧ (svc46.chip.fld Reg.SVC_NOR_ADDR 25 0 % 256 ≠ 0 ∨ 58720256 ≤ svc46.chip.fld Reg.SVC_NOR_ADDR 25 0)) ∧
    (svc47.settled = true ∧ svc47.chip.svc.nor = some (NorOp.program 65536 (List.replicate 256 (3 : Byte)))) := by
  and_intros <;> first | exact silent_of (by decide +kernel) | exact range_of (by decide +kernel) | decide +kernel

end Svc

/-! ### Witnesses: Dsp -/

namespace Dsp

def dspS (f : Dsp → Dsp) (g : Chip → Chip) : State := chg fun c => g ((c.wrn (Reg.DSP_DPCD 1 0) 0x00041412).onDsp 1 f)
def crcG (c : Chip) : Chip :=
  { c with acts := [] }.wr (Reg.DSP_BG 1) 0x123456
def actG (exp : Nat) (c : Chip) : Chip :=
  { c with acts := [(Reg.DSP_BG 1, 0x123456), (Reg.DSP_CRC_POS 1 3, 0x00020003), (Reg.DSP_CRC_SIZE 1 3, 0x00020004), (Reg.DSP_CRC_EXP 1 3, BitVec.ofNat 32 exp), (Reg.DSP_CRC_CFG 1, 0x12D), (Reg.DSP_CRC_SIZE 1 0, 0x10001),(Reg.DSP_CRC_SIZE 1 2, 0x10001)] }
def dpcd0 : List Byte := (List.range 16).map fun i => if i = 7 then 0x41 else BitVec.ofNat 8 (i+1)
def edid0 (k : Byte) : List Byte := (List.range 512).map fun i => if i = 126 then k else BitVec.ofNat 8 (i * 5)
def dsp1 : State := dspS id id
def dsp2 : State := dspS (fun x => { x with state := .run, video := true }) id
def dsp3 : State := dspS (fun x => { x with state := .linkFail, cause := 2 }) id
def dsp4 : State := dspS (fun x => { x with state := .detect }) id
def dsp5 : State := dspS (fun x => { x with state := .detect, video := true }) id
def dsp6 : State := dspS (fun x => { x with state := .train, video := true, blank := true }) id
def dsp7 : State := dspS (fun x => { x with state := .ready }) crcG
def dsp8 : State := dspS (fun x => { x with state := .off }) (fun c => c.wrn (Reg.DSP_PCLK 1) 24999)
def dsp9 : State := dspS (fun x => { x with state := .run }) crcG
def dsp10 : State := dspS (fun x => { x with state := .train, video := true, byCommit := true }) crcG
def dsp11 : State := dspS (fun x => { x with state := .run, video := true, blank := true, pend := true }) crcG
def dsp12 : State := dspS (fun x => { x with state := .run, video := true, blank := true, pend := true }) (fun c => c.wrn (Reg.DSP_PCLK 1) 24999)
def dsp13 : State := dspS (fun x => { x with state := .run, video := true }) (actG 5)

/-- DPCD 0x00202 to 0x00204 of a sink with every lane in lock, with a lane out of lock, and out of alignment. -/
def lanes (x y z : Byte) : Vector Byte 3 := #v[x, y, z]
def inLock (c : Chip) (st : Vector Byte 3) : Bool :=
  ((List.range (dspSet c.actn 1).laneCount).all fun i =>
    bitsOf (st[0].toNat + 2 ^ 8 * st[1].toNat) (4 * i + 2) (4 * i) == 7) && st[2].getLsbD 0
def dspPorch : State := dspS (fun x => { x with state := .run, porch := 500 }) (fun c => (crcG c).onTtu fun x => { x with up := 499 })
def dspPend : State := dspS (fun x => { x with state := .run, pend := true }) crcG
def dspGone : State := dspS (fun x => { x with state := .linkFail, unplugged := true }) id

/-- A static output under low refresh at 30 Hz from its fourth static frame on. -/
def dspLow : State := dspS (fun x => { x with state := .run, video := true, blank := true, idle := 3 }) fun c =>
  { c with acts := [(Reg.DSP_LR 1, 0x1E0401)] }.wr (Reg.DSP_SINK 1) 1

theorem witness_OutputsFollowTheirStates_more :
    (dspLow.settled = true ∧ dspLow.chip.lrOn 1 = true ∧ dspLow.chip.dsp[(1 : Fin 2)].pend = false ∧
      (dspSet dspLow.chip.actn 1).vtotal < (dspSet dspLow.chip.actn 1).vtotalLr ∧
      (dspSet dspLow.chip.actn 1).static ≤ dspLow.chip.dsp[(1 : Fin 2)].idle + 1) ∧
    (inLock dsp2.chip (lanes 0x77 0x77 1) = true ∧ inLock dsp2.chip (lanes 0x77 0x37 1) = false ∧
      inLock dsp2.chip (lanes 0x77 0x77 0) = false) ∧
    (dspPorch.settled = true ∧ dspPorch.chip.writable .host (Reg.DSP_COMMIT 1) 1 = true ∧ dspPorch.chip.dspValid 1 = true ∧
      dspPorch.chip.dsp[(1 : Fin 2)].state = .run ∧ dspPorch.chip.dsp[(1 : Fin 2)].pend = false ∧
      dspPorch.chip.ttu.up < dspPorch.chip.dsp[(1 : Fin 2)].porch) ∧
    (dspPend.settled = true ∧ dspPend.chip.writable .host (Reg.DSP_COMMIT 1) 1 = true ∧ dspPend.chip.dsp[(1 : Fin 2)].pend = true ∧
      dspPend.chip.dsp[(1 : Fin 2)].state = .run ∧ dspPend.chip.dsp[(1 : Fin 2)].porch ≤ dspPend.chip.ttu.up) ∧
    (dspGone.settled = true ∧ dspGone.chip.dsp[(1 : Fin 2)].state = .linkFail ∧ dspGone.chip.dsp[(1 : Fin 2)].unplugged = true) ∧
    (dsp11.chip.dspValid 1 = true ∧ dsp12.chip.dspValid 1 = false ∧ dsp11.chip.dsp[(1 : Fin 2)].pend = true ∧
      dsp12.chip.dsp[(1 : Fin 2)].pend = true) := by
  and_intros <;> decide +kernel

theorem witness_OutputsFollowTheirStates :
    (dsp1.settled = true ∧ dsp1.chip.writable Requester.host (Reg.DSP_CTRL 1) (1 : Word) = true ∧ dsp1.chip.dsp[(1 : Fin 2)].state = DspState.off) ∧
    (BitVec.getLsbD (1 : Word) 0 = true ∧ BitVec.getLsbD (0 : Word) 0 = false) ∧
    (dsp2.settled = true ∧ dsp2.chip.writable Requester.host (Reg.DSP_CTRL 1) (0 : Word) = true ∧ dsp2.chip.dsp[(1 : Fin 2)].state = DspState.run ∧ dsp2.chip.dsp[(1 : Fin 2)].blank = false ∧ dsp2.chip.dsp[(1 : Fin 2)].state ≠ DspState.off ∧ dsp2.chip.dsp[(1 : Fin 2)].state ≠ DspState.linkFail) ∧
    (dsp3.settled = true ∧ dsp3.chip.writable Requester.host (Reg.DSP_CTRL 1) ((1 : Word) ||| (2 : Word)) = true ∧ dsp3.chip.dsp[(1 : Fin 2)].state = DspState.linkFail) ∧
    (dsp4.settled = true ∧ dsp4.chip.dsp[(1 : Fin 2)].state = DspState.detect) ∧
    (dsp5.settled = true ∧ dsp5.chip.dsp[(1 : Fin 2)].state ≠ DspState.off ∧ dsp5.chip.dsp[(1 : Fin 2)].state ≠ DspState.linkFail) ∧
    (dsp6.settled = true ∧ dsp6.chip.dsp[(1 : Fin 2)].state = DspState.train) ∧
    (dsp7.settled = true ∧ dsp7.chip.writable Requester.host (Reg.DSP_COMMIT 1) (1 : Word) = true ∧ dsp7.chip.dsp[(1 : Fin 2)].pend = false ∧ dsp7.chip.dsp[(1 : Fin 2)].state ≠ DspState.run ∧ dsp7.chip.dspValid (1 : Fin 2) = true) ∧
    (dsp8.settled = true ∧ dsp8.chip.writable Requester.host (Reg.DSP_COMMIT 1) (1 : Word) = true ∧ dsp8.chip.dsp[(1 : Fin 2)].pend = false ∧ dsp8.chip.dsp[(1 : Fin 2)].state ≠ DspState.run ∧ dsp8.chip.dspValid (1 : Fin 2) = false) ∧
    (dsp9.settled = true ∧ dsp9.chip.writable Requester.host (Reg.DSP_COMMIT 1) (1 : Word) = true ∧ dsp9.chip.dsp[(1 : Fin 2)].pend = false ∧ dsp9.chip.dsp[(1 : Fin 2)].state = DspState.run ∧ dsp9.chip.dsp[(1 : Fin 2)].porch ≤ dsp9.chip.ttu.up) ∧
    (dsp10.settled = true ∧ dsp10.chip.dsp[(1 : Fin 2)].video = true ∧ dsp10.chip.dsp[(1 : Fin 2)].state = DspState.train ∧ dsp10.chip.dsp[(1 : Fin 2)].byCommit = true) ∧
    (dsp11.settled = true ∧ dsp11.chip.dsp[(1 : Fin 2)].video = true ∧ dsp11.chip.dsp[(1 : Fin 2)].state = DspState.run ∧ dsp11.chip.dsp[(1 : Fin 2)].blank = true) ∧
    (dsp12.settled = true ∧ dsp12.chip.dsp[(1 : Fin 2)].video = true ∧ dsp12.chip.dsp[(1 : Fin 2)].state = DspState.run ∧ dsp12.chip.dsp[(1 : Fin 2)].blank = true) ∧
    (dsp13.settled = true ∧ dsp13.chip.dsp[(1 : Fin 2)].video = true ∧ dsp13.chip.dsp[(1 : Fin 2)].state = DspState.run ∧ dsp13.chip.dsp[(1 : Fin 2)].blank = false ∧ dsp13.chip.dsp[(1 : Fin 2)].pend = false ∧ dsp13.chip.dsp[(1 : Fin 2)].under = [] ∧ (∀ (p : Nat), p < 2 → (dspPlane dsp13.chip.actn 1 p).en = false)) := by
  and_intros <;> first | exact silent_of (by decide +kernel) | exact range_of (by decide +kernel) | decide +kernel

theorem witness_SinkDetectionReadsTheSink :
    (dsp4.settled = true ∧ dsp4.chip.dsp[(1 : Fin 2)].state = DspState.detect) := by
  decide +kernel

end Dsp

end Sys2Proof.Tests
end

section
/-! PROOF. Register accesses (R11 to R14): what a store of a register changes, the rows of the register map, and reads
that clear. -/

namespace Sys2Proof.Machine

/-! ### Commands that raise no event -/

/-- Nothing is under way in the module: no store, no error of a read, no event. -/
structure Chip.Quiet (c : Chip) : Prop where
  outbox : c.outbox = []
  derr : c.derr = []
  intake : c.evr.intake = []
  lostPend : c.evr.lostPend = 0

theorem State.settled_iff {s : State} : s.settled = true ↔ s.chip.Quiet := by
  constructor
  · intro h
    simp only [State.settled, Bool.and_eq_true, List.isEmpty_iff, beq_iff_eq] at h
    obtain ⟨⟨⟨ho, hd⟩, hi⟩, hl⟩ := h
    exact ⟨ho, hd, hi, hl⟩
  · rintro ⟨ho, hd, hi, hl⟩
    simp [State.settled, ho, hd, hi, hl]

namespace Chip.Quiet

variable {c d : Chip}

/-- Being quiet depends on the stores, the read errors and the recorder alone. -/
theorem congr (h : c.Quiet) (ho : d.outbox = c.outbox) (hd : d.derr = c.derr) (he : d.evr = c.evr) : d.Quiet :=
  ⟨ho.trans h.outbox, hd.trans h.derr, by rw [he]; exact h.intake, by rw [he]; exact h.lostPend⟩

theorem seenBy (h : c.Quiet) (q : Requester) : (c.seenBy q).Quiet :=
  h.congr (c.seenBy_outbox q) (c.seenBy_derr q) (c.seenBy_evr q)

theorem wr (h : c.Quiet) (a : Nat) (v : Word) : (c.wr a v).Quiet := h.congr rfl rfl rfl

end Chip.Quiet

/-- An effect that leaves the module quiet changes nothing but the module. -/
theorem State.act_of_quiet {s : State} {f : Env → Chip → Chip} {d : Chip} (hf : f s.env s.chip = d) (h : d.Quiet) :
    s.act f = { s with chip := d } :=
  State.act_plain hf h.intake h.lostPend h.outbox h.derr

/-- Such a command's next state is the old one with the new module. -/
theorem Runs.of_quiet {i : Instr} {s : State} {f : Env → Chip → Chip} {d : Chip} {p : State → Prop}
    (hx : exec i s = .next (s.act f)) (hf : f s.env s.chip = d) (hd : d.Quiet) (hp : p { s with chip := d }) :
    Runs i s p :=
  ⟨_, hx.trans (congrArg _ (State.act_of_quiet hf hd)), hp⟩

/-! ### What a store of a register changes (R11) -/

namespace Chip

variable (c : Chip)

/-- A store changes the register file and, of a level 1 loop, the active copies. -/
theorem store_frame (r : RegRow) (a : Nat) (v : Word) : { c.store r a v with regs := c.regs, acts := c.acts } = c := by
  unfold store
  dsimp only
  split <;> rfl

@[simp] theorem store_outbox (r : RegRow) (a : Nat) (v : Word) : (c.store r a v).outbox = c.outbox := by
  have := congrArg Chip.outbox (c.store_frame r a v); exact this
@[simp] theorem store_derr (r : RegRow) (a : Nat) (v : Word) : (c.store r a v).derr = c.derr := by
  have := congrArg Chip.derr (c.store_frame r a v); exact this
@[simp] theorem store_evr (r : RegRow) (a : Nat) (v : Word) : (c.store r a v).evr = c.evr := by
  have := congrArg Chip.evr (c.store_frame r a v); exact this
@[simp] theorem store_staged (r : RegRow) (a : Nat) (v : Word) : (c.store r a v).staged = c.staged := by
  have := congrArg Chip.staged (c.store_frame r a v); exact this

/-- The register file after a store holds what the access codes leave of the value written. -/
theorem store_regs (r : RegRow) (a : Nat) (v : Word) : (c.store r a v).regs = (c.wr a (r.written (c.rd a) v)).regs := by
  unfold store
  dsimp only
  split <;> rfl

@[simp] theorem rd_store_self (r : RegRow) (a : Nat) (v : Word) : (c.store r a v).rd a = r.written (c.rd a) v := by
  rw [rd_congr (c.store_regs r a v), rd_wr_self]

theorem rd_store_ne {a b : Nat} (h : b ≠ a) (r : RegRow) (v : Word) : (c.store r a v).rd b = c.rd b := by
  rw [rd_congr (c.store_regs r a v), rd_wr_ne c h]

/-- Outside the loops of MPC a store is a plain register write. -/
theorem store_eq_wr {a : Nat} (h : blockOf a ≠ blkMPC) (r : RegRow) (v : Word) :
    c.store r a v = c.wr a (r.written (c.rd a) v) := by
  have hb : (blockOf a == blkMPC) = false := by simpa using h
  simp only [store, hb, Bool.and_false, Bool.false_and, Bool.false_eq_true, if_false]
  rfl

theorem Quiet.store {c : Chip} (h : c.Quiet) (r : RegRow) (a : Nat) (v : Word) : (c.store r a v).Quiet :=
  h.congr (c.store_outbox r a v) (c.store_derr r a v) (c.store_evr r a v)

theorem wr_setsReg (a : Nat) (v : Word) : c.SetsReg (c.wr a v) a v :=
  ⟨rfl, c.rd_wr_self a v, fun _ h => c.rd_wr_ne h v⟩

/-! ### Registers that are only stored -/

/-- A register of a plain block is only stored, whatever its name. -/
theorem writeOne_plainBlock {a : Nat} (h : plainBlock a = true) (e : Env) (q : Requester) (r : RegRow) (v : Word) :
    c.writeOne e q r a v = (c.store r a v, false) := by
  simp only [plainBlock, List.contains_iff_mem, List.mem_cons, List.not_mem_nil, or_false] at h
  rcases h with h | h | h | h | h | h <;> simp only [writeOne, h]

theorem blockOf_ne_mpc_of_plainBlock {a : Nat} (h : plainBlock a = true) : blockOf a ≠ blkMPC := by
  intro hb
  simp [plainBlock, hb, blkMPC] at h

end Chip

/-- Settles O6: in a plain block an accepted write is a store, and a store is one register write. -/
theorem acceptedWriteFollowsAccessCodes : Obligations.AcceptedWriteFollowsAccessCodes := by
  intro s q off v r hs hp hr hm hb hw
  have hq := (State.settled_iff.mp hs).seenBy q
  have hd : s.chip.busWrite s.env q off.toNat 15 v =
      (s.chip.seenBy q).wr off.toNat (r.written (s.chip.rd off.toNat) v) := by
    rw [Chip.busWrite_writable s.env s.chip q hp hr hm hw, Chip.writeOne_plainBlock _ hb,
      Chip.store_eq_wr _ (Chip.blockOf_ne_mpc_of_plainBlock hb), Chip.seenBy_rd]
    rfl
  have hx : exec (.registerWrite q off 15 v) s = .next (s.act fun e c => c.busWrite e q off.toNat 15 v) := rfl
  exact Runs.of_quiet hx hd (hq.wr ..) ⟨rfl, Chip.wr_setsReg ..⟩

/-! ### The rows of the register map -/

/-- The tables of the register map, one for each block, and the empty one. -/
def rowTables : List (List RegRow) :=
  [rowsGLB0, rowsTTU0 ++ rowsTTU1 ++ rowsTTU2, rowsSCN0 ++ rowsSCN1, rowsSLD0, rowsMPC0 ++ rowsMPC1 ++ rowsMPC2,
    rowsCAM0 ++ rowsCAM1, rowsLNK0 ++ rowsLNK1, rowsDRC0, rowsCRB0, rowsHST0 ++ rowsHST1, rowsSVC0 ++ rowsSVC1, rowsNET0,
    rowsDSP0 ++ rowsDSP1, rowsHVI0 ++ rowsHVI1, rowsEFP0, rowsEVR0, rowsPMC0, rowsASY0, rowsMON0, []]

theorem rowsAt_mem_rowTables (a : Nat) : rowsAt a ∈ rowTables := by
  unfold rowsAt
  repeat' refine iteInduction (motive := (· ∈ rowTables)) (fun _ => ?_) (fun _ => ?_)
  all_goals simp only [rowTables, List.mem_cons, true_or, or_true]

/-- Every row of the register map. -/
def allRows : List RegRow := rowTables.flatten

theorem mem_allRows_of_rowOf {a : Nat} {r : RegRow} (h : rowOf a = some r) : r ∈ allRows :=
  List.mem_flatten.mpr ⟨_, rowsAt_mem_rowTables a, List.mem_of_find?_eq_some h⟩

/-- Registers that a read clears stand alone, and none is LNK_EQ, whose read first draws its live fields. -/
theorem rcRows_single : ∀ r ∈ allRows, r.rc ≠ 0 → memberOf r.name = .single ∧ r.name ≠ "LNK_EQ" := by decide +kernel

/-! ### Reads (R12, R14) -/

namespace Chip

variable (c : Chip)

@[simp] theorem seenBy_jtagLocked (q p : Requester) : (c.seenBy q).jtagLocked p = c.jtagLocked p := by
  unfold jtagLocked; rw [seenBy_svc]

theorem busRead_plain (e : Env) {q : Requester} {a : Nat} {r : RegRow} (hp : plainReg a = true) (hr : rowOf a = some r)
    (ha : (c.seenBy q).absent r a = false) (hj : c.jtagLocked q = false) :
    c.busRead e q a 15 = (c.seenBy q).readReg e q r a := by
  simp only [plainReg, Bool.and_eq_true, Bool.or_eq_true, decide_eq_true_eq, beq_iff_eq] at hp
  obtain ⟨h4, h⟩ := hp
  have hal : ¬ (a % 4 ≠ 0 ∨ (15 : BitVec 4) ≠ 15) := by simp [h4]
  have hmsix : ¬ (0xD6000 ≤ a ∧ a < 0xD6400) := by omega
  have hpba : ¬ (0xD7000 ≤ a ∧ a < 0xD7008) := by omega
  simp only [busRead, if_neg hal, seenBy_jtagLocked, hj, Bool.false_and, Bool.false_eq_true, if_false, if_neg hmsix,
    if_neg hpba, hr, ha]

/-- A read of an RC register that stands alone answers it and clears its RC bits. -/
theorem readReg_rc (e : Env) (q : Requester) {r : RegRow} (a : Nat) (hm : memberOf r.name = .single)
    (hn : r.name ≠ "LNK_EQ") (hc : r.rc ≠ 0) :
    c.readReg e q r a = (c.answer (c.live e r a)).wr a (c.rd a &&& ~~~(BitVec.ofNat 32 r.rc)) := by
  simp only [readReg, if_neg hn, hm, if_neg hc]
  rfl

theorem Quiet.answer {c : Chip} (h : c.Quiet) (v : Word) : (c.answer v).Quiet := h.congr rfl rfl rfl

/-- Register file and read data put back, nothing of an access is left but that it was seen. -/
theorem seenBy_restore (q : Requester) : { c.seenBy q with regs := c.regs, rdata := c.rdata } = c.seenBy q := by
  rw [← c.seenBy_regs q, ← c.seenBy_rdata q]

end Chip

/-- Settles O8: every RC register stands alone, so its read answers, clears and opens no view. -/
theorem rcReadAnswersAndClears : Obligations.RcReadAnswersAndClears := by
  intro s q off r hs hp hr hc ha hj
  obtain ⟨hm, hn⟩ := rcRows_single r (mem_allRows_of_rowOf hr) hc
  have hq := (State.settled_iff.mp hs).seenBy q
  have hd := (s.chip.busRead_plain s.env hp hr ha hj).trans (Chip.readReg_rc _ s.env q off.toNat hm hn hc)
  have hx : exec (.rcRead q off) s = .next (s.act fun e c => c.busRead e q off.toNat 15) := rfl
  refine Runs.of_quiet hx hd ((hq.answer _).wr ..) ⟨rfl, rfl, ?_, fun b hb => ?_, s.chip.seenBy_restore q⟩
  · simp
  · exact (Chip.rd_wr_ne _ hb _).trans (s.chip.seenBy_rd q b)

end Sys2Proof.Machine
end

section
/-! PROOF. Pairs of registers (R17): latched views, staged halves and the write that applies both. -/

namespace Sys2Proof.Machine

/-! ### The names of pairs (R17) -/

/-- Registers whose accepted write does something of its own beside storing what was written. -/
def ownEffect : List String :=
  ["TTU_TICK_CTRL", "TTU_COMMIT_REQ", "TTU_DOM_SEL", "TTU_DOM_CTRL", "TTU_DOM_STEP", "TTU_DOM_UPDATE", "TTU_PPSOUT_CFG",
   "TTU_STEER_CFG", "TTU_LCL_SEC_HI", "TTU_DOM_SEC_HI", "MPC_EMREL_CTRL", "MPC_SAFETY_STATUS", "MPC_WDOG_CFG",
   "MPC_WDOG_KICK", "MPC_LASER_STOP", "MPC_LOOP_CMD", "MPC_L1_IN", "CAM_DMA_BUDGET", "CAM_CTRL", "CAM_EXP_CTRL",
   "LNK_CTRL", "LNK_PRBS_CFG", "LNK_INJECT", "LNK_EYE_CFG", "HST_RING_CTRL", "SVC_LOCK", "SVC_RST_CTRL", "SVC_BLK_RST",
   "SVC_PAIR_CTRL", "SVC_BOOT_MBOX", "SVC_OTP_CMD", "SVC_OTP_KEYDATA", "SVC_NOR_CTRL", "SVC_MBOX_CTRL", "NET_PORT_CTRL",
   "NET_TXTS_POP", "DSP_CTRL", "DSP_COMMIT", "HVI_AX_CTRL", "HVI_MV_PUSH", "HVI_TAB_DATA", "EFP_CTRL", "EVR_CTRL",
   "EVR_RD_IDX", "EVR_LG_POP", "PMC_CTRL", "ASY_CTRL"]

/-- The _HI members of the pairs of R477 apply what is written and have no effect of their own. -/
theorem pairHiNames_plain : ∀ n ∈ pairHiNames, isStaged n = false ∧ n ∉ ownEffect := by decide +kernel

/-- Nothing is found of what has been filtered out. -/
theorem find?_filter_not {α : Type} (p : α → Bool) (l : List α) : (l.filter fun x => !p x).find? p = none := by
  simp [List.find?_eq_none]

/-- Of what has been filtered out only an element added since is found. -/
theorem find?_filter_not_append {α : Type} {p : α → Bool} {x : α} (h : p x = true) (l : List α) :
    ((l.filter fun x => !p x) ++ [x]).find? p = some x := by
  rw [List.find?_append, find?_filter_not]
  simp [h]

theorem ne_of_memberOf_first {n m : String} {k : Nat} (h : memberOf n = .first k) (hm : memberOf m ≠ .first k) : n ≠ m := by
  rintro rfl
  exact hm h

theorem ne_of_memberOf_rest {n m : String} {k : Nat} (h : memberOf n = .rest k) (hm : memberOf m ≠ .rest k) : n ≠ m := by
  rintro rfl
  exact hm h

namespace Chip

variable (c : Chip)

/-- A register without an effect of its own is only stored. -/
theorem writeOne_store {r : RegRow} (h : r.name ∉ ownEffect) (e : Env) (q : Requester) (a : Nat) (v : Word) :
    c.writeOne e q r a v = (c.store r a v, false) := by
  unfold writeOne writeTtu writeMpc writeCam writeLnk writeHst writeSvc writeHvi writeEfp writeEvr
  split
  case h_14 => rfl
  all_goals split <;> simp_all [ownEffect]

/-! ### Views and staging (R17) -/

@[simp] theorem seenBy_stagedAt (q p : Requester) (a : Nat) : (c.seenBy q).stagedAt p a = c.stagedAt p a := by
  unfold stagedAt; rw [seenBy_staged]

@[simp] theorem seenBy_servedBy (q p : Requester) (g a : Nat) : (c.seenBy q).servedBy p g a = c.servedBy p g a := by
  unfold servedBy; rw [seenBy_views]

/-- Unstaging one offset drops what the staging lookup of it would find. -/
theorem unstage_staged (q : Requester) (a : Nat) :
    (c.unstage q [a]).staged = c.staged.filter fun x => !(x.req == q && x.off == a) := by
  simp only [unstage, List.contains_cons, List.contains_nil, Bool.or_false]

@[simp] theorem stagedAt_unstage_self (q : Requester) (a : Nat) : (c.unstage q [a]).stagedAt q a = none := by
  rw [stagedAt, unstage_staged, find?_filter_not]
  rfl

@[simp] theorem stagedAt_stage_self (q : Requester) (a : Nat) (v : Word) : (c.stage q a v).stagedAt q a = some v := by
  simp only [stagedAt, stage, unstage_staged]
  rw [find?_filter_not_append (by simp)]
  rfl

@[simp] theorem servedBy_closeView_self (q : Requester) (g a : Nat) : (c.closeView q g).servedBy q g a = none := by
  simp only [servedBy, closeView]
  rw [find?_filter_not]
  rfl

/-- The view that a read of a pair's _LO opens holds the live value of its _HI. -/
theorem servedBy_openView_pair (e : Env) (q : Requester) (a : Nat) :
    (c.openView e q a 2).servedBy q a (a + 4) = some (c.liveAt e (a + 4)) := by
  simp only [servedBy, openView, closeView]
  rw [find?_filter_not_append (by simp)]
  simp [findKey]

theorem liveAt_of_rowOf (e : Env) {a : Nat} {r : RegRow} (h : rowOf a = some r) : c.liveAt e a = c.live e r a := by
  simp only [liveAt, h]

namespace Quiet

variable {c : Chip} (h : c.Quiet)
include h

theorem openView (e : Env) (q : Requester) (a n : Nat) : (c.openView e q a n).Quiet := h.congr rfl rfl rfl
theorem serve (q : Requester) (g a : Nat) : (c.serve q g a).Quiet := h.congr rfl rfl rfl
theorem closeView (q : Requester) (g : Nat) : (c.closeView q g).Quiet := h.congr rfl rfl rfl
theorem stage (q : Requester) (a : Nat) (v : Word) : (c.stage q a v).Quiet := h.congr rfl rfl rfl
theorem unstage (q : Requester) (as : List Nat) : (c.unstage q as).Quiet := h.congr rfl rfl rfl

end Quiet

/-- A read of a pair's _LO answers it and opens a view on its _HI. -/
theorem readReg_pairLo (e : Env) (q : Requester) {r : RegRow} (a : Nat) (hm : memberOf r.name = .first 2) :
    c.readReg e q r a = (c.openView e q a 2).answer (c.live e r a) := by
  have heq : r.name ≠ "LNK_EQ" := ne_of_memberOf_first hm (by decide)
  have hpps : r.name ≠ "TTU_PPSIN_SEC_LO" := ne_of_memberOf_first hm (by decide)
  simp only [readReg, if_neg heq, hm, if_neg hpps]

/-- A read of a pair's _HI while its value is latched answers that and takes it from the view. -/
theorem readReg_pairHi_latched (e : Env) {q : Requester} {r : RegRow} {a : Nat} {x : Word} (hm : memberOf r.name = .rest 1)
    (hx : c.servedBy q a (a + 4) = some x) : c.readReg e q r (a + 4) = (c.serve q a (a + 4)).answer x := by
  have heq : r.name ≠ "LNK_EQ" := ne_of_memberOf_rest hm (by decide)
  simp only [readReg, if_neg heq, hm, Nat.mul_one, Nat.add_sub_cancel, hx]

/-- A read of a pair's _HI with no view open answers the current value. -/
theorem readReg_pairHi_current (e : Env) {q : Requester} {r : RegRow} {a : Nat} (hm : memberOf r.name = .rest 1)
    (hx : c.servedBy q a (a + 4) = none) : c.readReg e q r (a + 4) = c.answer (c.live e r (a + 4)) := by
  have heq : r.name ≠ "LNK_EQ" := ne_of_memberOf_rest hm (by decide)
  simp only [readReg, if_neg heq, hm, Nat.mul_one, Nat.add_sub_cancel, hx]

/-! ### Writes of pairs (R17) -/

/-- A write that every check lets pass, of a member of a pair, follows the pair's rules. -/
theorem busWrite_member (e : Env) {q : Requester} {a : Nat} {v : Word} {r : RegRow} {d : Chip} (hp : plainReg a = true)
    (hr : rowOf a = some r) (hw : c.writable q a v = true) (hd : (c.seenBy q).writeMember e q r a v = (d, false)) :
    c.busWrite e q a 15 v = d := by
  have h0 : (c.seenBy q).writeReason q r a v = 0 := by simpa [writable, hr] using hw
  simp only [busWrite, c.busTry_plain e q v hp hr, writeReg, h0, if_true, hd, Bool.false_eq_true, if_false]

/-- A write of a staged _LO closes the requester's view and is staged. -/
theorem writeMember_pairLo (e : Env) (q : Requester) {r : RegRow} (a : Nat) (v : Word) (hm : memberOf r.name = .first 2)
    (hs : isStaged r.name = true) : c.writeMember e q r a v = ((c.closeView q a).stage q a v, false) := by
  simp only [writeMember, hm, reduceCtorEq, if_false, Member.head, hs, if_true]

/-- The staged half of a pair applied and its staging dropped, or nothing where none is staged. -/
def applyStaged (c : Chip) (q : Requester) (lo : RegRow) (a : Nat) : Chip :=
  match c.stagedAt q a with
  | some x => (c.store lo a x).unstage q [a]
  | none => c

/-- A write of a _HI closes the requester's view, applies the half staged, and stores what is written. -/
theorem writeMember_pairHi (e : Env) (q : Requester) {lo r : RegRow} {a : Nat} (v : Word) (hl : rowOf a = some lo)
    (hm : memberOf r.name = .rest 1) (hh : pairHiNames.contains r.name = true) :
    c.writeMember e q r (a + 4) v = (((c.closeView q a).applyStaged q lo a).store r (a + 4) v, false) := by
  obtain ⟨hs, ho⟩ := pairHiNames_plain r.name (List.contains_iff_mem.mp hh)
  simp only [writeMember, hm, reduceCtorEq, Member.head, hs, hh, Nat.mul_one, Nat.add_sub_cancel, hl, applyStaged,
    Bool.false_eq_true, if_false, if_true, writeOne_store _ ho]
  cases (c.closeView q a).stagedAt q a <;> rfl

theorem rd_applyStaged_self (q : Requester) (lo : RegRow) (a : Nat) : (c.applyStaged q lo a).rd a =
    match c.stagedAt q a with
    | some x => lo.written (c.rd a) x
    | none => c.rd a := by
  unfold applyStaged
  split
  · exact c.rd_store_self ..
  · rfl

theorem rd_applyStaged_ne {a b : Nat} (h : b ≠ a) (q : Requester) (lo : RegRow) : (c.applyStaged q lo a).rd b = c.rd b := by
  unfold applyStaged
  split
  · exact c.rd_store_ne h ..
  · rfl

theorem stagedAt_applyStaged_self (q : Requester) (lo : RegRow) (a : Nat) : (c.applyStaged q lo a).stagedAt q a = none := by
  unfold applyStaged
  split
  · exact stagedAt_unstage_self ..
  · assumption

theorem stagedAt_store (q : Requester) (r : RegRow) (a b : Nat) (v : Word) :
    (c.store r a v).stagedAt q b = c.stagedAt q b := by
  unfold stagedAt; rw [store_staged]

theorem Quiet.applyStaged {c : Chip} (h : c.Quiet) (q : Requester) (lo : RegRow) (a : Nat) :
    (c.applyStaged q lo a).Quiet := by
  unfold Chip.applyStaged
  split
  · exact (h.store ..).unstage ..
  · exact h

end Chip

/-! ### The four accesses of a pair -/

section

variable {s : State} {q : Requester} {lo : Offset} {rl rh : RegRow}

theorem pairLoRead_latches (hs : s.settled = true) (hp : plainReg lo.toNat = true) (hrl : rowOf lo.toNat = some rl)
    (hrh : rowOf (lo.toNat + 4) = some rh) (hml : memberOf rl.name = .first 2)
    (ha : (s.chip.seenBy q).absent rl lo.toNat = false) (hj : s.chip.jtagLocked q = false) :
    Runs (.pairLoRead q lo) s fun t => t.chip.rdata = (s.chip.seenBy q).live s.env rl lo.toNat ∧
      t.chip.servedBy q lo.toNat (lo.toNat + 4) = some ((s.chip.seenBy q).live s.env rh (lo.toNat + 4)) ∧
      t.chip.regs = s.chip.regs ∧ s.sameMem t := by
  have hq := (State.settled_iff.mp hs).seenBy q
  have hd := (s.chip.busRead_plain s.env hp hrl ha hj).trans (Chip.readReg_pairLo _ s.env q _ hml)
  have hx : exec (.pairLoRead q lo) s = .next (s.act fun e c => c.busRead e q lo.toNat 15) := rfl
  refine Runs.of_quiet hx hd ((hq.openView ..).answer _) ⟨rfl, ?_, s.chip.seenBy_regs q, rfl, rfl, rfl⟩
  exact (Chip.servedBy_openView_pair ..).trans (congrArg some (Chip.liveAt_of_rowOf _ _ hrh))

theorem pairHiRead_serves {hi : Offset} (hs : s.settled = true) (hhi : hi.toNat = lo.toNat + 4)
    (hp : plainReg (lo.toNat + 4) = true) (hrh : rowOf (lo.toNat + 4) = some rh) (hmh : memberOf rh.name = .rest 1)
    (ha : (s.chip.seenBy q).absent rh (lo.toNat + 4) = false) (hj : s.chip.jtagLocked q = false) :
    Runs (.pairHiRead q hi) s fun t => t.chip.rdata =
        (s.chip.servedBy q lo.toNat (lo.toNat + 4)).getD ((s.chip.seenBy q).live s.env rh (lo.toNat + 4)) ∧
      t.chip.regs = s.chip.regs ∧ s.sameMem t := by
  have hq := (State.settled_iff.mp hs).seenBy q
  have hd := s.chip.busRead_plain s.env hp hrh ha hj
  have hx : exec (.pairHiRead q hi) s = .next (s.act fun e c => c.busRead e q (lo.toNat + 4) 15) := by rw [← hhi]; rfl
  cases hv : s.chip.servedBy q lo.toNat (lo.toNat + 4) with
  | some x =>
    rw [Chip.readReg_pairHi_latched _ s.env hmh ((s.chip.seenBy_servedBy ..).trans hv)] at hd
    exact Runs.of_quiet hx hd ((hq.serve ..).answer _) ⟨rfl, s.chip.seenBy_regs q, rfl, rfl, rfl⟩
  | none =>
    rw [Chip.readReg_pairHi_current _ s.env hmh ((s.chip.seenBy_servedBy ..).trans hv)] at hd
    exact Runs.of_quiet hx hd (hq.answer _) ⟨rfl, s.chip.seenBy_regs q, rfl, rfl, rfl⟩

theorem pairLoWrite_stages {v : Word} (hs : s.settled = true) (hp : plainReg lo.toNat = true)
    (hrl : rowOf lo.toNat = some rl) (hml : memberOf rl.name = .first 2) (hst : isStaged rl.name = true)
    (hw : s.chip.writable q lo.toNat v = true) :
    Runs (.pairLoWrite q lo v) s fun t => t.chip.stagedAt q lo.toNat = some v ∧
      t.chip.servedBy q lo.toNat (lo.toNat + 4) = none ∧ t.chip.regs = s.chip.regs ∧ s.sameMem t := by
  have hq := (State.settled_iff.mp hs).seenBy q
  have hd := s.chip.busWrite_member s.env hp hrl hw (Chip.writeMember_pairLo _ s.env q _ v hml hst)
  have hx : exec (.pairLoWrite q lo v) s = .next (s.act fun e c => c.busWrite e q lo.toNat 15 v) := rfl
  exact Runs.of_quiet hx hd ((hq.closeView ..).stage ..)
    ⟨Chip.stagedAt_stage_self .., Chip.servedBy_closeView_self .., s.chip.seenBy_regs q, rfl, rfl, rfl⟩

theorem pairHiWrite_applies {hi : Offset} {v : Word} (hs : s.settled = true) (hhi : hi.toNat = lo.toNat + 4)
    (hp : plainReg (lo.toNat + 4) = true) (hrl : rowOf lo.toNat = some rl) (hrh : rowOf (lo.toNat + 4) = some rh)
    (hmh : memberOf rh.name = .rest 1) (hn : pairHiNames.contains rh.name = true)
    (hw : s.chip.writable q (lo.toNat + 4) v = true) :
    Runs (.pairHiWrite q hi v) s fun t => t.chip.rd (lo.toNat + 4) = rh.written (s.chip.rd (lo.toNat + 4)) v ∧
      t.chip.rd lo.toNat = (match s.chip.stagedAt q lo.toNat with
        | some x => rl.written (s.chip.rd lo.toNat) x
        | none => s.chip.rd lo.toNat) ∧
      t.chip.stagedAt q lo.toNat = none ∧
      (∀ b, b ≠ lo.toNat → b ≠ lo.toNat + 4 → t.chip.rd b = s.chip.rd b) ∧ s.sameMem t := by
  have hq := (State.settled_iff.mp hs).seenBy q
  have hd := s.chip.busWrite_member s.env hp hrh hw (Chip.writeMember_pairHi _ s.env q v hrl hmh hn)
  have hx : exec (.pairHiWrite q hi v) s = .next (s.act fun e c => c.busWrite e q (lo.toNat + 4) 15 v) := by rw [← hhi]; rfl
  have hrd (b : Nat) : ((s.chip.seenBy q).closeView q lo.toNat).rd b = s.chip.rd b := s.chip.seenBy_rd q b
  have hstaged : ((s.chip.seenBy q).closeView q lo.toNat).stagedAt q lo.toNat = s.chip.stagedAt q lo.toNat :=
    s.chip.seenBy_stagedAt q q _
  refine Runs.of_quiet hx hd (((hq.closeView ..).applyStaged ..).store ..) ⟨?_, ?_, ?_, fun b hb hb4 => ?_, rfl, rfl, rfl⟩
  · rw [Chip.rd_store_self, Chip.rd_applyStaged_ne _ (by omega), hrd]
  · rw [Chip.rd_store_ne _ (by omega), Chip.rd_applyStaged_self, hrd, hstaged]
  · rw [Chip.stagedAt_store, Chip.stagedAt_applyStaged_self]
  · rw [Chip.rd_store_ne _ hb4, Chip.rd_applyStaged_ne _ hb, hrd]

end

/-- Settles O9, access by access. -/
theorem pairsLatchAndStage : Obligations.PairsLatchAndStage := by
  intro s q lo rl rh v hs hpl hph hlt hrl hrh hml hmh
  have hhi : (lo + 4).toNat = lo.toNat + 4 := by
    rw [BitVec.toNat_add]
    exact Nat.mod_eq_of_lt hlt
  exact ⟨pairLoRead_latches hs hpl hrl hrh hml, pairHiRead_serves hs hhi hph hrh hmh,
    pairLoWrite_stages hs hpl hrl hml, pairHiWrite_applies hs hhi hph hrl hrh hmh⟩

end Sys2Proof.Machine
end

section
/-! PROOF. BAR2 (R320): what its writes store past the lease guards (R93), what its reads answer, and what one turned away
leaves behind (R298, R371). -/

namespace Sys2Proof.Machine

/-! ### What a violation's record leaves alone -/

/-- Whether a ring is an enabled EVENT ring depends on its state and its type. -/
theorem Chip.isEventRing_congr {c d : Chip} {r : Fin 256} (h : d.hst.rings = c.hst.rings)
    (hr : d.rd (Reg.HST_RING_CFG r) = c.rd (Reg.HST_RING_CFG r)) : d.isEventRing r = c.isEventRing r := by
  unfold Chip.isEventRing Chip.ringType Chip.fld Chip.rdn Chip.ring
  rw [hr, h]

/-- `d` has the stores of `c` and the same enabled EVENT rings. -/
structure KeepsEventRings (c d : Chip) : Prop where
  outbox : d.outbox = c.outbox
  eventRing : ∀ r : Fin 256, d.isEventRing r = c.isEventRing r

namespace KeepsEventRings

variable {c d : Chip}

theorem refl (c : Chip) : KeepsEventRings c c := ⟨rfl, fun _ => rfl⟩

theorem trans {e : Chip} (h : KeepsEventRings c d) (k : KeepsEventRings d e) : KeepsEventRings c e :=
  ⟨k.outbox.trans h.outbox, fun r => (k.eventRing r).trans (h.eventRing r)⟩

theorem unwatched (h : KeepsEventRings c d) (k : c.unwatched) : d.unwatched := fun r => (h.eventRing r).trans (k r)

end KeepsEventRings

theorem Unsent.keepsEventRings {c d : Chip} (h : Unsent c d) : KeepsEventRings c d :=
  ⟨h.outbox, fun r => Chip.isEventRing_congr (by rw [h.hst]) (h.rd _ (by simp only [Reg.HST_RING_CFG]; omega))⟩

namespace Chip

variable (c : Chip)

/-- A register below the ring windows. -/
theorem wr_keepsEventRings {a : Nat} (h : a < 0xD1000) (v : Word) : KeepsEventRings c (c.wr a v) :=
  ⟨rfl, fun r => isEventRing_congr rfl (c.rd_wr_ne (by simp only [Reg.HST_RING_CFG]; omega) v)⟩

theorem wrn_keepsEventRings {a : Nat} (h : a < 0xD1000) (v : Nat) : KeepsEventRings c (c.wrn a v) := c.wr_keepsEventRings h _
theorem sticky_keepsEventRings {a : Nat} (h : a < 0xD1000) (m : Nat) : KeepsEventRings c (c.sticky a m) :=
  c.wr_keepsEventRings h _
theorem bump_keepsEventRings {a : Nat} (h : a < 0xD1000) : KeepsEventRings c (c.bump a) := c.wr_keepsEventRings h _
theorem wrPair_keepsEventRings {a : Nat} (h : a + 4 < 0xD1000) (v : Nat) : KeepsEventRings c (c.wrPair a v) :=
  (c.wrn_keepsEventRings (by omega) _).trans (wrn_keepsEventRings _ h _)

theorem flagEvent_keepsEventRings (a : Nat) (i : Inst) (b p : Nat) : KeepsEventRings c (c.flagEvent a i b p) :=
  (c.raise_unsent ..).keepsEventRings

theorem flag_keepsEventRings {a : Nat} (h : a < 0xD1000) (i : Inst) (b p : Nat) : KeepsEventRings c (c.flag a i b p) :=
  (c.sticky_keepsEventRings h b).trans (flagEvent_keepsEventRings ..)

theorem regionViol_keepsEventRings (q a : Nat) (w : Bool) : KeepsEventRings c (c.regionViol q a w) :=
  ((c.wrPair_keepsEventRings (by decide) _).trans (wrn_keepsEventRings _ (by decide) _)).trans
    (flag_keepsEventRings _ (by decide) ..)

theorem leaseViol_keepsEventRings (b a : Nat) : KeepsEventRings c (c.leaseViol b a) :=
  ((c.bump_keepsEventRings (by decide)).trans (wrPair_keepsEventRings _ (by decide) _)).trans
    (sticky_keepsEventRings _ (by decide) _)

theorem guardDrop_keepsEventRings (b a : Nat) : KeepsEventRings c (c.guardDrop b a) :=
  (c.leaseViol_keepsEventRings ..).trans (flagEvent_keepsEventRings ..)

/-- What a read answers beside the module. -/
def withReply (c : Chip) (bs : List Byte) (bad : Bool) : Chip := { c with rbytes := bs, rbad := bad }

end Chip

theorem Recorded.withReply {c d : Chip} (h : Recorded c d) (bs : List Byte) (bad : Bool) :
    Recorded (c.withReply bs bad) (d.withReply bs bad) :=
  ⟨congrArg (fun x : Chip => x.withReply bs bad) h.rest, h.rd⟩

theorem KeepsEventRings.withReply {c d : Chip} (h : KeepsEventRings c d) (bs : List Byte) (bad : Bool) :
    KeepsEventRings (c.withReply bs bad) (d.withReply bs bad) := ⟨h.outbox, h.eventRing⟩

/-- With no EVENT ring enabled, memory after a command holds the stores of its effect. -/
theorem State.act_mem (s : State) (f : Env → Chip → Chip) (h : (f s.env s.chip).unwatched) :
    (s.act f).mem = (f s.env s.chip).outbox.foldl MemWrite.apply s.mem :=
  congrArg (List.foldl MemWrite.apply s.mem) (Chip.recorded_unsent s.env _ h).outbox

/-- A command logs what its effect records when that keeps the stores and the EVENT rings. -/
theorem Logs.of_keepsEventRings {i : Instr} {s : State} {f : Env → Chip → Chip} {d : Chip} (hx : exec i s = .next (s.act f))
    (hr : Recorded d (f s.env s.chip)) (hk : KeepsEventRings d (f s.env s.chip)) : Logs i s d := by
  refine ⟨_, hx, hr.trans (State.act_recorded s f), rfl, rfl, fun h => ?_⟩
  rw [State.act_mem s f (hk.unwatched h), hk.outbox]
  rfl

/-! ### Stores of admitted bytes (R93, R299) -/

/-- A run of stores of device DRAM applied. -/
def applyRuns (m : Memory) (runs : List (Nat × List Byte)) : Memory :=
  runs.foldl (fun m r => Memory.writes dramDefault m r.1 r.2) m

theorem foldl_apply_dram (runs : List (Nat × List Byte)) (m : Mems) :
    (runs.map fun r => MemWrite.dram r.1 r.2).foldl MemWrite.apply m = { m with dram := applyRuns m.dram runs } := by
  induction runs generalizing m with
  | nil => rfl
  | cons r runs ih => rw [List.map_cons, List.foldl_cons, ih]; rfl

/-- The first byte is stored where it is kept, and the rest as runs of its own. -/
theorem applyRuns_keptRuns_cons (keep : Nat → Bool) (a : Nat) (b : Byte) (bs : List Byte) (m : Memory) :
    applyRuns m (keptRuns keep a (b :: bs)) =
      applyRuns (if keep a then Memory.write dramDefault m a b else m) (keptRuns keep (a + 1) bs) := by
  rw [keptRuns]
  by_cases h : keep a = true
  · simp only [h, if_true]
    split
    · rename_i a' run l hrest
      rw [hrest]
      split
      · rename_i ha
        rw [ha]
        rfl
      · rfl
    · rename_i hrest
      rw [hrest]
      rfl
  · simp only [h, if_false, Bool.false_eq_true]

/-- A byte written only where it is kept. -/
theorem read_write_kept (p : Bool) (m : Memory) (a y : Nat) (b : Byte) :
    Memory.read dramDefault (if p then Memory.write dramDefault m a b else m) y =
      if y = a ∧ p = true then b else Memory.read dramDefault m y := by
  cases p with
  | false => simp
  | true =>
    by_cases hy : y = a
    · simp [hy]
    · simp [hy, Memory.read_write_ne dramDefault m hy]

/-- The bytes that `keep` admits read as stored, every other byte as before. -/
theorem read_applyRuns_keptRuns (keep : Nat → Bool) (bs : List Byte) (a y : Nat) (m : Memory) :
    Memory.read dramDefault (applyRuns m (keptRuns keep a bs)) y =
      if a ≤ y ∧ y < a + bs.length ∧ keep y = true then bs.getD (y - a) 0 else Memory.read dramDefault m y := by
  induction bs generalizing a m with
  | nil =>
    rw [if_neg (by simp; omega)]
    rfl
  | cons b bs ih =>
    rw [applyRuns_keptRuns_cons, ih, List.length_cons, read_write_kept]
    rcases Nat.lt_trichotomy y a with hy | rfl | hy
    · rw [if_neg (by omega), if_neg (by omega), if_neg (by omega)]
    · rw [if_neg (by omega)]
      simp
    · obtain ⟨k, rfl⟩ : ∃ k, y = a + 1 + k := ⟨y - (a + 1), by omega⟩
      have hne : ¬ a + 1 + k = a := by omega
      have hsub : a + 1 + k - a = k + 1 := by omega
      simp only [hne, false_and, if_false, hsub, Nat.add_sub_cancel_left, List.getD_cons_succ]
      congr 1
      simp only [eq_iff_iff]
      constructor <;> rintro ⟨_, h, hk⟩ <;> exact ⟨by omega, by omega, hk⟩

/-- Where every byte is kept, the runs are one. -/
theorem keptRuns_all {keep : Nat → Bool} {a : Nat} {bs : List Byte} (hb : bs ≠ [])
    (h : ∀ k, k < bs.length → keep (a + k) = true) : keptRuns keep a bs = [(a, bs)] := by
  induction bs generalizing a with
  | nil => exact absurd rfl hb
  | cons b bs ih =>
    have h0 : keep a = true := h 0 (by simp)
    unfold keptRuns
    rcases bs with _ | ⟨b', bs⟩
    · simp [keptRuns, h0]
    · rw [ih (by simp) fun k hk => ?_]
      · simp [h0]
      · have := h (k + 1) (by simpa using hk)
        rwa [show a + 1 + k = a + (k + 1) by omega]

namespace Chip

variable (c : Chip)

/-- Stores issued one after another. -/
def issueAll (c : Chip) (ws : List MemWrite) : Chip := { c with outbox := c.outbox ++ ws }

@[simp] theorem issueAll_nil : c.issueAll [] = c := by simp [issueAll]
theorem issueAll_cons (w : MemWrite) (ws : List MemWrite) : c.issueAll (w :: ws) = (c.issue w).issueAll ws := by
  simp [issueAll, issue]

theorem storeKept_eq_issueAll (keep : Nat → Bool) (a : Nat) (bs : List Byte) :
    c.storeKept keep a bs = c.issueAll ((keptRuns keep a bs).map fun r => .dram r.1 r.2) := by
  unfold storeKept
  induction keptRuns keep a bs generalizing c with
  | nil => exact c.issueAll_nil.symm
  | cons r runs ih => rw [List.foldl_cons, ih, List.map_cons, issueAll_cons]

/-- With no error of the devices no burst is read before a write. -/
theorem rmwBursts_quiet (e : Env) (q a n : Nat) (bs : List Nat) {c : Chip} (h : c.derr = []) :
    Chip.rmwBursts e q a n bs c = (c, []) := by
  induction bs with
  | nil => rfl
  | cons b bs ih => simp [rmwBursts, burstHasErr, h, ih]

/-- With no error of the devices a write issues the stores of the bytes kept and does nothing else. -/
theorem dramPut_quiet (e : Env) (q a : Nat) (keep : Nat → Bool) (bs : List Byte) {c : Chip} (h : c.derr = []) :
    c.dramPut e q a keep bs = c.issueAll ((keptRuns keep a bs).map fun r => .dram r.1 r.2) := by
  simp only [dramPut, rmwBursts_quiet e q a _ _ h, List.contains_nil, Bool.not_false, Bool.and_true, storeKept_eq_issueAll]

/-! ### BAR2 (R320) -/

theorem linkSeen_eq_seenBy : c.linkSeen = c.seenBy .host := rfl

theorem linkSeen_rings : c.linkSeen.hst.rings = c.hst.rings := by
  unfold linkSeen
  split <;> rfl

theorem linkSeen_leases : c.linkSeen.hst.leases = c.hst.leases := by
  unfold linkSeen
  split <;> rfl

@[simp] theorem linkSeen_guardOf (a : Nat) : c.linkSeen.guardOf a = c.guardOf a := by
  unfold guardOf
  rw [linkSeen_leases]

@[simp] theorem linkSeen_bar2Addr (x : Nat) : c.linkSeen.bar2Addr x = c.bar2Addr x := by
  simp only [bar2Addr, fld, rdn, linkSeen_eq_seenBy, seenBy_rd]

@[simp] theorem linkSeen_drc : c.linkSeen.drc = c.drc := c.seenBy_drc .host

@[simp] theorem linkSeen_regs : c.linkSeen.regs = c.regs := c.seenBy_regs .host
@[simp] theorem linkSeen_outbox : c.linkSeen.outbox = c.outbox := c.seenBy_outbox .host
@[simp] theorem linkSeen_derr : c.linkSeen.derr = c.derr := c.seenBy_derr .host

@[simp] theorem noteLoading_outbox (a n : Nat) : (c.noteLoading a n).outbox = c.outbox := by simp only [noteLoading]
@[simp] theorem noteLoading_derr (a n : Nat) : (c.noteLoading a n).derr = c.derr := by simp only [noteLoading]
@[simp] theorem noteLoading_regs (a n : Nat) : (c.noteLoading a n).regs = c.regs := by simp only [noteLoading]
@[simp] theorem noteLoading_rings (a n : Nat) : (c.noteLoading a n).hst.rings = c.hst.rings := by simp only [noteLoading]

/-- The module with the bytes of a BAR2 write that no lease guards stored, and the loads that the write touches noted. -/
def bar2Put (c : Chip) (a : Nat) (bs : List Byte) : Chip :=
  (c.linkSeen.noteLoading a bs.length).issueAll
    ((keptRuns (fun y => (c.guardOf y).isNone) a bs).map fun r => .dram r.1 r.2)

@[simp] theorem bar2Put_rings (a : Nat) (bs : List Byte) : (c.bar2Put a bs).hst.rings = c.hst.rings := by
  simp only [bar2Put, issueAll, noteLoading_rings, linkSeen_rings]

@[simp] theorem bar2Put_regs (a : Nat) (bs : List Byte) : (c.bar2Put a bs).regs = c.regs := by
  simp only [bar2Put, issueAll, noteLoading_regs, linkSeen_regs]

theorem bar2Put_outbox (a : Nat) (bs : List Byte) : (c.bar2Put a bs).outbox =
    c.outbox ++ (keptRuns (fun y => (c.guardOf y).isNone) a bs).map fun r => MemWrite.dram r.1 r.2 := by
  simp only [bar2Put, issueAll, noteLoading_outbox, linkSeen_outbox]

theorem bar2Put_unwatched {c : Chip} (h : c.unwatched) (a : Nat) (bs : List Byte) : (c.bar2Put a bs).unwatched :=
  fun r => (isEventRing_congr (c.bar2Put_rings a bs) (rd_congr (c.bar2Put_regs a bs) _)).trans (h r)

/-- With no guard the bytes are one store. -/
theorem bar2Put_free {a : Nat} {bs : List Byte} (hb : bs ≠ []) (h : ∀ k, k < bs.length → c.guardOf (a + k) = none) :
    c.bar2Put a bs = (c.linkSeen.noteLoading a bs.length).issue (.dram a bs) := by
  have hk : ∀ k, k < bs.length → (c.guardOf (a + k)).isNone = true := fun k hk => by rw [h k hk]; rfl
  rw [bar2Put, keptRuns_all hb hk, List.map_singleton, issueAll_cons, issueAll_nil]

variable {e : Env} {x : Nat} {bs : List Byte}

/-- The stores of the bytes that no lease guards, as the model issues them. -/
theorem dramPut_linkSeen (hd : c.derr = []) (a : Nat) : (c.linkSeen.noteLoading a bs.length).dramPut e reqBAR2 a
    (fun y => (c.linkSeen.guardOf y).isNone) bs = c.bar2Put a bs := by
  have hd' : (c.linkSeen.noteLoading a bs.length).derr = [] := by
    rw [noteLoading_derr, linkSeen_derr, hd]
  simp only [dramPut_quiet _ _ _ _ _ hd', linkSeen_guardOf, bar2Put]

theorem bar2Write_untrained (hb : bs ≠ []) (hi : c.drc.initDone = false) :
    c.bar2Write e x bs = c.linkSeen.regionViol reqBAR2 (c.bar2Addr x) true := by
  simp [bar2Write, hb, hi]

section

variable (hb : bs ≠ []) (hi : c.drc.initDone = true)
include hb hi

theorem bar2Write_refused {y : Nat} (hy : firstRefused (mayWrite reqBAR2) (c.bar2Addr x) bs.length = some y) :
    c.bar2Write e x bs = c.linkSeen.regionViol reqBAR2 y true := by
  simp [bar2Write, hb, hi, hy]

variable (hd : c.derr = []) (hm : firstRefused (mayWrite reqBAR2) (c.bar2Addr x) bs.length = none)
include hd hm

theorem bar2Write_free (hy : firstRefused (fun y => (c.guardOf y).isNone) (c.bar2Addr x) bs.length = none) :
    c.bar2Write e x bs = c.bar2Put (c.bar2Addr x) bs := by
  rw [← c.dramPut_linkSeen (e := e) hd]
  simp [bar2Write, hb, hi, hm, hy]

theorem bar2Write_guarded {y : Nat}
    (hy : firstRefused (fun y => (c.guardOf y).isNone) (c.bar2Addr x) bs.length = some y) :
    c.bar2Write e x bs = (c.bar2Put (c.bar2Addr x) bs).guardDrop 0x1 y := by
  rw [← c.dramPut_linkSeen (e := e) hd]
  simp [bar2Write, hb, hi, hm, hy]

end

variable {n : Nat}

theorem bar2Read_untrained (hn : 0 < n) (hi : c.drc.initDone = false) :
    c.bar2Read e x n = (c.linkSeen.regionViol reqBAR2 (c.bar2Addr x) false).withReply (List.replicate n 0) false := by
  simp [bar2Read, hn, hi, withReply]

theorem bar2Read_refused (hi : c.drc.initDone = true) {y : Nat}
    (hy : firstRefused (mayRead reqBAR2) (c.bar2Addr x) n = some y) :
    c.bar2Read e x n = (c.linkSeen.regionViol reqBAR2 y false).withReply (List.replicate n 0) false := by
  simp [bar2Read, hi, dramRead, hy, withReply]

theorem bar2Read_allowed (hi : c.drc.initDone = true) (hd : c.derr = []) (ho : c.outbox = [])
    (hm : firstRefused (mayRead reqBAR2) (c.bar2Addr x) n = none) :
    c.bar2Read e x n = c.linkSeen.withReply
      ((List.range n).map fun k => Memory.read dramDefault e.mem.dram (c.bar2Addr x + k)) false := by
  have hread := dramRead_quiet e reqBAR2 (c.bar2Addr x) n (c.linkSeen_derr.trans hd) (c.linkSeen_outbox.trans ho) hm
  simp [bar2Read, hi, hread, withReply]

end Chip

/-- A range that is not wholly allowed has a first byte refused. -/
theorem exists_firstRefused {p : Nat → Bool} {a n : Nat} (h : ∃ k, k < n ∧ p (a + k) = false) :
    ∃ y, firstRefused p a n = some y := by
  obtain ⟨k, hk, hf⟩ := h
  cases hr : firstRefused p a n with
  | some y => exact ⟨y, rfl⟩
  | none => exact absurd (firstRefused_eq_none.mp hr k hk) (by simp [hf])

/-! ### The BAR2 commands -/

theorem Chip.withDerr_nil {c : Chip} (h : c.derr = []) : { c with derr := [] } = c := by rw [← h]

section

variable {s : State} (hs : s.settled = true) (x : BitVec 32)
include hs

theorem exec_bar2Write (bs : List Byte) : ∃ f, exec (.bar2Write x bs []) s = .next (s.act f) ∧
    f s.env s.chip = s.chip.bar2Write s.env x.toNat bs :=
  ⟨fun e c => ({ c with derr := [] } : Chip).bar2Write e x.toNat bs, rfl,
    congrArg (Chip.bar2Write s.env · x.toNat bs) (Chip.withDerr_nil (State.settled_iff.mp hs).derr)⟩

theorem exec_bar2Read (n : Nat) : ∃ f, exec (.bar2Read x n []) s = .next (s.act f) ∧
    f s.env s.chip = s.chip.bar2Read s.env x.toNat n :=
  ⟨fun e c => ({ c with derr := [] } : Chip).bar2Read e x.toNat n, rfl,
    congrArg (Chip.bar2Read s.env · x.toNat n) (Chip.withDerr_nil (State.settled_iff.mp hs).derr)⟩

/-- A BAR2 write that is turned away leaves the record of it. -/
theorem bar2Write_logs {bs : List Byte} {y : Nat}
    (h : s.chip.bar2Write s.env x.toNat bs = s.chip.linkSeen.regionViol reqBAR2 y true) :
    Logs (.bar2Write x bs []) s s.chip.linkSeen := by
  obtain ⟨f, hx, hf⟩ := exec_bar2Write hs x bs
  rw [h] at hf
  exact Logs.of_keepsEventRings hx (hf ▸ Chip.regionViol_recorded ..) (hf ▸ Chip.regionViol_keepsEventRings ..)

/-- A BAR2 read that is turned away answers zeros and leaves the record of it. -/
theorem bar2Read_logs {n y : Nat} (h : s.chip.bar2Read s.env x.toNat n =
    (s.chip.linkSeen.regionViol reqBAR2 y false).withReply (List.replicate n 0) false) :
    Logs (.bar2Read x n []) s (s.chip.linkSeen.withReply (List.replicate n 0) false) := by
  obtain ⟨f, hx, hf⟩ := exec_bar2Read hs x n
  rw [h] at hf
  exact Logs.of_keepsEventRings hx (hf ▸ (Chip.regionViol_recorded ..).withReply ..)
    (hf ▸ (Chip.regionViol_keepsEventRings ..).withReply ..)

variable {bs : List Byte} (hi : s.chip.drc.initDone = true) (hb : bs ≠ [])
  (hm : firstRefused (mayWrite reqBAR2) (s.chip.bar2Addr x.toNat) bs.length = none)
include hi hb hm

theorem bar2Write_does (hg : ∀ k, k < bs.length → s.chip.guardOf (s.chip.bar2Addr x.toNat + k) = none) :
    Does (.bar2Write x bs []) s
      ((s.chip.linkSeen.noteLoading (s.chip.bar2Addr x.toNat) bs.length).issue (.dram (s.chip.bar2Addr x.toNat) bs)) := by
  obtain ⟨f, hx, hf⟩ := exec_bar2Write hs x bs
  have hq : s.chip.linkSeen.Quiet := (State.settled_iff.mp hs).seenBy .host
  have hfree : firstRefused (fun y => (s.chip.guardOf y).isNone) (s.chip.bar2Addr x.toNat) bs.length = none :=
    firstRefused_eq_none.mpr fun k hk => by rw [hg k hk]; rfl
  rw [s.chip.bar2Write_free hb hi (State.settled_iff.mp hs).derr hm hfree, s.chip.bar2Put_free hb hg] at hf
  exact Does.intro hx hf hq.intake hq.lostPend

/-- Guarded bytes or none: the effect of a write within its rights keeps the stores and the EVENT rings of `bar2Put`. -/
theorem bar2Write_keepsEventRings :
    KeepsEventRings (s.chip.bar2Put (s.chip.bar2Addr x.toNat) bs) (s.chip.bar2Write s.env x.toNat bs) := by
  have hd := (State.settled_iff.mp hs).derr
  cases hg : firstRefused (fun y => (s.chip.guardOf y).isNone) (s.chip.bar2Addr x.toNat) bs.length with
  | none =>
    rw [s.chip.bar2Write_free hb hi hd hm hg]
    exact .refl _
  | some y =>
    rw [s.chip.bar2Write_guarded hb hi hd hm hg]
    exact Chip.guardDrop_keepsEventRings ..

theorem bar2Write_stores (hw : s.chip.unwatched) : Runs (.bar2Write x bs []) s fun t =>
    t.mem.host = s.mem.host ∧ t.mem.nor = s.mem.nor ∧ ∀ y, Memory.read dramDefault t.mem.dram y =
      if s.chip.bar2Addr x.toNat ≤ y ∧ y < s.chip.bar2Addr x.toNat + bs.length ∧ s.chip.guardOf y = none then
        bs.getD (y - s.chip.bar2Addr x.toNat) 0
      else Memory.read dramDefault s.mem.dram y := by
  obtain ⟨f, hx, hf⟩ := exec_bar2Write hs x bs
  have hk := bar2Write_keepsEventRings hs x hi hb hm
  rw [← hf] at hk
  let runs := keptRuns (fun y => (s.chip.guardOf y).isNone) (s.chip.bar2Addr x.toNat) bs
  have hmem : (s.act f).mem = { s.mem with dram := applyRuns s.mem.dram runs } := by
    rw [State.act_mem s f (hk.unwatched (Chip.bar2Put_unwatched hw _ _)), hk.outbox, Chip.bar2Put_outbox,
      (State.settled_iff.mp hs).outbox, List.nil_append, foldl_apply_dram]
  refine ⟨_, hx, by simp only [hmem], by simp only [hmem], fun y => ?_⟩
  simp only [hmem, runs, read_applyRuns_keptRuns, Option.isNone_iff_eq_none]

end

/-- Settles O47: by whether training has ended, and then by the rights and the guards of the bytes reached. -/
theorem barTwoReachesMemory : Obligations.BarTwoReachesMemory := by
  intro s x bs n hs
  have hc := State.settled_iff.mp hs
  have hq : s.chip.linkSeen.Quiet := hc.seenBy .host
  refine ⟨fun hi => ⟨fun hb => ?_, fun hn => ?_⟩,
    fun hi => ⟨fun hb hm => ⟨?_, ?_⟩, fun hr => ?_, fun hm => ?_, fun hr => ?_⟩⟩
  · exact bar2Write_logs hs x (s.chip.bar2Write_untrained hb hi)
  · exact bar2Read_logs hs x (s.chip.bar2Read_untrained hn hi)
  · exact bar2Write_does hs x hi hb (firstRefused_eq_none.mpr hm)
  · exact bar2Write_stores hs x hi hb (firstRefused_eq_none.mpr hm)
  · have hb : bs ≠ [] := by
      rintro rfl
      obtain ⟨k, hk, _⟩ := hr
      exact absurd hk (Nat.not_lt_zero k)
    obtain ⟨y, hy⟩ := exists_firstRefused hr
    exact bar2Write_logs hs x (s.chip.bar2Write_refused hb hi hy)
  · obtain ⟨f, hx, hf⟩ := exec_bar2Read hs x n
    rw [s.chip.bar2Read_allowed hi hc.derr hc.outbox (firstRefused_eq_none.mpr hm)] at hf
    exact Does.intro hx hf hq.intake hq.lostPend
  · obtain ⟨y, hy⟩ := exists_firstRefused hr
    exact bar2Read_logs hs x (s.chip.bar2Read_refused hi hy)

end Sys2Proof.Machine
end

section
/-! PROOF. What a completion leaves (R327, R331, R335): the engine's part of the module, a descriptor that ends on a ring that
serves, and the free values drawn on the way. -/

namespace Sys2Proof.Machine

/-! ### The engine's part of the module -/

/-- The registers of the ring windows that place and size rings: HST_RING_CFG, HST_RING_CTRL, HST_RING_BASE and HST_RING_CQ. -/
def placesRing (a : Nat) : Bool := decide (0xD1000 ≤ a ∧ a < 0xD5000 ∧ a % 0x40 < 0x18)

/-- `d` has the rings of `c` and the registers that place them. -/
structure SameRings (c d : Chip) : Prop where
  rings : d.hst.rings = c.hst.rings
  rd : ∀ a, placesRing a = true → d.rd a = c.rd a

/-- `d` has the stores of `c`, its host interface and the registers that place its rings. -/
structure SameEngine (c d : Chip) : Prop where
  outbox : d.outbox = c.outbox
  hst : d.hst = c.hst
  rd : ∀ a, placesRing a = true → d.rd a = c.rd a

theorem placesRing_iff {a : Nat} : placesRing a = true ↔ 0xD1000 ≤ a ∧ a < 0xD5000 ∧ a % 0x40 < 0x18 := decide_eq_true_iff

theorem placesRing_cfg (k : Fin 256) : placesRing (Reg.HST_RING_CFG k) = true := by
  rw [placesRing_iff, Reg.HST_RING_CFG]
  omega

theorem placesRing_cq (k : Fin 256) :
    placesRing (Reg.HST_RING_CQ_LO k) = true ∧ placesRing (Reg.HST_RING_CQ_LO k + 4) = true := by
  rw [placesRing_iff, placesRing_iff, Reg.HST_RING_CQ_LO]
  omega

/-- The flags and counts of a ring do not place it. -/
theorem placesRing_records (k : Fin 256) : placesRing (Reg.HST_RING_FLAGS k) = false ∧
    placesRing (Reg.HST_RING_DONE_CNT k) = false ∧ placesRing (Reg.HST_RING_ERR_IDX k) = false := by
  simp only [← Bool.not_eq_true, placesRing_iff, Reg.HST_RING_FLAGS, Reg.HST_RING_DONE_CNT, Reg.HST_RING_ERR_IDX]
  omega

namespace SameEngine

variable {c d e : Chip}

theorem refl (c : Chip) : SameEngine c c := ⟨rfl, rfl, fun _ _ => rfl⟩

theorem trans (h : SameEngine c d) (k : SameEngine d e) : SameEngine c e :=
  ⟨k.outbox.trans h.outbox, k.hst.trans h.hst, fun a ha => (k.rd a ha).trans (h.rd a ha)⟩

theorem ite {p : Prop} [Decidable p] (h : SameEngine c d) (k : SameEngine c e) : SameEngine c (if p then d else e) := by
  split <;> assumption

theorem onRing (h : SameEngine c d) (r : Fin 256) (f : Ring → Ring) : SameEngine (c.onRing r f) (d.onRing r f) :=
  ⟨h.outbox, by simp only [Chip.onRing, h.hst], h.rd⟩

theorem issue (h : SameEngine c d) (w : MemWrite) : SameEngine (c.issue w) (d.issue w) :=
  ⟨by simp only [Chip.issue, h.outbox], h.hst, h.rd⟩

theorem sameRings (h : SameEngine c d) : SameRings c d := ⟨by rw [h.hst], h.rd⟩

end SameEngine

theorem Unsent.sameEngine {c d : Chip} (h : Unsent c d) : SameEngine c d :=
  ⟨h.outbox, h.hst, fun a ha => h.rd a (by have := placesRing_iff.mp ha; omega)⟩

namespace SameRings

variable {c d e : Chip}

theorem trans (h : SameRings c d) (k : SameRings d e) : SameRings c e :=
  ⟨k.rings.trans h.rings, fun a ha => (k.rd a ha).trans (h.rd a ha)⟩

theorem onRing (h : SameRings c d) (r : Fin 256) (f : Ring → Ring) : SameRings (c.onRing r f) (d.onRing r f) :=
  ⟨by simp only [Chip.onRing, h.rings], h.rd⟩

variable (h : SameRings c d)
include h

theorem ring (k : Fin 256) : d.ring k = c.ring k := by unfold Chip.ring; rw [h.rings]

theorem cfg (k : Fin 256) : d.rdn (Reg.HST_RING_CFG k) = c.rdn (Reg.HST_RING_CFG k) := by
  unfold Chip.rdn; rw [h.rd _ (placesRing_cfg k)]

theorem isEventRing (k : Fin 256) : d.isEventRing k = c.isEventRing k := by
  unfold Chip.isEventRing Chip.ringType Chip.fld; rw [h.cfg, h.ring]

theorem ringLog2 (k : Fin 256) : d.ringLog2 k = c.ringLog2 k := by unfold Chip.ringLog2 Chip.fld; rw [h.cfg]
theorem ringSize (k : Fin 256) : d.ringSize k = c.ringSize k := by unfold Chip.ringSize; rw [h.ringLog2]
theorem ringLoc (k : Fin 256) : d.ringLoc k = c.ringLoc k := by unfold Chip.ringLoc Chip.bit; rw [h.cfg]

theorem ringCq (k : Fin 256) : d.ringCq k = c.ringCq k := by
  unfold Chip.ringCq Chip.rdPair Chip.rdn; rw [h.rd _ (placesRing_cq k).1, h.rd _ (placesRing_cq k).2]

theorem nextSlot (k : Fin 256) : d.nextSlot k = c.nextSlot k := by
  unfold Chip.nextSlot; rw [h.ringCq, h.ring, h.ringSize]

theorem unwatched (k : c.unwatched) : d.unwatched := fun r => (h.isEventRing r).trans (k r)

theorem serves {r : Fin 256} (k : c.serves r) : d.serves r := by
  unfold Chip.serves
  rw [h.ring, h.ringSize, h.ringLoc]
  obtain ⟨hst, hch, hheld, hwait, hroom, hloc, hun⟩ := k
  exact ⟨hst, hch, hheld, hwait, hroom, hloc, h.unwatched hun⟩

end SameRings

namespace Chip

variable (c : Chip)

theorem serves_unwatched {c : Chip} {r : Fin 256} (h : c.serves r) : c.unwatched := by
  obtain ⟨-, -, -, -, -, -, hun⟩ := h
  exact hun

theorem serves_ringLoc {c : Chip} {r : Fin 256} (h : c.serves r) : c.ringLoc r = false := by
  obtain ⟨-, -, -, -, -, hloc, -⟩ := h
  exact hloc

/-- A ring whose state a change keeps is an EVENT ring as before. -/
theorem isEventRing_onRing {r : Fin 256} {f : Ring → Ring} (h : (f (c.ring r)).state = (c.ring r).state) (k : Fin 256) :
    (c.onRing r f).isEventRing k = c.isEventRing k := by
  have hs : ((c.onRing r f).ring k).state = (c.ring k).state := by
    by_cases hk : k = r
    · rw [hk, onRing_self, h]
    · rw [c.onRing_ne hk]
  unfold isEventRing
  rw [hs]
  rfl

theorem unwatched_onRing {c : Chip} {r : Fin 256} {f : Ring → Ring} (h : c.unwatched)
    (hf : (f (c.ring r)).state = (c.ring r).state) : (c.onRing r f).unwatched :=
  fun k => (c.isEventRing_onRing hf k).trans (h k)

/-! ### Updates that the engine does not see -/

theorem wr_sameEngine {a : Nat} (h : placesRing a = false) (v : Word) : SameEngine c (c.wr a v) :=
  ⟨rfl, rfl, fun b hb => c.rd_wr_ne (fun e => by rw [e, h] at hb; cases hb) v⟩

theorem wrn_sameEngine {a : Nat} (h : placesRing a = false) (v : Nat) : SameEngine c (c.wrn a v) := c.wr_sameEngine h _
theorem sticky_sameEngine {a : Nat} (h : placesRing a = false) (m : Nat) : SameEngine c (c.sticky a m) := c.wr_sameEngine h _
theorem bump_sameEngine {a : Nat} (h : placesRing a = false) : SameEngine c (c.bump a) := c.wr_sameEngine h _

theorem wrPair_sameEngine {a : Nat} (h : placesRing a = false) (k : placesRing (a + 4) = false) (v : Nat) :
    SameEngine c (c.wrPair a v) := (c.wrn_sameEngine h _).trans (wrn_sameEngine _ k _)

theorem tally_sameEngine (b v i n : Nat) : SameEngine c (c.tally b v i n) := (c.tally_unsent b v i n).sameEngine

theorem flagEvent_sameEngine (a : Nat) (i : Inst) (b p : Nat) : SameEngine c (c.flagEvent a i b p) :=
  (c.raise_unsent ..).sameEngine

theorem flag_sameEngine {a : Nat} (h : placesRing a = false) (i : Inst) (b p : Nat) : SameEngine c (c.flag a i b p) :=
  (c.sticky_sameEngine h b).trans (flagEvent_sameEngine ..)

/-- A failure whose status has no flag of its own sends no interrupt. -/
theorem noteFailure_sameEngine (r : Fin 256) (idx : Nat) {status : Nat} (h : statusFlag status = 0) :
    SameEngine c (c.noteFailure r idx status) := by
  simp only [noteFailure, h, if_true]
  exact ((c.wrn_sameEngine (placesRing_records r).2.2 _).trans (wrn_sameEngine _ (by decide) _)).trans
    (flagEvent_sameEngine ..)

theorem noteFull_sameEngine (r : Fin 256) : SameEngine c (c.noteFull r) :=
  SameEngine.ite (c.sticky_sameEngine (placesRing_records r).1 _) (.refl c)

end Chip

/-! ### Free values -/

/-- `d` is `c` but for the number of free values drawn. -/
def Draws (c d : Chip) : Prop := ∃ n, d = { c with fresh := n }

theorem Draws.refl (c : Chip) : Draws c c := ⟨c.fresh, rfl⟩

theorem Draws.trans {c d e : Chip} (h : Draws c d) (k : Draws d e) : Draws c e := by
  obtain ⟨n, rfl⟩ := h
  obtain ⟨m, rfl⟩ := k
  exact ⟨m, rfl⟩

theorem Draws.sameEngine {c d : Chip} (h : Draws c d) : SameEngine c d := by
  obtain ⟨n, rfl⟩ := h
  exact ⟨rfl, rfl, fun _ _ => rfl⟩

theorem Chip.draw_draws (c : Chip) (n : Nat) : Draws c (c.draw n).2 := ⟨_, rfl⟩

/-- An INFO field as written holds what its opcode fills it with, or a free value. -/
theorem Chip.infoOf_spec (c : Chip) (n : Nat) (x : Option Nat) :
    (∀ y, x = some y → (c.infoOf n x).1 = y) ∧ Draws c (c.infoOf n x).2 := by
  cases x with
  | some x => exact ⟨fun _ h => Option.some.inj h, .refl c⟩
  | none => exact ⟨by simp, c.draw_draws n⟩

/-! ### A descriptor that ends on a ring that serves -/

/-- A ring after a completion: nothing in progress, its next slot taken. -/
def Ring.posted (g : Ring) : Ring := { g with cur := none, cqTail := g.cqTail + 1, wbPend := true }

/-- A ring apart from the entries it holds and has in progress. -/
def Ring.emptied (g : Ring) : Ring := { g with fetched := [], cur := none }

/-- A completion as its slot holds it. -/
def Chip.slotBytes (c : Chip) (r : Fin 256) (k : Compl) (i0 i1 : Nat) : List Byte :=
  complBytes k (phaseOf (c.ring r).cqTail.toNat (c.ringLog2 r)) i0 i1

theorem SameRings.slotBytes {c d : Chip} (h : SameRings c d) (r : Fin 256) : d.slotBytes r = c.slotBytes r := by
  funext k x0 x1
  unfold Chip.slotBytes
  rw [h.ring, h.ringLog2]

theorem upd_upd {α : Type} {n : Nat} (v : Vector α n) (i : Fin n) (f g : α → α) : upd (upd v i f) i g = upd v i (g ∘ f) := by
  simp [upd]

theorem upd_eq_self {α : Type} {n : Nat} {v : Vector α n} {i : Fin n} {f : α → α} (h : f v[i] = v[i]) : upd v i f = v := by
  unfold upd
  rw [h]
  exact Vector.set_getElem_self ..

namespace Chip

variable (c : Chip)

theorem onRing_onRing (r : Fin 256) (f g : Ring → Ring) : (c.onRing r f).onRing r g = c.onRing r (g ∘ f) := by
  simp only [onRing, upd_upd]

theorem onRing_eq_self {c : Chip} {r : Fin 256} {f : Ring → Ring} (h : f (c.ring r) = c.ring r) : c.onRing r f = c := by
  simp only [onRing, upd_eq_self (show f c.hst.rings[r] = c.hst.rings[r] from h)]

/-- On a ring in host memory a completion without IRQ is one store, into the next slot. -/
theorem writeCompl_spec (e : Env) {r : Fin 256} {k : Compl} (hl : c.ringLoc r = false) (hi : k.irq = false) :
    ∃ i0 i1, (∀ x, k.info0 = some x → i0 = x) ∧ (∀ x, k.info1 = some x → i1 = x) ∧
      SameEngine ((c.issue (.host (c.nextSlot r) (c.slotBytes r k i0 i1))).onRing r fun g =>
        { g with cqTail := g.cqTail + 1, wbPend := true }) (c.writeCompl e r k) := by
  obtain ⟨h0, d0⟩ := c.infoOf_spec 32 k.info0
  obtain ⟨h1, d1⟩ := (c.infoOf 32 k.info0).2.infoOf_spec 64 k.info1
  have hd := (d0.trans d1).sameEngine
  refine ⟨_, _, h0, h1, ?_⟩
  simp only [writeCompl, hi, Bool.false_eq_true, if_false]
  refine SameEngine.trans ?_ (((noteFull_sameEngine _ r).trans (bump_sameEngine _ (placesRing_records r).2.1)).trans
    (tally_sameEngine ..))
  refine SameEngine.onRing ?_ r _
  have hloc := (hd.sameRings.ringLoc r).trans hl
  simp only [ringWrite, ringWriteAs, hloc, Bool.false_eq_true, if_false, hd.sameRings.ringCq, hd.sameRings.ringSize,
    hd.sameRings.ringLog2]
  exact hd.issue _

/-- A ring with its completions in order and a free slot posts at once. -/
theorem post_serves (e : Env) {r : Fin 256} (k : Compl) (h : c.serves r) : c.post e r k = c.writeCompl e r k := by
  obtain ⟨hst, -, hheld, hwait, hroom, -, -⟩ := h
  have hnow : c.postNow e r k = c.writeCompl e r k := by simp [postNow, hst, hheld, hroom]
  unfold post
  split
  · have hone : noteDone k (c.ring r).wait = [(k.idx, some k)] := by simp [hwait, noteDone]
    have hback : (c.onRing r fun g => { g with wait := noteDone k g.wait }).onRing r (fun g => { g with wait := [] }) = c := by
      rw [onRing_onRing]
      exact onRing_eq_self (by simp only [Function.comp, ← hwait])
    simp only [onRing_self, hone, List.length_singleton, postReady, hback, hnow]
  · exact hnow

/-- With no entry in hand the engine finds nothing to reject, and an enabled ring stays as it is. -/
theorem look_idle (e : Env) {r : Fin 256} (hf : (c.ring r).fetched = []) (hs : (c.ring r).state = .enabled) :
    c.look e r = c := by
  simp [look, hf, rejectOps, ringIdle, hs]

/-- Whether a ring serves does not depend on the entries it holds and has in progress. -/
theorem serves_onRing {c : Chip} {r : Fin 256} {f : Ring → Ring} (hf : (f (c.ring r)).emptied = (c.ring r).emptied) :
    (c.onRing r f).serves r ↔ c.serves r := by
  have hstate : (f (c.ring r)).state = (c.ring r).state := (congrArg Ring.state hf :)
  have hchain : (f (c.ring r)).chain = (c.ring r).chain := (congrArg Ring.chain hf :)
  have hheld : (f (c.ring r)).held = (c.ring r).held := (congrArg Ring.held hf :)
  have hwait : (f (c.ring r)).wait = (c.ring r).wait := (congrArg Ring.wait hf :)
  have hused : (f (c.ring r)).cqUsed = (c.ring r).cqUsed := (congrArg Ring.cqUsed hf :)
  unfold serves
  simp only [onRing_self, hstate, hchain, hheld, hwait, hused, isEventRing_onRing c hstate]
  exact Iff.rfl

/-- The next slot and what it will hold are the same whatever entries the ring holds and has in progress. -/
theorem slot_onRing {r : Fin 256} {f : Ring → Ring} (hf : (f (c.ring r)).emptied = (c.ring r).emptied) :
    (c.onRing r f).nextSlot r = c.nextSlot r ∧ (c.onRing r f).slotBytes r = c.slotBytes r := by
  have htail : ((c.onRing r f).ring r).cqTail = (c.ring r).cqTail := by
    rw [onRing_self]
    exact (congrArg Ring.cqTail hf :)
  constructor
  · unfold nextSlot
    rw [htail]
    rfl
  · funext k x0 x1
    unfold slotBytes
    rw [htail]
    rfl

/-- A descriptor that ends on a ring that serves, with nothing behind it, posts one completion. -/
theorem finish_serves (e : Env) {r : Fin 256} {d : Desc} {status : Nat} (i0 i1 : Option Nat) (h : c.serves r)
    (hf : (c.ring r).fetched = []) (hi : d.irq = false) (hs : statusFlag status = 0) :
    ∃ x0 x1, (∀ x, i0 = some x → x0 = x) ∧ (∀ x, i1 = some x → x1 = x) ∧
      SameEngine ((c.issue (.host (c.nextSlot r) (c.slotBytes r ⟨d.idx, status, false, true, i0, i1⟩ x0 x1))).onRing r
        Ring.posted) (c.finish e r d status i0 i1) := by
  let k : Compl := ⟨d.idx, status, false, true, i0, i1⟩
  let c0 := c.onRing r fun g => { g with cur := none }
  let c1 := if statusFails status then c0.noteFailure r d.idx status else c0
  have h01 : SameEngine c0 c1 := SameEngine.ite (c0.noteFailure_sameEngine r d.idx hs) (.refl c0)
  have hserves : c1.serves r := h01.sameRings.serves ((serves_onRing rfl).mpr h)
  obtain ⟨x0, x1, h0, h1, hw⟩ := c1.writeCompl_spec e (k := k) (serves_ringLoc hserves) rfl
  obtain ⟨hslot, hbytes⟩ := c.slot_onRing (r := r) (f := fun g => { g with cur := none }) rfl
  rw [h01.sameRings.nextSlot, h01.sameRings.slotBytes, hslot, hbytes] at hw
  have hend : SameEngine ((c.issue (.host (c.nextSlot r) (c.slotBytes r k x0 x1))).onRing r Ring.posted)
      (c1.writeCompl e r k) := by
    have := ((h01.issue (.host (c.nextSlot r) (c.slotBytes r k x0 x1))).onRing r _).trans hw
    rwa [show c0.issue _ = (c.issue _).onRing r _ from rfl, onRing_onRing] at this
  refine ⟨x0, x1, h0, h1, ?_⟩
  have hfin : c.finish e r d status i0 i1 = c1.writeCompl e r k := by
    have hring : (c1.writeCompl e r k).ring r = (c.ring r).posted := (hend.sameRings.ring r).trans (onRing_self ..)
    obtain ⟨henabled, hchain, -⟩ := h
    simp only [finish, hchain]
    rw [hi, post_serves _ e _ hserves]
    exact look_idle _ e (by rw [hring]; exact hf) (by rw [hring]; exact henabled)
  rw [hfin]
  exact hend

end Chip

/-! ### What the engine leaves alone -/

/-- `d` differs from `c` at most where the engine may change it: in the free values drawn, and where the recorder may. -/
def EngineOnly (c d : Chip) : Prop := Recorded { c with fresh := d.fresh } d

theorem Recorded.engineOnly {c d : Chip} (h : Recorded c d) : EngineOnly c d := by
  unfold EngineOnly
  rwa [h.fresh]

theorem Draws.engineOnly {c d : Chip} (h : Draws c d) : EngineOnly c d := by
  obtain ⟨n, rfl⟩ := h
  exact .refl _

namespace EngineOnly

variable {c d e : Chip}

theorem refl (c : Chip) : EngineOnly c c := (Recorded.refl c).engineOnly

theorem trans (h : EngineOnly c d) (k : EngineOnly d e) : EngineOnly c e := by
  have h' : Recorded { c with fresh := e.fresh } { d with fresh := e.fresh } :=
    ⟨congrArg (fun x : Chip => { x with fresh := e.fresh }) h.rest, h.rd⟩
  exact h'.trans k

theorem ite {p : Prop} [Decidable p] (h : EngineOnly c d) (k : EngineOnly c e) : EngineOnly c (if p then d else e) := by
  split <;> assumption

theorem hd (h : EngineOnly c d) : d.hd = c.hd := (Recorded.hd h :)
theorem scn (h : EngineOnly c d) : d.scn = c.scn := (Recorded.scn h :)
theorem reg (h : EngineOnly c d) : d.reg = c.reg := (Recorded.reg h :)

end EngineOnly

namespace Chip

variable (e : Env) (c : Chip)

theorem onRing_engineOnly (r : Fin 256) (f : Ring → Ring) : EngineOnly c (c.onRing r f) := (c.onRing_recorded r f).engineOnly

theorem noteFailure_recorded (r : Fin 256) (idx status : Nat) : Recorded c (c.noteFailure r idx status) := by
  unfold noteFailure
  have h := (c.wrn_recorded (ring_regs r).2.2.2 (idx % 2 ^ 16 + status * 2 ^ 16)).trans
    (wrn_recorded _ (a := Reg.HST_ERR_RING) (by decide) r)
  refine h.trans (Recorded.ite (flagEvent_recorded ..) ?_)
  exact (Recorded.ite (sticky_recorded _ (ring_regs r).1 _) (.refl _)).trans (hstFlag_recorded ..)

theorem writeCompl_engineOnly (r : Fin 256) (k : Compl) : EngineOnly c (c.writeCompl e r k) := by
  have hi := ((c.infoOf_spec 32 k.info0).2.trans ((c.infoOf 32 k.info0).2.infoOf_spec 64 k.info1).2).engineOnly
  have hw (c : Chip) (a : Nat) (bs : List Byte) := ((c.ringWrite_recorded e r a bs).trans
    (onRing_recorded _ r fun g => { g with cqTail := g.cqTail + 1, wbPend := true })).trans (noteFull_recorded _ r)
  have ht (c : Chip) : Recorded c ((c.bump (Reg.HST_RING_DONE_CNT r)).tally blkHST 0x10 r (b2n k.final)) :=
    (c.bump_recorded (ring_regs r).2.1).trans (tally_recorded ..)
  have hirq {d : Chip} (h : EngineOnly c d) : EngineOnly c (if k.irq then d.ringIrq r else d) :=
    .ite (h.trans (d.ringIrq_recorded r).engineOnly) h
  exact hirq (hi.trans ((hw _ _ _).trans (ht _)).engineOnly)

theorem postNow_engineOnly (r : Fin 256) (k : Compl) : EngineOnly c (c.postNow e r k) := by
  unfold postNow
  refine .ite (.refl c) (.ite (c.writeCompl_engineOnly e r k) (.ite ?_ ?_))
  · exact ((c.noteDrop_recorded r).trans (tally_recorded ..)).engineOnly
  · exact ((c.sticky_recorded (ring_regs r).1 _).trans (onRing_recorded ..)).engineOnly

theorem postReady_engineOnly (r : Fin 256) (n : Nat) : EngineOnly c (Chip.postReady e r n c) := by
  induction n generalizing c with
  | zero => exact .refl c
  | succ n ih =>
    unfold postReady
    split
    · exact ((c.onRing_engineOnly r _).trans (postNow_engineOnly ..)).trans (ih _)
    · exact .refl c

theorem post_engineOnly (r : Fin 256) (k : Compl) : EngineOnly c (c.post e r k) :=
  .ite ((c.onRing_engineOnly r _).trans (postReady_engineOnly ..)) (c.postNow_engineOnly e r k)

theorem ringIdle_engineOnly (r : Fin 256) : EngineOnly c (c.ringIdle r) := .ite (c.onRing_engineOnly r _) (.refl c)

theorem rejectOps_engineOnly (r : Fin 256) (n : Nat) : EngineOnly c (Chip.rejectOps e r n c) := by
  induction n generalizing c with
  | zero => exact .refl c
  | succ n ih =>
    unfold rejectOps
    refine .ite ?_ (.refl c)
    split
    · exact .refl c
    · refine .ite (.refl c) ?_
      exact (((c.onRing_recorded r _).trans (noteFailure_recorded ..)).engineOnly.trans (post_engineOnly ..)).trans (ih _)

theorem look_engineOnly (r : Fin 256) : EngineOnly c (c.look e r) :=
  (c.rejectOps_engineOnly e r _).trans (ringIdle_engineOnly ..)

/-- A completion of an entry in hand, and the engine's look at the next. -/
theorem complete_engineOnly (r : Fin 256) (f : Ring → Ring) (idx status : Nat) (k : Compl) :
    EngineOnly c (((if statusFails status then (c.onRing r f).noteFailure r idx status else c.onRing r f).post e r k).look e r) := by
  have h : Recorded (c.onRing r f) (if statusFails status then (c.onRing r f).noteFailure r idx status else c.onRing r f) :=
    Recorded.ite (noteFailure_recorded ..) (.refl _)
  exact (((c.onRing_recorded r f).trans h).engineOnly.trans (post_engineOnly ..)).trans (look_engineOnly ..)

theorem hostRead_recorded (r a n : Nat) (u : ReadUse) : Recorded c (c.hostRead r a n u) :=
  Recorded.ite ((c.tally_recorded ..).trans (withHst_recorded ..)) (c.withHst_recorded _)

theorem chainEnd_engineOnly (r : Fin 256) (d : Desc) (status steps : Nat) (info1 : Option Nat) :
    EngineOnly c (c.chainEnd e r d status steps info1) := c.complete_engineOnly ..

theorem chainPlace_engineOnly (r : Fin 256) (d : Desc) (k : ChainRun) (bs : List Byte) :
    EngineOnly c (c.chainPlace e r d k bs) := .ite (c.onRing_engineOnly r _) (c.chainEnd_engineOnly ..)

theorem chainNext_engineOnly (r : Fin 256) (d : Desc) (k : ChainRun) : EngineOnly c (c.chainNext e r d k) := by
  unfold chainNext
  dsimp only
  refine (c.onRing_engineOnly r fun g => { g with chain := some (d, k), chainHead := none, cur := none }).trans (.ite ?_ ?_)
  · split
    · exact (regionViol_recorded ..).engineOnly.trans (chainEnd_engineOnly ..)
    · have h := fun c : Chip => (c.dramRead_recorded e reqHST k.addr 32).engineOnly
      exact .ite ((h _).trans (chainPlace_engineOnly ..)) ((h _).trans (chainEnd_engineOnly ..))
  · exact ((onRing_recorded ..).trans (hostRead_recorded ..)).engineOnly

/-- However a descriptor ends, nothing but the engine changes. -/
theorem finish_engineOnly (r : Fin 256) (d : Desc) (status : Nat) (i0 i1 : Option Nat) :
    EngineOnly c (c.finish e r d status i0 i1) := by
  unfold finish
  dsimp only
  split
  · exact c.complete_engineOnly ..
  · exact .ite (c.chainNext_engineOnly ..) (c.chainEnd_engineOnly ..)

end Chip

/-! ### Entries taken in hand (R331, R332) -/

/-- The module with the turn of a ring taken and the entry in hand off its queue. -/
def Chip.taken (c : Chip) (r : Fin 256) : Chip := (c.takeTurn r).onRing r fun g => { g with fetched := [] }

theorem Chip.taken_ring (c : Chip) (r : Fin 256) : (c.taken r).ring r = { c.ring r with fetched := [] } :=
  Chip.onRing_self ..

/-- A row runs the descriptor that stands alone in hand. -/
theorem Chip.begin_holds {c : Chip} {r : Fin 256} {d : Desc} {op : Nat} (h : c.holds r d op) (f : Desc → Chip → Chip) :
    c.begin r op f = f d (c.taken r) := by
  obtain ⟨⟨-, hchain, -⟩, hturn, hfetched, hcur, -, hop⟩ := h
  have hhand : (c.ring r).hand = some d := by simp [Ring.hand, hcur, hchain, hfetched]
  have htake : (c.ring r).take = { c.ring r with fetched := [] } := by simp [Ring.take, hchain, hfetched]
  have htaken : (c.takeTurn r).onRing r Ring.take = c.taken r := by
    simp only [taken, onRing, upd]
    rw [show (c.takeTurn r).hst.rings[r] = c.ring r from rfl, htake]
  simp [begin, hhand, hop, hturn, htaken]

theorem Chip.taken_serves {c : Chip} {r : Fin 256} (h : c.serves r) : (c.taken r).serves r :=
  (serves_onRing (c := c.takeTurn r) rfl).mpr h

theorem Chip.Quiet.taken {c : Chip} (h : c.Quiet) (r : Fin 256) : (c.taken r).Quiet := h.congr rfl rfl rfl

/-! ### What a command posts -/

section

variable {s : State} {f : Env → Chip → Chip} {c : Chip} {r : Fin 256} {d : Desc} {status : Nat} {i0 i1 : Option Nat}
  (hs : s.chip.serves r) (hr : SameRings (s.chip.onRing r Ring.emptied) (c.onRing r Ring.emptied))
  (hfetched : (c.ring r).fetched = []) (hi : d.irq = false) (hst : statusFlag status = 0)
  (hf : f s.env s.chip = c.finish s.env r d status i0 i1)

include hs hr in
theorem serves_of_sameRings : c.serves r :=
  (Chip.serves_onRing (f := Ring.emptied) rfl).mp (hr.serves ((Chip.serves_onRing rfl).mpr hs))

include hs hr hfetched hi hst hf in
/-- What ends a descriptor on a ring that serves leaves the leases alone. -/
theorem leases_of_finish : (s.act f).chip.hst.leases = c.hst.leases := by
  have hc := serves_of_sameRings hs hr
  obtain ⟨x0, x1, -, -, he⟩ := c.finish_serves s.env i0 i1 hc hfetched hi hst
  have hun := he.sameRings.unwatched (Chip.unwatched_onRing (Chip.serves_unwatched hc) rfl)
  rw [State.act_hst s f (hf ▸ hun), hf, he.hst]
  rfl

include hs hr hfetched hi hst hf in
/-- A command that ends a descriptor on a ring that serves posts its completion, over its own stores. -/
theorem Posts.of_finish (ho : (c.outbox.foldl MemWrite.apply s.mem).host = s.mem.host) :
    Posts s (s.act f) r d.idx status i0 i1 := by
  have hc := serves_of_sameRings hs hr
  obtain ⟨x0, x1, h0, h1, he⟩ := c.finish_serves s.env i0 i1 hc hfetched hi hst
  have hun := he.sameRings.unwatched (Chip.unwatched_onRing (Chip.serves_unwatched hc) rfl)
  rw [← hf] at hun he
  obtain ⟨hslot, hbytes⟩ : c.nextSlot r = s.chip.nextSlot r ∧ c.slotBytes r = s.chip.slotBytes r := by
    obtain ⟨hsc, hbc⟩ := c.slot_onRing (r := r) (f := Ring.emptied) rfl
    obtain ⟨hss, hbs⟩ := s.chip.slot_onRing (r := r) (f := Ring.emptied) rfl
    exact ⟨hsc.symm.trans ((hr.nextSlot r).trans hss), hbc.symm.trans ((hr.slotBytes r).trans hbs)⟩
  have hring : (c.ring r).emptied = (s.chip.ring r).emptied := by
    have := hr.ring r
    rwa [Chip.onRing_self, Chip.onRing_self] at this
  refine ⟨?_, x0, x1, h0, h1, ?_⟩
  · calc (s.act f).chip.ring r = (f s.env s.chip).ring r := by unfold Chip.ring; rw [State.act_hst s f hun]
      _ = (c.ring r).posted := (he.sameRings.ring r).trans (Chip.onRing_self ..)
      _ = (c.ring r).emptied.posted := by unfold Ring.posted Ring.emptied; rw [hfetched]
      _ = (s.chip.ring r).emptied.posted := by rw [hring]
  · have hout : (f s.env s.chip).outbox = c.outbox ++ [.host (s.chip.nextSlot r)
        (s.chip.slotBytes r ⟨d.idx, status, false, true, i0, i1⟩ x0 x1)] := by rw [he.outbox, hslot, hbytes]; rfl
    rw [State.act_mem s f hun, hout, List.foldl_append, ← ho]
    rfl

end

end Sys2Proof.Machine
end

section
/-! PROOF. Lattice loads (R129, R130, R141): LATTICE_LOAD and the end of its copy. -/

namespace Sys2Proof.Machine

theorem inst?_val {n : Nat} (i : Fin n) : inst? n i = some i := by simp [inst?]

/-- A LATTICE_LOAD under way: it copies from address `a`, and its bank is LOADING and holds nothing (R130). -/
def Chip.loadBegun (c : Chip) (r : Fin 256) (h : Fin 64) (b : Fin 2) (a : Nat) : Chip :=
  ({ c with scn := { c.scn with loads := c.scn.loads ++ [⟨r, h, b, a, true, true⟩] } } : Chip).onHead h fun x =>
    x.onBank b fun _ => ⟨.loading, []⟩

/-- A LATTICE_LOAD taken from those that copy. -/
def Chip.loadEnded (c : Chip) (k : LatLoad) : Chip := { c with scn := { c.scn with loads := c.scn.loads.erase k } }

namespace Chip

variable {c : Chip} {r : Fin 256} {d : Desc} {h : Fin 64} {b : Fin 2}

section

variable (e : Env) (hh : leAt d.bytes 4 1 = h) (hb : leAt d.bytes 5 1 = b) (hon : c.headOn h = true)
  (hclean : d.clean [(4, 5), (8, 15)] = true)
include hh hb hon hclean

/-- A LATTICE_LOAD into a bank that may not be loaded is refused. -/
theorem latticeLoad_busy (hbusy : c.bankBusy h b = true) : c.latticeLoad e r d = c.finish e r d 0x02 none none := by
  simp [latticeLoad, hh, hb, inst?_val, hclean, hon, hbusy]

/-- A LATTICE_LOAD accepted: the bank is LOADING and holds nothing. -/
theorem latticeLoad_accepts (hfree : c.bankBusy h b = false) (hal : leAt d.bytes 8 8 % 32 = 0)
    (hfit : leAt d.bytes 8 8 + imageLen ≤ 2 ^ 35) :
    c.latticeLoad e r d = (c.loadBegun r h b (leAt d.bytes 8 8)).await r d (.lattice h b) := by
  have hbad : ¬ (leAt d.bytes 8 8 % 32 ≠ 0 ∨ 2 ^ 35 < leAt d.bytes 8 8 + imageLen) := by omega
  simp only [latticeLoad, hh, hb, inst?_val, hclean, hon, hfree, if_neg hbad, Bool.not_true, Bool.false_eq_true, if_false]
  rfl

end

/-- The status of a LATTICE_LOAD whose bytes may all be read (R141). -/
def loadCode (k : LatLoad) (x : DramData) : Nat := if k.live then (if x.ok then imageCode x.bytes else 0x04) else 0x4D

/-- What the end of a copy leaves in its bank. -/
def loadBank (k : LatLoad) (x : DramData) (c : Chip) : Chip :=
  if k.live = false then c
  else c.onHead k.head fun y => y.onBank k.bank fun _ => if loadCode k x = 0 then ⟨.ready, x.bytes⟩ else ⟨.empty, []⟩

/-- The codes of a lattice's checks name no flag of HST_FLAGS. -/
theorem statusFlag_loadCode (k : LatLoad) (x : DramData) : statusFlag (loadCode k x) = 0 := by
  have him : statusFlag (imageCode x.bytes) = 0 := by
    unfold imageCode
    dsimp only
    repeat' split
    all_goals rfl
  unfold loadCode
  split
  · split
    · exact him
    · rfl
  · rfl

/-- The end of a copy within its rights settles the bank and ends the load with the code of R141. -/
theorem latticeDone_allowed (e : Env) {k : LatLoad} (hq : c.Quiet) (hk : c.scn.loads.find? (·.ring == r.val) = some k)
    (hm : firstRefused (mayRead reqLattice) k.addr imageLen = none) :
    c.latticeDone e r = (loadBank k (c.dramRead e reqLattice k.addr imageLen).2 c).latticeEnd e r k
      (loadCode k (c.dramRead e reqLattice k.addr imageLen).2) := by
  have hread : (c.dramRead e reqLattice k.addr imageLen).1 = c ∧ (c.dramRead e reqLattice k.addr imageLen).2.ok = true := by
    rw [dramRead_quiet e reqLattice _ _ hq.derr hq.outbox hm]
    exact ⟨rfl, rfl⟩
  cases hl : k.live with
  | false => simp [latticeDone, hk, hl, loadBank, loadCode]
  | true => simp [latticeDone, hk, hl, loadBank, loadCode, hm, hread]

/-- A load that ends is no longer among those that copy, and nothing but the engine changes beside. -/
theorem latticeEnd_engineOnly (e : Env) (c : Chip) (r : Fin 256) (k : LatLoad) (code : Nat) :
    EngineOnly (c.loadEnded k) (c.latticeEnd e r k code) := by
  unfold latticeEnd
  dsimp only
  split
  · exact .ite (finish_engineOnly ..) (.refl _)
  · exact .refl _

/-- A load whose descriptor still waits ends it. -/
theorem latticeEnd_waiting (e : Env) {c : Chip} {k : LatLoad} (code : Nat) (ho : k.owned = true) {h b : Nat}
    (hcur : (c.ring r).cur = some ⟨d, .lattice h b⟩) :
    c.latticeEnd e r k code = (c.loadEnded k).finish e r d code none none := by
  unfold Chip.ring at hcur
  simp only [latticeEnd, Chip.ring, hcur, ho, if_true]
  rfl

theorem loadBank_sameEngine (k : LatLoad) (x : DramData) (c : Chip) : SameEngine c (loadBank k x c) :=
  .ite (.refl c) ⟨rfl, rfl, fun _ _ => rfl⟩

/-- The heads after a copy: a load that is live leaves its bank READY with the image, or EMPTY (R130). -/
theorem loadBank_hd (k : LatLoad) (x : DramData) (c : Chip) :
    let ends (b : Bank) : Vector Head 64 := (c.onHead k.head fun y => { y with banks := upd y.banks k.bank fun _ => b }).hd
    (loadBank k x c).hd =
      if k.live = false then c.hd else if loadCode k x = 0 then ends ⟨.ready, x.bytes⟩ else ends ⟨.empty, []⟩ := by
  unfold loadBank
  split
  · rfl
  · split <;> rfl

theorem loadBank_scn (k : LatLoad) (x : DramData) (c : Chip) : (loadBank k x c).scn = c.scn := by
  unfold loadBank
  split <;> rfl

end Chip

/-! ### The two commands -/

/-- The effect of LATTICE_LOAD on the descriptor in hand. -/
theorem exec_latticeLoad {s : State} {r : Fin 256} {d : Desc} (hholds : s.chip.holds r d 0x21) :
    ∃ f, exec (.latticeLoad r) s = .next (s.act f) ∧ f s.env s.chip = (s.chip.taken r).latticeLoad s.env r d :=
  ⟨fun e c => c.begin r 0x21 fun d c => c.latticeLoad e r d, rfl, Chip.begin_holds hholds _⟩

section

variable {s : State} (hs : s.settled = true) {r : Fin 256} {d : Desc}
include hs

section

variable {h : Fin 64} {b : Fin 2} (hh : leAt d.bytes 4 1 = h) (hb : leAt d.bytes 5 1 = b) (hon : s.chip.headOn h = true)
  (hholds : s.chip.holds r d 0x21) (hclean : d.clean [(4, 5), (8, 15)] = true)
include hh hb hon hholds hclean

theorem latticeLoad_refuses (hbusy : s.chip.bankBusy h b = true) :
    Runs (.latticeLoad r) s fun t => Posts s t r d.idx 0x02 none none ∧ t.chip.hd = s.chip.hd := by
  obtain ⟨f, hx, hf⟩ := exec_latticeLoad hholds
  rw [Chip.latticeLoad_busy (c := s.chip.taken r) _ hh hb hon hclean hbusy] at hf
  obtain ⟨hserves, -, -, -, hirq, -⟩ := hholds
  refine ⟨_, hx, Posts.of_finish hserves ?_ ?_ hirq rfl hf ?_, ?_⟩
  · exact ⟨by rw [Chip.taken, Chip.onRing_onRing]; rfl, fun _ _ => rfl⟩
  · rw [Chip.taken_ring]
  · rw [((State.settled_iff.mp hs).taken r).outbox]
    rfl
  · rw [(State.act_recorded s f).hd]
    exact (congrArg Chip.hd hf).trans (Chip.finish_engineOnly ..).hd

theorem latticeLoad_begins (hfree : s.chip.bankBusy h b = false) (hal : leAt d.bytes 8 8 % 32 = 0)
    (hfit : leAt d.bytes 8 8 + imageLen ≤ 2 ^ 35) :
    let c := (((s.chip.takeTurn r).onRing r fun g => { g with fetched := [], cur := some ⟨d, .lattice h b⟩ }).onHead h
      fun x => { x with banks := upd x.banks b fun _ => ⟨.loading, []⟩ })
    Does (.latticeLoad r) s { c with scn := { s.chip.scn with
      loads := s.chip.scn.loads ++ [⟨r, h, b, leAt d.bytes 8 8, true, true⟩] } } := by
  obtain ⟨f, hx, hf⟩ := exec_latticeLoad hholds
  rw [Chip.latticeLoad_accepts (c := s.chip.taken r) _ hh hb hon hclean hfree hal hfit] at hf
  have hq := State.settled_iff.mp hs
  refine Does.intro hx (hf.trans ?_) hq.intake hq.lostPend
  exact congrArg (Chip.loadBegun · r h b (leAt d.bytes 8 8)) (Chip.onRing_onRing (s.chip.takeTurn r) r
    (fun g => { g with fetched := [] }) fun g => { g with cur := some ⟨d, .lattice h b⟩ })

end

theorem latticeLoadComplete_settles {k : LatLoad} (hk : s.chip.scn.loads.find? (·.ring == r.val) = some k)
    (hm : firstRefused (mayRead reqLattice) k.addr imageLen = none) :
    let x := (s.chip.dramRead s.env reqLattice k.addr imageLen).2
    Runs (.latticeLoadComplete r []) s fun t =>
      t.chip.scn = { s.chip.scn with loads := s.chip.scn.loads.erase k } ∧ t.chip.hd = (Chip.loadBank k x s.chip).hd ∧
      (k.owned = true → s.chip.works r d (.lattice k.head k.bank) → Posts s t r d.idx (Chip.loadCode k x) none none) := by
  intro x
  let f : Env → Chip → Chip := fun e c => ({ c with derr := [] } : Chip).latticeDone e r
  have hx : exec (.latticeLoadComplete r []) s = .next (s.act f) := rfl
  have hq := State.settled_iff.mp hs
  have hf : f s.env s.chip = (Chip.loadBank k x s.chip).latticeEnd s.env r k (Chip.loadCode k x) :=
    (congrArg (Chip.latticeDone s.env · r) (Chip.withDerr_nil hq.derr)).trans (Chip.latticeDone_allowed s.env hq hk hm)
  have hrest := Chip.latticeEnd_engineOnly s.env (Chip.loadBank k x s.chip) r k (Chip.loadCode k x)
  rw [← hf] at hrest
  refine ⟨_, hx, ?_, ?_, fun ho hw => ?_⟩
  · rw [(State.act_recorded s f).scn]
    exact hrest.scn.trans (congrArg (fun x : Scn => { x with loads := x.loads.erase k }) (Chip.loadBank_scn k x s.chip))
  · rw [(State.act_recorded s f).hd]
    exact hrest.hd
  · obtain ⟨hserves, hfetched, hcur, hirq⟩ := hw
    have hbank := Chip.loadBank_sameEngine k x s.chip
    rw [Chip.latticeEnd_waiting _ _ ho ((congrArg Ring.cur (hbank.sameRings.ring r)).trans hcur)] at hf
    have hended : SameEngine s.chip ((Chip.loadBank k x s.chip).loadEnded k) := hbank.trans ⟨rfl, rfl, fun _ _ => rfl⟩
    refine Posts.of_finish hserves (hended.sameRings.onRing r _) ?_ hirq (Chip.statusFlag_loadCode k x) hf ?_
    · exact (congrArg Ring.fetched (hended.sameRings.ring r)).trans hfetched
    · rw [hended.outbox, hq.outbox]
      rfl

end

end Sys2Proof.Machine
end

section
/-! PROOF. Registration runs (R144 to R149): REGISTER starts a run as an armed layer, and its end is reported. -/

namespace Sys2Proof.Machine

namespace Chip

variable (e : Env) (c : Chip)

/-! ### Free values of a run (R144, R147) -/

theorem visitDwell_draws (us cam : Nat) : Draws c (c.visitDwell us cam).2 := by
  unfold visitDwell
  split
  · exact .refl c
  · split
    · exact .refl c
    · exact c.draw_draws 32

theorem visitDwells_draws (us : Nat) (fs : List Fiducial) (vs : List Visit) : Draws c (Chip.visitDwells us fs vs c).2 := by
  induction vs generalizing c with
  | nil => exact .refl c
  | cons v vs ih => exact (c.visitDwell_draws ..).trans (ih _)

theorem measure_draws (x : RegRun) (ms : RegFindings) (v : Visit) (k : Nat) : Draws c (c.measure x ms v k).2 := by
  unfold measure
  dsimp only
  split
  · split
    · exact (c.draw_draws 32).trans (draw_draws _ 32)
    · exact .refl c
  · exact .refl c

theorem measures_draws (x : RegRun) (ms : RegFindings) (vs : List (Visit × Nat)) : Draws c (Chip.measures x ms vs c).2 := by
  induction vs generalizing c with
  | nil => exact .refl c
  | cons v vs ih => exact (c.measure_draws ..).trans (ih _)

theorem orOpen_draws (x : Option Nat) : Draws c (c.orOpen x).2 := by
  cases x with
  | some x => exact .refl c
  | none => exact c.draw_draws 32

theorem headEntries_draws (x : RegRun) (ms : List (Visit × Measure)) (hs : List (Fin 64)) :
    Draws c (Chip.headEntries x ms hs c).2 := by
  induction hs generalizing c with
  | nil => exact .refl c
  | cons h hs ih => exact ((c.orOpen_draws _).trans (draw_draws _ 192)).trans (ih _)

theorem visitLines_draws (fs : List Fiducial) (vs : List (Visit × Measure)) : Draws c (Chip.visitLines fs vs c).2 := by
  induction vs generalizing c with
  | nil => exact .refl c
  | cons v vs ih => exact (c.draw_draws 64).trans (ih _)

/-- The record of a run draws free values alone. -/
theorem regRecord_draws (x : RegRun) (ms : RegFindings) : Draws c (c.regRecord x ms).2 :=
  (((c.measures_draws x ms _).trans (orOpen_draws ..)).trans (headEntries_draws ..)).trans (visitLines_draws ..)

/-- What a visit has measured depends on the module through its free values alone. -/
theorem measure_congr {c d : Chip} (h : d.fresh = c.fresh) (x : RegRun) (ms : RegFindings) (v : Visit) (k : Nat) :
    (d.measure x ms v k).1 = (c.measure x ms v k).1 ∧ (d.measure x ms v k).2.fresh = (c.measure x ms v k).2.fresh := by
  unfold measure
  dsimp only
  split
  · split <;> simp [draw, h]
  · exact ⟨rfl, h⟩

theorem measures_congr {c d : Chip} (h : d.fresh = c.fresh) (x : RegRun) (ms : RegFindings) (vs : List (Visit × Nat)) :
    (Chip.measures x ms vs d).1 = (Chip.measures x ms vs c).1 := by
  induction vs generalizing c d with
  | nil => rfl
  | cons v vs ih =>
    obtain ⟨hm, hf⟩ := measure_congr h x ms v.1 v.2
    simp only [measures, hm, ih hf]

end Chip

/-! ### A DRAM write of the device (R93, R298, R299) -/

theorem updAll_self {α : Type} {n : Nat} (v : Vector α n) (f : Fin n → α → α) (i : Fin n) : (updAll v f)[i] = f i v[i] := by
  simp [updAll]

/-- What a DRAM write of the device changes: it stores in device DRAM alone, and keeps the rings and every lease that is not
LOADING. -/
structure DramWrites (c d : Chip) : Prop where
  rings : SameRings c d
  rest : Recorded c d
  stores : ∃ runs : List (Nat × List Byte), d.outbox = c.outbox ++ runs.map fun x => .dram x.1 x.2
  lease : ∀ i : Fin 16, c.hst.leases[i].state ≠ .loading → d.hst.leases[i] = c.hst.leases[i]

theorem DramWrites.trans {c d e : Chip} (h : DramWrites c d) (k : DramWrites d e) : DramWrites c e := by
  obtain ⟨rs, hrs⟩ := h.stores
  obtain ⟨qs, hqs⟩ := k.stores
  refine ⟨h.rings.trans k.rings, h.rest.trans k.rest, ⟨rs ++ qs, ?_⟩, fun i hi => ?_⟩
  · rw [hqs, hrs, List.append_assoc, List.map_append]
  · have hc := h.lease i hi
    exact (k.lease i (by rwa [hc])).trans hc

theorem SameEngine.dramWrites {c d : Chip} (h : SameEngine c d) (hr : Recorded c d) : DramWrites c d :=
  ⟨h.sameRings, hr, ⟨[], by rw [h.outbox]; simp⟩, fun i _ => by rw [h.hst]⟩

namespace Chip

variable (e : Env) (c : Chip)

theorem regionViol_sameEngine (q a : Nat) (w : Bool) : SameEngine c (c.regionViol q a w) :=
  ((c.wrPair_sameEngine (by decide) (by decide) _).trans (wrn_sameEngine _ (by decide) _)).trans
    (flag_sameEngine _ (by decide) ..)

theorem guardDrop_sameEngine (b a : Nat) : SameEngine c (c.guardDrop b a) :=
  (((c.bump_sameEngine (by decide)).trans (wrPair_sameEngine _ (by decide) (by decide) _)).trans
    (sticky_sameEngine _ (by decide) _)).trans (flagEvent_sameEngine ..)

theorem noteLoading_lease (a n : Nat) {i : Fin 16} (h : c.hst.leases[i].state ≠ .loading) :
    (c.noteLoading a n).hst.leases[i] = c.hst.leases[i] := by
  unfold noteLoading
  rw [updAll_self, if_neg fun k => h k.1]

theorem noteLoading_writes (a n : Nat) : DramWrites c (c.noteLoading a n) where
  rings := ⟨c.noteLoading_rings a n, fun x _ => rd_congr (c.noteLoading_regs a n) x⟩
  rest := c.withHst_recorded _
  stores := ⟨[], by rw [c.noteLoading_outbox, List.map_nil, List.append_nil]⟩
  lease _ h := c.noteLoading_lease a n h

theorem issueAll_writes (runs : List (Nat × List Byte)) :
    DramWrites c (c.issueAll (runs.map fun x => .dram x.1 x.2)) :=
  ⟨⟨rfl, fun _ _ => rfl⟩, ⟨rfl, fun _ _ => rfl⟩, ⟨runs, rfl⟩, fun _ _ => rfl⟩

theorem dramWrite_writes (q a : Nat) (bs : List Byte) {c : Chip} (h : c.derr = []) :
    DramWrites c (c.dramWrite e q a bs).1 := by
  unfold dramWrite
  split
  · exact (c.regionViol_sameEngine ..).dramWrites (c.regionViol_recorded ..)
  · split
    · exact (c.guardDrop_sameEngine ..).dramWrites (c.guardDrop_recorded ..)
    · rw [dramPut_quiet e q a _ bs ((c.noteLoading_derr ..).trans h)]
      exact (c.noteLoading_writes ..).trans (issueAll_writes ..)

end Chip

/-- Stores to device DRAM leave host memory alone. -/
theorem foldl_apply_dram_host (runs : List (Nat × List Byte)) (m : Mems) :
    ((runs.map fun r => MemWrite.dram r.1 r.2).foldl MemWrite.apply m).host = m.host := by
  rw [foldl_apply_dram]

/-! ### The end of a run (R144, R147, R149) -/

/-- The measurements of a run's visits that contribute to its figures (R146). -/
def Chip.goodMeasures (c : Chip) (x : RegRun) (ms : RegFindings) : List (Visit × Measure) :=
  (Chip.measures x ms x.visits.zipIdx c).1.filter fun y => y.2.good

/-- REG_RMS of the squared differences of a run's pairs, and the status that follows from them (R147, R149). -/
def regRms (sq : List Nat) : Nat := if sq.isEmpty then 0 else min (rootRound sq.sum sq.length) 0xFFFFFFFF
def regStatus (sq : List Nat) : Nat := if sq.isEmpty then 0x05 else 0

theorem statusFlag_regStatus (sq : List Nat) : statusFlag (regStatus sq) = 0 := by
  unfold regStatus
  split <;> rfl

namespace Chip

variable {c : Chip} {x : RegRun} {st : Nat}

theorem regRecord_figures (c : Chip) (x : RegRun) (ms : RegFindings) :
    (c.regRecord x ms).1.1 = regStatus (pairSquares (c.goodMeasures x ms)) ∧
      (c.regRecord x ms).1.2.1 = regRms (pairSquares (c.goodMeasures x ms)) := ⟨rfl, rfl⟩

theorem goodMeasures_congr {c d : Chip} (h : d.fresh = c.fresh) (x : RegRun) (ms : RegFindings) :
    d.goodMeasures x ms = c.goodMeasures x ms := by
  unfold goodMeasures
  rw [measures_congr h]

/-- The module with a run over and its lease released. -/
def runReleased (c : Chip) (x : RegRun) : Chip := ({ c with reg := none } : Chip).onLease x.lease fun _ => Lease.reset

/-- The module with the record of a run written. -/
def runReported (c : Chip) (e : Env) (x : RegRun) (ms : RegFindings) : Chip :=
  ((((c.runReleased x).regRecord x ms).2).dramWrite e reqHST x.result ((c.runReleased x).regRecord x ms).1.2.2).1

theorem runReported_writes (e : Env) (ms : RegFindings) (h : c.derr = []) :
    DramWrites ((c.runReleased x).regRecord x ms).2 (c.runReported e x ms) :=
  dramWrite_writes _ _ _ _ (by
    obtain ⟨n, hn⟩ := (c.runReleased x).regRecord_draws x ms
    rw [hn]
    exact h)

theorem runReported_rings (e : Env) (ms : RegFindings) (h : c.derr = []) : SameRings c (c.runReported e x ms) :=
  have hreleased : SameRings c (c.runReleased x) := ⟨rfl, fun _ _ => rfl⟩
  (hreleased.trans ((c.runReleased x).regRecord_draws x ms).sameEngine.sameRings).trans (runReported_writes e ms h).rings

theorem runReported_host (e : Env) (ms : RegFindings) (h : c.Quiet) (m : Mems) :
    ((c.runReported e x ms).outbox.foldl MemWrite.apply m).host = m.host := by
  obtain ⟨runs, hruns⟩ := (runReported_writes e ms (x := x) h.derr).stores
  have hout : ((c.runReleased x).regRecord x ms).2.outbox = [] :=
    ((c.runReleased x).regRecord_draws x ms).sameEngine.outbox.trans h.outbox
  rw [hruns, hout, List.nil_append, foldl_apply_dram_host]

theorem runReported_reg (e : Env) (ms : RegFindings) (h : c.derr = []) : (c.runReported e x ms).reg = none := by
  rw [(runReported_writes e ms h).rest.reg]
  exact ((c.runReleased x).regRecord_draws x ms).engineOnly.reg

theorem runReported_lease (e : Env) (ms : RegFindings) (h : c.derr = []) :
    (c.runReported e x ms).hst.leases[x.lease] = Lease.reset := by
  have hreset : ((c.runReleased x).regRecord x ms).2.hst.leases[x.lease] = Lease.reset := by
    rw [((c.runReleased x).regRecord_draws x ms).sameEngine.hst]
    exact upd_self ..
  rw [(runReported_writes e ms h).lease _ (by rw [hreset]; decide), hreset]

/-- A run whose layer has ended of itself is reported with its figures, and its REGISTER ends. -/
theorem regDone_reports (e : Env) (ms : RegFindings) {r : Fin 256} {d : Desc} (hq : c.derr = []) (hreg : c.reg = some x)
    (hring : x.ring = r) (hended : x.ended = some st) (hst : st ≠ 0x4D) (hown : c.hst.leases[x.lease].own = true)
    (hloaded : c.hst.leases[x.lease].state = .loaded) (hcur : (c.ring r).cur = some ⟨d, .registration⟩) :
    c.regDone e ms = (c.runReported e x ms).finish e r d (regStatus (pairSquares (c.goodMeasures x ms)))
      (some (regRms (pairSquares (c.goodMeasures x ms)))) (some x.result) := by
  have hdrop : ({ c with reg := none } : Chip).dropOwn x.lease = c.runReleased x := if_pos ⟨hown, hloaded⟩
  have hdesc : (c.runReported e x ms).regDesc x.ring = some (r, d) := by
    simp only [regDesc, hring, inst?_val, (runReported_rings e ms hq).ring, hcur]
  obtain ⟨hs, hr⟩ := (c.runReleased x).regRecord_figures x ms
  rw [goodMeasures_congr (c := c) (d := c.runReleased x) rfl] at hs hr
  unfold runReported at hdesc
  simp only [regDone, hreg, hended, hdrop, if_neg hst, hdesc, hs, hr]
  rfl

end Chip

theorem registrationDone_reports {s : State} (hs : s.settled = true) {r : Fin 256} {d : Desc} {x : RegRun} {st : Nat}
    (ms : RegFindings) (hworks : s.chip.works r d .registration) (hreg : s.chip.reg = some x) (hring : x.ring = r)
    (hended : x.ended = some st) (hst : st ≠ 0x4D) (hown : s.chip.hst.leases[x.lease].own = true)
    (hloaded : s.chip.hst.leases[x.lease].state = .loaded) :
    Runs (.registrationDone ms) s fun t => t.chip.reg = none ∧ t.chip.hst.leases[x.lease] = Lease.reset ∧
      Posts s t r d.idx (regStatus (pairSquares (s.chip.goodMeasures x ms)))
        (some (regRms (pairSquares (s.chip.goodMeasures x ms)))) (some x.result) := by
  let f : Env → Chip → Chip := fun e c => c.regDone e ms
  have hq := State.settled_iff.mp hs
  obtain ⟨hserves, hfetched, hcur, hirq⟩ := hworks
  have hf : f s.env s.chip = _ := Chip.regDone_reports s.env ms hq.derr hreg hring hended hst hown hloaded hcur
  have hrings := Chip.runReported_rings s.env ms (x := x) hq.derr
  have hfetched' : ((s.chip.runReported s.env x ms).ring r).fetched = [] := by rw [hrings.ring]; exact hfetched
  refine ⟨s.act f, rfl, ?_, ?_, ?_⟩
  · rw [(State.act_recorded s f).reg]
    exact (congrArg Chip.reg hf).trans ((Chip.finish_engineOnly ..).reg.trans (Chip.runReported_reg s.env ms hq.derr))
  · rw [leases_of_finish hserves (hrings.onRing r _) hfetched' hirq (statusFlag_regStatus _) hf]
    exact Chip.runReported_lease s.env ms hq.derr
  · exact Posts.of_finish hserves (hrings.onRing r _) hfetched' hirq (statusFlag_regStatus _) hf
      (Chip.runReported_host s.env ms hq s.mem)

end Sys2Proof.Machine
end

section
/-! PROOF. REGISTER (R144, R145, R149, R340): a run accepted is an armed layer of its own. -/

namespace Sys2Proof.Machine

/-! ### Idle lanes woken (R249) -/

/-- `d` differs from `c` in lanes, and in registers that place no ring. -/
structure LaneSends (c d : Chip) : Prop where
  rest : { d with lane := c.lane, regs := c.regs } = c
  rd : ∀ a, placesRing a = true → d.rd a = c.rd a

namespace LaneSends

variable {c d e : Chip}

theorem refl (c : Chip) : LaneSends c c := ⟨rfl, fun _ _ => rfl⟩

theorem trans (h : LaneSends c d) (k : LaneSends d e) : LaneSends c e :=
  ⟨(congrArg (fun x : Chip => { x with lane := c.lane, regs := c.regs }) k.rest).trans h.rest,
    fun a ha => (k.rd a ha).trans (h.rd a ha)⟩

theorem ite {p : Prop} [Decidable p] (h : LaneSends c d) (k : LaneSends c e) : LaneSends c (if p then d else e) := by
  split <;> assumption

variable (h : LaneSends c d)
include h

theorem hst : d.hst = c.hst := (congrArg Chip.hst h.rest :)
theorem scn : d.scn = c.scn := (congrArg Chip.scn h.rest :)
theorem reg : d.reg = c.reg := (congrArg Chip.reg h.rest :)

end LaneSends

namespace Chip

variable (c : Chip)

theorem onLane_laneSends (l : Fin 76) (f : Lane → Lane) : LaneSends c (c.onLane l f) := ⟨rfl, fun _ _ => rfl⟩
theorem send_laneSends (h : Fin 64) (x : LaneSent) : LaneSends c (c.send h x) := c.onLane_laneSends ..

theorem wr_laneSends {a : Nat} (h : placesRing a = false) (v : Word) : LaneSends c (c.wr a v) :=
  ⟨rfl, (c.wr_sameEngine h v).rd⟩

theorem takeInject_laneSends (h : Fin 64) (sel : Nat) : LaneSends c (c.takeInject h sel).2 := by
  have hreg : placesRing (Reg.LNK_INJECT h) = false := by
    rw [← Bool.not_eq_true, placesRing_iff, Reg.LNK_INJECT]
    omega
  unfold takeInject
  split
  · exact c.wr_laneSends hreg _
  · exact .refl c

theorem sendPacket_laneSends (h : Fin 64) (bs : List Byte) (sel : Nat) : LaneSends c (c.sendPacket h bs sel) :=
  ((c.takeInject_laneSends h sel).trans (onLane_laneSends ..)).trans (send_laneSends ..)

theorem sendNext_laneSends (h : Fin 64) : LaneSends c (c.sendNext h) := by
  unfold sendNext
  dsimp only
  split
  · exact .ite ((c.onLane_laneSends ..).trans (sendPacket_laneSends ..)) (.refl c)
  · exact .ite ((c.onLane_laneSends ..).trans (sendPacket_laneSends ..)) (.refl c)
  · exact .refl c

theorem laneWake_laneSends (h : Fin 64) : LaneSends c (c.laneWake h) := by
  have hexit (f : Lane → Lane) (x y z : LaneSent) :
      LaneSends c ((((c.onLane (headLane h) f).send h x).send h y).send h z) :=
    (((c.onLane_laneSends _ f).trans (send_laneSends ..)).trans (send_laneSends ..)).trans (send_laneSends ..)
  unfold laneWake
  refine .ite ?_ (.refl c)
  dsimp only
  split
  · exact ((hexit ..).trans (onLane_laneSends ..)).trans (sendNext_laneSends ..)
  · exact hexit ..

theorem wakeHeads_laneSends (mask : BitVec 64) : LaneSends c (c.wakeHeads mask) := by
  unfold wakeHeads
  generalize List.finRange 64 = hs
  induction hs generalizing c with
  | nil => exact .refl c
  | cons h hs ih => exact (LaneSends.ite (c.laneWake_laneSends h) (.refl c)).trans (ih _)

/-! ### Arming (R91, R249) -/

/-- Staging of the ARMED Ingot changes its slots alone. -/
theorem fillArmed_spec : { c.fillArmed with scn := c.scn } = c ∧
    c.fillArmed.scn.armed.map (·.1) = c.scn.armed.map (·.1) := by
  unfold fillArmed
  split
  · exact ⟨rfl, rfl⟩
  · next h =>
    split
    · exact ⟨rfl, rfl⟩
    · exact ⟨rfl, by simp [h]⟩

/-- The module with an Ingot ARMED, before any of its Billets is staged. -/
def armedEmpty (c : Chip) (i : Fin 16) (x : StartRef) : Chip :=
  let c := c.onLease i fun l => { l with state := .armed, start := some x }
  { c with scn := { c.scn with armed := some (i, Staging.reset) } }

theorem arm_spec (i : Fin 16) (x : StartRef) (mask : BitVec 64) :
    SameRings c (c.arm i x mask) ∧ (c.arm i x mask).reg = c.reg ∧
      (c.arm i x mask).hst.leases[i] = { c.hst.leases[i] with state := .armed, start := some x } ∧
      (c.arm i x mask).scn.armed.map (·.1) = some i := by
  obtain ⟨hfill, harmed⟩ := (c.armedEmpty i x).fillArmed_spec
  have hwake := ((c.armedEmpty i x).fillArmed).wakeHeads_laneSends mask
  have hhst : (c.arm i x mask).hst = (c.armedEmpty i x).hst := hwake.hst.trans (congrArg Chip.hst hfill :)
  refine ⟨⟨?_, fun a ha => ?_⟩, ?_, ?_, ?_⟩
  · rw [hhst]
    rfl
  · exact (hwake.rd a ha).trans (rd_congr (congrArg Chip.regs hfill :) a)
  · exact hwake.reg.trans (congrArg Chip.reg hfill :)
  · rw [hhst]
    exact upd_self ..
  · exact (congrArg (fun x : Scn => x.armed.map (·.1)) hwake.scn).trans harmed

end Chip

/-! ### A run begun -/

/-- `d` is `c` with a run of the parameters `p` over the table `fs` begun for the ring `r`, as an armed layer of lease `i`. -/
structure RunBegun (c d : Chip) (r : Fin 256) (p : RegParams) (i : Fin 16) (fs : List Fiducial) : Prop where
  run : d.reg = some ⟨r, i, p.result, p.heads, p.goal, fs, c.visits p fs, [], [], 0, none⟩
  lease : d.hst.leases[i].state = .armed ∧ d.hst.leases[i].own = true
  armed : d.scn.armed.map (·.1) = some i

namespace Chip

variable {c : Chip} (e : Env) {r : Fin 256} {d : Desc} {p : RegParams} {i : Fin 16} {fs : List Fiducial}

/-- A run in progress, and its lease LOADED with the Ingot `g`. -/
def runLoaded (c : Chip) (i : Fin 16) (g : Ingot) (x : RegRun) : Chip :=
  { c.onLease i fun _ => { Lease.reset with
      state := .loaded, base := regBase, len := roundUp 4096 g.len, layerNo := 0xFFFFFFFF, ingot := some g, own := true }
    with reg := some x }

theorem runLoaded_own (c : Chip) (i : Fin 16) (g : Ingot) (x : RegRun) : (c.runLoaded i g x).hst.leases[i].own = true :=
  (congrArg Lease.own (upd_self c.hst.leases i _) :)

/-- The start of a run leaves the rings as they are but for the REGISTER in progress. -/
theorem regBegin_spec (h : c.derr = []) : SameRings (c.await r d .registration) (c.regBegin e r d p i fs) ∧
    RunBegun c (c.regBegin e r d p i fs) r p i fs := by
  unfold regBegin
  dsimp only
  have hx : Draws c (Chip.visitDwells p.dwell fs (c.visits p fs) c).2 := c.visitDwells_draws ..
  generalize Chip.visitDwells p.dwell fs (c.visits p fs) c = x at hx ⊢
  generalize regIngot p.power _ x.1 = g
  have hd : x.2.derr = [] := by
    obtain ⟨n, hn⟩ := hx
    rw [hn]
    exact h
  have hw := (dramWrite_writes e reqLattice regBase g.2 hd).rings
  generalize (x.2.dramWrite e reqLattice regBase g.2).1 = w at hw ⊢
  let run : RegRun := ⟨r, i, p.result, p.heads, p.goal, fs, c.visits p fs, [], [], 0, none⟩
  let m := (w.draw 24).2.runLoaded i g.1 run
  have hm : SameRings c m := (hx.sameEngine.sameRings.trans hw).trans ⟨rfl, fun _ _ => rfl⟩
  obtain ⟨hrings, hreg, hlease, harmed⟩ := m.arm_spec i ⟨none, 0, m.ttu.index + 1 + (w.draw 24).1⟩ g.1.headMask
  refine ⟨(hm.trans hrings).onRing r _, ⟨hreg, ⟨?_, ?_⟩, harmed⟩⟩
  · exact congrArg Lease.state hlease
  · exact (congrArg Lease.own hlease).trans (runLoaded_own ..)

/-- What REGISTER checks of its parameters, its table and the module before it takes a run (R144, R145, R340). -/
structure RegisterPasses (e : Env) (c : Chip) (d : Desc) (p : RegParams) (i : Fin 16) (n : Nat) (fs : List Fiducial) : Prop where
  clean : d.clean [(8, 15)] = true ∧ leAt d.bytes 8 8 < 2 ^ 35
  block : firstRefused (mayRead reqHST) (leAt d.bytes 8 8) 64 = none
  blockOk : (c.dramRead e reqHST (leAt d.bytes 8 8) 64).2.ok = true
  params : regParams (c.dramRead e reqHST (leAt d.bytes 8 8) 64).2.bytes = some p
  result : firstRefused (mayWrite reqHST) p.result 32 = none
  unguarded : ∀ y, p.result ≤ y → y < p.result + 32 → c.guardOf y = none
  idle : c.scn.armed = none ∧ c.scn.layer = none ∧ c.ttu.lock = true ∧ c.reg = none
  free : c.freeLease = some i
  header : firstRefused (mayRead reqHST) p.table 32 = none
  headerOk : (c.dramRead e reqHST p.table 32).2.ok = true
  count : tableCount (c.dramRead e reqHST p.table 32).2.bytes = some n
  entries : firstRefused (mayRead reqHST) (p.table + 32) (32 * n) = none
  entriesOk : (c.dramRead e reqHST (p.table + 32) (32 * n)).2.ok = true
  table : tableEntries (c.dramRead e reqHST p.table 32).2.bytes (c.dramRead e reqHST (p.table + 32) (32 * n)).2.bytes = some fs
  ready : ∀ k : Fin 64, p.heads.getLsbD k = true → c.hd[k].bank.isReady = true

theorem RegisterPasses.noneUnready {n : Nat} (h : RegisterPasses e c d p i n fs) :
    ((List.finRange 64).any fun k => p.heads.getLsbD k && !c.hd[k].bank.isReady) = false := by
  rw [List.any_eq_false]
  intro k _ hk
  rw [Bool.and_eq_true, Bool.not_eq_true'] at hk
  exact absurd (h.ready k hk.1) (by rw [hk.2]; decide)

/-- A DRAM read within its rights, with no error and no store pending, leaves the module as it is. -/
theorem dramRead_fst (h : c.Quiet) {q a n : Nat} (hr : firstRefused (mayRead q) a n = none) :
    (c.dramRead e q a n).1 = c := by
  rw [dramRead_quiet e q a n h.derr h.outbox hr]

/-- A REGISTER that passes its checks begins a run. -/
theorem register_accepts {n : Nat} (hq : c.Quiet) (h : RegisterPasses e c d p i n fs) :
    c.register e r d = c.regBegin e r d p i fs := by
  obtain ⟨hclean, ha⟩ := h.clean
  obtain ⟨harmed, hlayer, hlock, hreg⟩ := h.idle
  have hunguarded : firstRefused (fun y => (c.guardOf y).isNone) p.result 32 = none :=
    firstRefused_eq_none.mpr fun k hk => by rw [h.unguarded _ (by omega) (by omega)]; rfl
  have hgood : ¬ ((!d.clean [(8, 15)]) = true ∨ 2 ^ 35 ≤ leAt d.bytes 8 8) := by simp [hclean]; omega
  have hidle : ¬ (c.scn.armed.isSome = true ∨ c.scn.layer.isSome = true ∨ (!c.ttu.lock) = true ∨ c.reg.isSome = true) := by
    simp [harmed, hlayer, hlock, hreg]
  simp only [register, if_neg hgood, dramRead_fst e hq h.block, h.block, h.blockOk, h.params, h.result, hunguarded,
    if_neg hidle, h.free, dramRead_fst e hq h.header, h.header, h.headerOk, h.count, dramRead_fst e hq h.entries, h.entries,
    h.entriesOk, h.table, h.noneUnready, Option.isSome_none, Bool.not_true, Bool.false_eq_true, if_false]

end Chip

/-- The checks of REGISTER find the module with the entry taken as they find it before. -/
theorem Chip.RegisterPasses.taken {e : Env} {c : Chip} {d : Desc} {p : RegParams} {i : Fin 16} {n : Nat} {fs : List Fiducial}
    (hq : c.Quiet) (h : Chip.RegisterPasses e c d p i n fs) (r : Fin 256) : Chip.RegisterPasses e (c.taken r) d p i n fs := by
  have hread {q a k : Nat} (hm : firstRefused (mayRead q) a k = none) :
      ((c.taken r).dramRead e q a k).2 = (c.dramRead e q a k).2 := by
    rw [Chip.dramRead_quiet e q a k hq.derr hq.outbox hm,
      Chip.dramRead_quiet e q a k (hq.taken r).derr (hq.taken r).outbox hm]
  obtain ⟨clean, block, blockOk, params, result, unguarded, idle, free, header, headerOk, count, entries, entriesOk, table,
    ready⟩ := h
  rw [← hread block] at blockOk params
  rw [← hread header] at headerOk count table
  rw [← hread entries] at entriesOk table
  exact ⟨clean, block, blockOk, params, result, unguarded, idle, free, header, headerOk, count, entries, entriesOk, table, ready⟩

theorem register_begins {s : State} (hs : s.settled = true) {r : Fin 256} {d : Desc} {p : RegParams} {i : Fin 16} {n : Nat}
    {fs : List Fiducial} (hholds : s.chip.holds r d 0x22) (h : Chip.RegisterPasses s.env s.chip d p i n fs) :
    Runs (.register r []) s fun t => (∃ x, t.chip.reg = some x ∧ x.ring = r ∧ x.lease = i ∧ x.result = p.result ∧
        x.heads = p.heads ∧ x.target = p.goal ∧ x.fids = fs ∧ x.visits = s.chip.visits p fs ∧ x.ended = none) ∧
      t.chip.hst.leases[i].state = .armed ∧ t.chip.hst.leases[i].own = true ∧ (t.chip.scn.armed.map (·.1)) = some i ∧
      Begins s t r d .registration := by
  let f : Env → Chip → Chip := fun e c => ({ c with derr := [] } : Chip).begin r 0x22 fun d c => c.register e r d
  have hq := State.settled_iff.mp hs
  have hf : f s.env s.chip = (s.chip.taken r).regBegin s.env r d p i fs := by
    calc f s.env s.chip = s.chip.begin r 0x22 fun d c => c.register s.env r d :=
          congrArg (Chip.begin · r 0x22 _) (Chip.withDerr_nil hq.derr)
      _ = (s.chip.taken r).register s.env r d := Chip.begin_holds hholds _
      _ = _ := Chip.register_accepts _ (hq.taken r) (h.taken hq r)
  obtain ⟨hrings, hrun, ⟨hstate, hown⟩, harmed⟩ :=
    Chip.regBegin_spec s.env (r := r) (d := d) (p := p) (i := i) (fs := fs) (hq.taken r).derr
  rw [← hf] at hrings hrun hstate hown harmed
  have hserves : ((s.chip.taken r).await r d .registration).serves r :=
    (Chip.serves_onRing rfl).mpr (Chip.taken_serves hholds.1)
  have hhst := State.act_hst s f (Chip.serves_unwatched (hrings.serves hserves))
  have hrest := State.act_recorded s f
  refine ⟨s.act f, rfl, ⟨_, hrest.reg.trans hrun, rfl, rfl, rfl, rfl, rfl, rfl, rfl, rfl⟩, ?_, ?_, ?_, ?_⟩
  · rw [hhst]
    exact hstate
  · rw [hhst]
    exact hown
  · rw [hrest.scn]
    exact harmed
  · calc (s.act f).chip.ring r = (f s.env s.chip).ring r := by unfold Chip.ring; rw [hhst]
      _ = { (s.chip.taken r).ring r with cur := some ⟨d, .registration⟩ } := (hrings.ring r).trans (Chip.onRing_self ..)
      _ = { s.chip.ring r with fetched := [], cur := some ⟨d, .registration⟩ } := by rw [Chip.taken_ring]

/-- Settles O32, command by command. -/
theorem latticesAndRegistrations : Obligations.LatticesAndRegistrations := by
  intro s r d hs
  refine ⟨fun h b hh hb hon hholds hclean => ⟨?_, ?_⟩, fun k hk hm => ?_, fun p i n fs => ?_, fun x st ms => ?_⟩
  · exact latticeLoad_refuses hs hh hb hon hholds hclean
  · exact latticeLoad_begins hs hh hb hon hholds hclean
  · obtain ⟨t, hx, hscn, hhd, hpost⟩ := latticeLoadComplete_settles (d := d) hs hk hm
    exact ⟨t, hx, hscn, hhd.trans (Chip.loadBank_hd ..), hpost⟩
  · dsimp only
    intro hholds hclean ha hblock hblockOk hparams hresult hunguarded harmed hlayer hlock hreg hfree hheader
      hheaderOk hcount hentries hentriesOk htable hready
    have hpasses : Chip.RegisterPasses s.env s.chip d p i n fs := ⟨⟨hclean, ha⟩, hblock, hblockOk, hparams, hresult,
      hunguarded, ⟨harmed, hlayer, hlock, hreg⟩, hfree, hheader, hheaderOk, hcount, hentries, hentriesOk, htable, hready⟩
    exact register_begins hs hholds hpasses
  · exact registrationDone_reports hs ms

end Sys2Proof.Machine
end

section
/-! PROOF. Refused accesses (R12, R173): nothing but the record of one is left behind, and what that record says (R403,
R407). -/

namespace Sys2Proof.Machine

/-! ### An event that opens a record (R406, R407) -/

namespace Chip

variable {c : Chip} (e : Env) {ev : Event}

/-- An event raised while nothing waits, and the RAM works, waits alone. -/
theorem raise_alone (hi : c.evr.intake = []) (hr : c.evr.ramFailed = false) (b n : Nat) (i : Inst) (v p0 p1 p2 : Nat) :
    c.raise b n i v p0 p1 p2 = { c with
      evr := { c.evr with intake := [⟨b, n, (c.instOf i).1, (c.instOf i).2, v, c.now, BitVec.ofNat 32 p0, BitVec.ofNat 32 p1,
        BitVec.ofNat 32 p2⟩] }
      pmcPend := c.pmcPend ++ [(b, 0x03, i.local, 1)] } := by
  simp only [raise, push, tally, hi, hr, List.length_nil, Nat.zero_lt_succ, Nat.one_ne_zero, Bool.false_eq_true, if_true,
    if_false, List.nil_append]

/-- With no record open there is none whose window could end. -/
theorem commitEnded_none (ho : c.evr.opens = []) (now : Nat) : c.commitEnded e now = c := by
  have h : { c.evr with opens := c.evr.opens.filter fun o => decide (now < o.till) } = c.evr := by
    rw [ho, List.filter_nil, ← ho]
  unfold commitEnded onEvr
  dsimp only
  rw [h, ho]
  rfl

/-- The record that an event opens. -/
def opened (c : Chip) (ev : Event) : OpenRec := ⟨ev, 1, ev.t + c.fld Reg.EVR_COAL_CFG 15 0 * 1000⟩

/-- An event that is not CRITICAL opens a record where none is open and coalescing is on. -/
theorem coalesce_opens (hs : ev.sev ≠ sevCRITICAL) (ho : c.evr.opens = []) (hw : 0 < c.fld Reg.EVR_COAL_CFG 15 0) :
    c.coalesce e ev = c.onEvr fun v => { v with opens := v.opens ++ [c.opened ev] } := by
  have hwin : c.fld Reg.EVR_COAL_CFG 15 0 * 1000 ≠ 0 := by omega
  have hroom : ¬ 32 ≤ c.evr.opens.length := by simp [ho]
  have hfind : c.evr.opens.find? (fun o => sameKey o.ev ev) = none := by rw [ho, List.find?_nil]
  simp only [coalesce, if_neg hs, commitEnded_none e ho, if_neg hwin, hfind, if_neg hroom]
  rfl

/-- Such an event, alone in the intake, leaves an open record behind. -/
theorem drain_opens (hi : c.evr.intake = [ev]) (hl : c.evr.lostPend = 0) (hs : ev.sev ≠ sevCRITICAL)
    (ho : c.evr.opens = []) (hw : 0 < c.fld Reg.EVR_COAL_CFG 15 0) (n : Nat) :
    Chip.drain e (n + 1) c = c.onEvr fun v => { v with intake := [], opens := v.opens ++ [c.opened ev] } := by
  have hc := coalesce_opens (c := c.onEvr fun v => { v with intake := [] }) e hs ho hw
  simp only [Chip.drain, hi, hc, flushOpened]
  rw [if_neg (by simp [onEvr])]
  exact drain_quiet e n rfl hl

/-- One event is a queue of its own. -/
theorem queueEvents_one (hi : c.evr.intake = [ev]) : c.queueEvents = c := by
  have h : { c.evr with intake := c.evr.intake.foldl (fun q x => arrive x q) [] } = c.evr := by
    rw [hi, List.foldl_cons, List.foldl_nil, arrive, ← hi]
  unfold queueEvents onEvr
  dsimp only
  rw [h]

end Chip

/-- A command that raises one event, not CRITICAL, with no record open and coalescing on, opens that event's record. -/
theorem State.act_opens {s : State} {f : Env → Chip → Chip} {d : Chip} {ev : Event} (hf : f s.env s.chip = d)
    (hi : d.evr.intake = [ev]) (hl : d.evr.lostPend = 0) (hs : ev.sev ≠ sevCRITICAL) (ho : d.evr.opens = [])
    (hw : 0 < d.fld Reg.EVR_COAL_CFG 15 0) : (s.act f).chip.evr.opens = [d.opened ev] := by
  have hd := Chip.drain_opens s.env hi hl hs ho hw 511
  rw [← Chip.queueEvents_one hi, ← hf, hf] at hd
  calc (s.act f).chip.evr.opens = (Chip.drain s.env 512 (f s.env s.chip).queueEvents).evr.opens := rfl
    _ = d.evr.opens ++ [d.opened ev] := by rw [hf, hd]; rfl
    _ = [d.opened ev] := by rw [ho]; rfl

/-! ### The record of a refused access (R12, R403) -/

/-- The event of a discarded write or a refused read. -/
def Chip.discardEvent (c : Chip) (q : Requester) (a k : Nat) (v : Word) : Event :=
  ⟨ownerOf a, 0x001, 0, false, sevWARN, c.now, BitVec.ofNat 32 a, BitVec.ofNat 32 (reqCode q + 256 * k),
    BitVec.ofNat 32 v.toNat⟩

/-- A discard raises that event. -/
theorem Chip.discard_alone {c : Chip} (hi : c.evr.intake = []) (hr : c.evr.ramFailed = false) (q : Requester) (a k : Nat)
    (v : Word) : c.discard q a k v = { c with
      evr := { c.evr with intake := [c.discardEvent q a k v] }
      pmcPend := c.pmcPend ++ [(ownerOf a, 0x03, 0, 1)] } :=
  raise_alone hi hr ..

/-- From `s` to `t`, with no record open, the RAM working and coalescing on, REG_DISCARD opens with the offset, the
requester, the reason and the value written. -/
def State.OpensDiscard (s : State) (q : Requester) (a k : Nat) (v : Word) (t : State) : Prop :=
  s.chip.evr.opens = [] → s.chip.evr.ramFailed = false → 0 < s.chip.fld Reg.EVR_COAL_CFG 15 0 →
    t.chip.evr.opens = [s.chip.opened (s.chip.discardEvent q a k v)]

/-- `d` has the time, the recorder and the coalescing window of `c`. -/
structure Chip.SameRecorder (c d : Chip) : Prop where
  now : d.now = c.now
  evr : d.evr = c.evr
  window : d.rd Reg.EVR_COAL_CFG = c.rd Reg.EVR_COAL_CFG

theorem Chip.SameRecorder.trans {c d x : Chip} (h : c.SameRecorder d) (k : d.SameRecorder x) : c.SameRecorder x :=
  ⟨k.now.trans h.now, k.evr.trans h.evr, k.window.trans h.window⟩

section

variable {s : State} {i : Instr} {f : Env → Chip → Chip} {d : Chip} {q : Requester} {a k : Nat} {v : Word}
  (hx : exec i s = .next (s.act f)) (hf : f s.env s.chip = d.discard q a k v)
include hx hf

/-- A command that ends in a discard leaves nothing but the record of it. -/
theorem Logs.of_discard : Logs i s d :=
  .intro hx (hf ▸ d.discard_recorded q a k v) (hf ▸ d.raise_unsent ..)

/-- That record is REG_DISCARD. -/
theorem Runs.of_discard (hs : s.settled = true) (hd : s.chip.SameRecorder d) : Runs i s (s.OpensDiscard q a k v) := by
  refine ⟨_, hx, fun ho hr hw => ?_⟩
  obtain ⟨-, -, hi, hl⟩ := State.settled_iff.mp hs
  obtain ⟨hnow, hevr, hwin⟩ := hd
  rw [← hevr] at ho hr hi hl
  have hfld : d.fld Reg.EVR_COAL_CFG 15 0 = s.chip.fld Reg.EVR_COAL_CFG 15 0 := by
    unfold Chip.fld Chip.rdn
    rw [hwin]
  have hev : d.opened (d.discardEvent q a k v) = s.chip.opened (s.chip.discardEvent q a k v) := by
    unfold Chip.opened Chip.discardEvent
    rw [hfld, hnow]
  rw [← hev]
  have hwarn : sevWARN ≠ sevCRITICAL := by decide
  exact (State.act_opens (hf.trans (Chip.discard_alone hi hr q a k v)) rfl hl hwarn ho (hfld ▸ hw) :)

end

/-! ### The accesses refused -/

namespace Chip

variable (c : Chip) (e : Env) (q : Requester) {a : Nat} {be : BitVec 4} (v : Word)

/-- What a write turned away leaves behind beside its record: in SLD, CFG_REJ (R173). -/
def rejected (c : Chip) (a : Nat) : Chip := if ownerOf a = blkSLD then c.sticky Reg.SLD_FLAGS 0x40 else c

theorem rejected_sameRecorder (a : Nat) : c.SameRecorder (c.rejected a) := by
  unfold rejected
  split
  · exact ⟨rfl, rfl, c.rd_wr_ne (by decide) _⟩
  · exact ⟨rfl, rfl, rfl⟩

@[simp] theorem seenBy_now : (c.seenBy q).now = c.now := (congrArg now (c.seenBy_frame q) :)

theorem seenBy_sameRecorder : c.SameRecorder (c.seenBy q) := ⟨c.seenBy_now q, c.seenBy_evr q, c.seenBy_rd q _⟩

theorem busWrite_partial (h : a % 4 ≠ 0 ∨ be ≠ 15) :
    c.busWrite e q a be v = ((c.seenBy q).rejected a).discard q a 5 v := by
  simp only [busWrite, busTry, if_pos h]
  rfl

theorem busRead_partial (h : a % 4 ≠ 0 ∨ be ≠ 15) :
    c.busRead e q a be = ((c.seenBy q).answer 0).discard q a 5 0 := by
  simp only [busRead, if_pos h]

theorem busWrite_unmapped (hp : plainReg a = true) (hpba : ¬ (0xD7000 ≤ a ∧ a < 0xD7008)) (hr : rowOf a = none) :
    c.busWrite e q a 15 v = ((c.seenBy q).rejected a).discard q a 1 v := by
  simp only [plainReg, Bool.and_eq_true, Bool.or_eq_true, decide_eq_true_eq, beq_iff_eq] at hp
  obtain ⟨h4, h⟩ := hp
  have hal : ¬ (a % 4 ≠ 0 ∨ (15 : BitVec 4) ≠ 15) := by simp [h4]
  have hdb : ¬ (0x800000 ≤ a ∧ a < 0x900000) := by omega
  have hmsix : ¬ (0xD6000 ≤ a ∧ a < 0xD6400) := by omega
  simp only [busWrite, busTry, if_neg hal, if_neg hdb, if_neg hmsix, if_neg hpba, hr]
  rfl

end Chip

/-- Settles O7: each of the three accesses ends in a discard, of the module as the requester's access finds it. -/
theorem refusedAccessIsReportedOnly : Obligations.RefusedAccessIsReportedOnly := by
  intro s q off be v hs
  have hseen := s.chip.seenBy_sameRecorder q
  have hrej := hseen.trans ((s.chip.seenBy q).rejected_sameRecorder off.toNat)
  have hwrite (be : BitVec 4) :
      exec (.registerWrite q off be v) s = .next (s.act fun e c => c.busWrite e q off.toNat be v) := rfl
  have hread : exec (.refusedRead q off be) s = .next (s.act fun e c => c.busRead e q off.toNat be) := rfl
  refine ⟨fun hpart => ?_, fun hp hpba hr => ?_⟩
  · have hw := s.chip.busWrite_partial s.env q v hpart
    have hd := s.chip.busRead_partial s.env q hpart
    exact ⟨.of_discard (hwrite be) hw, .of_discard hread hd, .of_discard (hwrite be) hw hs hrej,
      .of_discard hread hd hs ⟨hseen.now, hseen.evr, hseen.window⟩⟩
  · have hw := s.chip.busWrite_unmapped s.env q v hp hpba hr
    exact ⟨.of_discard (hwrite 15) hw, .of_discard (hwrite 15) hw hs hrej⟩

end Sys2Proof.Machine
end

section
/-! PROOF. Arbitration (R157, R158, R168): a forced Billet granted, and PRI gained and lost. -/

namespace Sys2Proof.Machine

/-! ### The propose stage's estimates (R152, R155) -/

/-- `d` is `c` but for the estimates of the heads. -/
structure Reestimated (c d : Chip) : Prop where
  rest : { d with hd := c.hd } = c
  hd : ∀ h : Fin 64, ∃ est rd more shown, d.hd[h] = { c.hd[h] with est := est, rd := rd, more := more, rdShown := shown }

theorem Chip.estimates_reestimated (c : Chip) : Reestimated c c.estimates where
  rest := by unfold estimates; rfl
  hd h := by
    simp only [estimates, updAll_self]
    split
    · exact ⟨_, _, _, _, rfl⟩
    · split <;> exact ⟨_, _, _, _, rfl⟩

namespace Reestimated

variable {c d : Chip} (h : Reestimated c d)
include h

theorem regs : d.regs = c.regs := (congrArg Chip.regs h.rest :)
theorem acts : d.acts = c.acts := (congrArg Chip.acts h.rest :)
theorem ttu : d.ttu = c.ttu := (congrArg Chip.ttu h.rest :)
theorem scn : d.scn = c.scn := (congrArg Chip.scn h.rest :)
theorem mpc : d.mpc = c.mpc := (congrArg Chip.mpc h.rest :)

theorem quiet (hq : c.Quiet) : d.Quiet :=
  hq.congr (congrArg Chip.outbox h.rest :) (congrArg Chip.derr h.rest :) (congrArg Chip.evr h.rest :)

theorem forceTicks : d.forceTicks = c.forceTicks := by
  unfold Chip.forceTicks Chip.actFld Chip.actn Chip.act
  rw [h.acts]

theorem claims (k : Fin 64) : d.hd[k].claims = c.hd[k].claims := by
  obtain ⟨_, _, _, _, hk⟩ := h.hd k
  rw [hk]

/-- Which candidates are lost does not depend on estimates. -/
theorem lostFor (b : Shared) (k : Fin 64) : d.lostFor b k = c.lostFor b k := by
  obtain ⟨_, _, _, _, hk⟩ := h.hd k
  simp only [Chip.lostFor, Chip.gated, hk, h.mpc]

/-- Which are eligible does not either. -/
theorem eligible (l : Layer) (b : Shared) (k : Fin 64) : d.eligible l b k = c.eligible l b k := by
  obtain ⟨_, _, _, _, hk⟩ := h.hd k
  simp only [Chip.eligible, h.lostFor, hk, h.ttu]
  rfl

end Reestimated

namespace Chip

variable {c : Chip}

/-! ### A forced Billet resolved (R157) -/

/-- Of a list with a candidate, one has the lowest key. -/
theorem lowest_mem {h : Fin 64} {hs : List (Fin 64)} (hh : h ∈ hs) : ∃ k ∈ hs, c.lowest hs = some k := by
  induction hs generalizing h with
  | nil => simp at hh
  | cons g gs ih =>
    rw [lowest]
    cases gs with
    | nil => exact ⟨g, by simp, rfl⟩
    | cons j js =>
      obtain ⟨k, hk, hl⟩ := ih (h := j) (by simp)
      rw [hl]
      dsimp only
      split
      · exact ⟨g, by simp, rfl⟩
      · exact ⟨k, List.mem_cons_of_mem _ hk, rfl⟩

/-- A Billet with an eligible candidate whose offer age has reached FORCE_TICKS is granted to an eligible candidate. -/
theorem resolve_forced {l : Layer} {age : Nat} {b : Shared} {h : Fin 64} (hl : c.scn.layer = some l)
    (hage : c.forceTicks ≤ age) (hh : h ∈ l.candidates b.billet) (he : c.eligible l b h = true) :
    ∃ k ∈ l.candidates b.billet, c.eligible l b k = true ∧ c.resolve age b = c.grant l b.billet k true := by
  have hmem : h ∈ (l.candidates b.billet).filter fun h => c.eligible l b h := List.mem_filter.mpr ⟨hh, he⟩
  obtain ⟨k, hk, hlow⟩ := c.lowest_mem hmem
  obtain ⟨hkc, hke⟩ := List.mem_filter.mp hk
  have hkept : ¬ ((l.candidates b.billet).all fun h => c.lostFor b h) = true := by
    intro hall
    have := List.all_eq_true.mp hall h hh
    simp [eligible, this] at he
  have hsome : ¬ ((l.candidates b.billet).filter fun h => c.eligible l b h).isEmpty = true := by
    rw [List.isEmpty_iff]
    exact List.ne_nil_of_mem hmem
  refine ⟨k, hkc, hke, ?_⟩
  simp only [resolve, hl, if_neg hkept, if_neg hsome, decide_eq_true hage, if_true, hlow]

/-- FORCED of the Billet that stands first in the order of R157. -/
theorem forcedGrant_first {l : Layer} {age : Nat} {x : Shared} {rest : List (Nat × Shared)} {h : Fin 64}
    (hl : c.scn.layer = some l) (ho : c.resolveOrder l = (age, x) :: rest) (hage : c.forceTicks ≤ age)
    (hab : l.abortAt = none) (htick : c.ttu.inTick = true) (hmiss : c.ttu.miss.arb = none)
    (hh : h ∈ l.candidates x.billet) (he : c.eligible l x h = true) :
    ∃ k ∈ l.candidates x.billet, c.eligible l x k = true ∧
      c.forcedGrant x.billet = c.estimates.grant l x.billet k true := by
  have hany : ((l.candidates x.billet).any fun h => c.eligible l x h) = true := List.any_eq_true.mpr ⟨h, hh, he⟩
  have hest := c.estimates_reestimated
  have hlayer : c.estimates.scn.layer = c.scn.layer := congrArg Scn.layer hest.scn
  have hforce : c.estimates.forceTicks ≤ age := Nat.le_trans (Nat.le_of_eq hest.forceTicks) hage
  obtain ⟨k, hk, hke, hg⟩ := resolve_forced (hlayer.trans hl) hforce hh ((hest.eligible l x h).trans he)
  refine ⟨k, hk, (hest.eligible l x k).symm.trans hke, ?_⟩
  simp only [forcedGrant, hl, ho, hab, hmiss, htick, hany, Option.isNone_none, hage, and_self, if_true]
  exact hg

/-! ### What a forced grant changes (R157, R158) -/

@[simp] theorem rdn_bump_self (a : Nat) : (c.bump a).rdn a = min (c.rdn a + 1) (2 ^ 32 - 1) := by
  unfold bump bumpN wrn rdn
  rw [rd_wr_self, BitVec.toNat_ofNat, Nat.mod_eq_of_lt (by omega)]

theorem rdn_bump_ne {a b : Nat} (h : b ≠ a) : (c.bump a).rdn b = c.rdn b := congrArg BitVec.toNat (c.rd_wr_ne h _)

theorem rdn_sticky_ne {a b : Nat} (h : b ≠ a) (m : Nat) : (c.sticky a m).rdn b = c.rdn b :=
  congrArg BitVec.toNat (c.rd_wr_ne h _)

theorem rdn_congr {d : Chip} (h : c.regs = d.regs) (a : Nat) : c.rdn a = d.rdn a := congrArg BitVec.toNat (rd_congr h a)

theorem bit_sticky_one (a : Nat) : (c.sticky a 1).bit a 0 = true := by
  simp [bit, bitOf, rdn, sticky]

@[simp] theorem bump_scn (a : Nat) : (c.bump a).scn = c.scn := c.wr_scn ..
@[simp] theorem sticky_scn (a m : Nat) : (c.sticky a m).scn = c.scn := c.wr_scn ..
@[simp] theorem bump_hd (a : Nat) : (c.bump a).hd = c.hd := c.wr_hd ..
@[simp] theorem sticky_hd (a m : Nat) : (c.sticky a m).hd = c.hd := c.wr_hd ..

@[simp] theorem tally_regs (n v i k : Nat) : (c.tally n v i k).regs = c.regs := by
  unfold tally
  split <;> rfl

@[simp] theorem tally_scn (n v i k : Nat) : (c.tally n v i k).scn = c.scn := (c.tally_recorded ..).scn
@[simp] theorem tally_hd (n v i k : Nat) : (c.tally n v i k).hd = c.hd := (c.tally_recorded ..).hd

theorem Quiet.tally (hq : c.Quiet) (n v i k : Nat) : (c.tally n v i k).Quiet := by
  unfold Chip.tally
  split
  · exact hq
  · exact hq.congr rfl rfl rfl

variable (l : Layer) (b : Nat) (h : Fin 64)

/-- The claim of a grant: the Billet CLAIMED by the head, in its claim list and in its estimate. -/
def claimed (c : Chip) (l : Layer) (b : Nat) (h : Fin 64) : Chip :=
  (c.onLayer fun l => l.onShared b fun x => { x with state := .claimed h }).onHead h fun x =>
    { x with
      claims := x.claims ++ [(b, c.ttu.index)]
      est := x.est + c.durUnits l b
      rd := c.rdOf (x.est + c.durUnits l b) }

@[simp] theorem claimed_rdn (a : Nat) : (c.claimed l b h).rdn a = c.rdn a := rfl

/-- A forced grant is its claim, counted as a grant and as a force, with FORCED set. -/
theorem grant_forced : c.grant l b h true =
    (((((c.claimed l b h).bump Reg.SLD_GRANT_CNT).tally blkSLD 0x10 h.val 1).bump Reg.SLD_FORCE_CNT).sticky
      Reg.SLD_FLAGS 0x1).tally blkSLD 0x11 h.val 1 := by
  simp only [grant, if_true]
  rfl

theorem grant_forced_grants :
    (c.grant l b h true).rdn Reg.SLD_GRANT_CNT = min (c.rdn Reg.SLD_GRANT_CNT + 1) (2 ^ 32 - 1) := by
  rw [grant_forced, rdn_congr (tally_regs ..), rdn_sticky_ne (by decide), rdn_bump_ne (by decide),
    rdn_congr (tally_regs ..), rdn_bump_self, claimed_rdn]

theorem grant_forced_forces :
    (c.grant l b h true).rdn Reg.SLD_FORCE_CNT = min (c.rdn Reg.SLD_FORCE_CNT + 1) (2 ^ 32 - 1) := by
  rw [grant_forced, rdn_congr (tally_regs ..), rdn_sticky_ne (by decide), rdn_bump_self, rdn_congr (tally_regs ..),
    rdn_bump_ne (by decide), claimed_rdn]

theorem grant_forced_flag : (c.grant l b h true).bit Reg.SLD_FLAGS 0 = true := by
  unfold bit
  rw [grant_forced, rdn_congr (tally_regs ..)]
  exact bit_sticky_one _

theorem grant_forced_scn (hl : c.scn.layer = some l) : (c.grant l b h true).scn =
    { c.scn with layer := some (l.onShared b fun x => { x with state := .claimed h }) } := by
  have hclaimed : (c.claimed l b h).scn =
      { c.scn with layer := c.scn.layer.map fun l => l.onShared b fun x => { x with state := .claimed h } } := rfl
  rw [grant_forced, tally_scn, sticky_scn, bump_scn, tally_scn, bump_scn, hclaimed, hl, Option.map_some]

theorem grant_forced_hd : (c.grant l b h true).hd = (c.claimed l b h).hd := by
  rw [grant_forced, tally_hd, sticky_hd, bump_hd, tally_hd, bump_hd]

/-- The head granted a Billet gains it in its claim list, with the tick in progress. -/
theorem grant_forced_claims : (c.grant l b h true).hd[h].claims = c.hd[h].claims ++ [(b, c.ttu.index)] := by
  rw [grant_forced_hd]
  exact congrArg Head.claims (onHead_self ..)

theorem grant_forced_hd_ne {j : Fin 64} (hj : j ≠ h) : (c.grant l b h true).hd[j] = c.hd[j] := by
  rw [grant_forced_hd]
  exact onHead_ne _ hj _

theorem Quiet.grant_forced (hq : c.Quiet) : (c.grant l b h true).Quiet := by
  have hclaimed : (c.claimed l b h).Quiet := hq.congr rfl rfl rfl
  rw [Chip.grant_forced]
  exact ((((hclaimed.wr ..).tally ..).wr ..).wr ..).tally ..

/-! ### PRI gained and lost (R168) -/

/-- PRI set, with the stamp of the last tick. -/
def gained (c : Chip) (h : Fin 64) : Chip :=
  c.onHead h fun x => { x with pri := true, stamp := c.scn.lastTick, runCnt := 0, gainDue := false }

/-- A gain that is due sets PRI, and PRI_CONFLICT where another spot with PRI conflicts (R169). -/
theorem priGain_due (hg : c.hd[h].gainDue = true) :
    c.priGain h = c.gained h ∨ c.priGain h = (c.gained h).sticky Reg.SLD_FLAGS 0x10 := by
  rw [priGain, if_pos hg]
  dsimp only
  split
  · split
    · exact .inr rfl
    · exact .inl rfl
  · exact .inl rfl

end Chip

section

variable {s : State} (hs : s.settled = true)
include hs

/-- FORCED grants the Billet first in the order of R157 to one of its eligible candidates. -/
theorem forced_grants {l : Layer} {age : Nat} {x : Shared} {rest : List (Nat × Shared)} {h : Fin 64}
    (hl : s.chip.scn.layer = some l) (ho : s.chip.resolveOrder l = (age, x) :: rest) (hage : s.chip.forceTicks ≤ age)
    (hab : l.abortAt = none) (htick : s.chip.ttu.inTick = true) (hmiss : s.chip.ttu.miss.arb = none)
    (hh : h ∈ l.candidates x.billet) (he : s.chip.eligible l x h = true) :
    ∃ k ∈ l.candidates x.billet, s.chip.eligible l x k = true ∧
      exec (.forced x.billet) s = .next { s with chip := s.chip.estimates.grant l x.billet k true } := by
  obtain ⟨k, hk, hke, hg⟩ := Chip.forcedGrant_first hl ho hage hab htick hmiss hh he
  have hq := s.chip.estimates_reestimated.quiet (State.settled_iff.mp hs)
  have hx : exec (.forced x.billet) s = .next (s.act fun _ c => c.forcedGrant x.billet) := rfl
  exact ⟨k, hk, hke, hx.trans (congrArg _ (State.act_of_quiet hg (hq.grant_forced l x.billet k)))⟩

theorem priGain_gains {h : Fin 64} (hg : s.chip.hd[h].gainDue = true) :
    Runs (.priGain h) s fun t => t.chip.hd = (s.chip.gained h).hd ∧ s.sameMem t := by
  have hx : exec (.priGain h) s = .next (s.act fun _ c => c.priGain h) := rfl
  have hq : (s.chip.gained h).Quiet := (State.settled_iff.mp hs).congr rfl rfl rfl
  rcases Chip.priGain_due h hg with hd | hd
  · exact .of_quiet hx hd hq ⟨rfl, rfl, rfl, rfl⟩
  · exact .of_quiet hx hd (hq.wr ..) ⟨rfl, rfl, rfl, rfl⟩

theorem priLoss_loses {h : Fin 64} (hl : s.chip.hd[h].lossDue = true) :
    Does (.priLoss h) s (s.chip.onHead h fun x => { x with pri := false, lossDue := false }) := by
  have hx : exec (.priLoss h) s = .next (s.act fun _ c => c.priLoss h) := rfl
  obtain ⟨-, -, hi, hlost⟩ := State.settled_iff.mp hs
  exact .intro hx (if_pos hl) hi hlost

end

/-- Settles O33: FORCED ends in a grant, whose parts are read off, and PRI changes where its change is due. -/
theorem arbitrationGrantsAndAges : Obligations.ArbitrationGrantsAndAges := by
  intro s hs
  refine ⟨fun l age x rest h hl ho hage hab htick hmiss hh he => ?_, fun h => ⟨priGain_gains hs, priLoss_loses hs⟩⟩
  obtain ⟨k, hk, hke, hx⟩ := forced_grants hs hl ho hage hab htick hmiss hh he
  have hest := s.chip.estimates_reestimated
  generalize s.chip.estimates = d at hest hx
  have hlayer : d.scn.layer = some l := (congrArg Scn.layer hest.scn).trans hl
  refine ⟨_, hx, k, hk, hke, ?_, ?_, fun j hj => ?_, ?_, ?_, ?_, rfl, rfl, rfl⟩
  · rw [← hest.scn]
    exact Chip.grant_forced_scn l _ k hlayer
  · rw [← hest.claims, ← hest.ttu]
    exact Chip.grant_forced_claims ..
  · rw [← hest.claims]
    exact congrArg Head.claims (Chip.grant_forced_hd_ne l _ k hj)
  · rw [← Chip.rdn_congr hest.regs]
    exact Chip.grant_forced_grants ..
  · rw [← Chip.rdn_congr hest.regs]
    exact Chip.grant_forced_forces ..
  · exact Chip.grant_forced_flag ..

end Sys2Proof.Machine
end

section
/-! PROOF. Camera pipelines start and identify (R203, R220): accepted writes of CAM_CTRL, and the end of the identity read. -/

namespace Sys2Proof.Machine

/-! ### Bits and fields -/

theorem bitOf_eq_testBit (x i : Nat) : bitOf x i = x.testBit i := by
  rw [Nat.testBit_eq_decide_div_mod_eq]
  rfl

theorem bitOf_toNat (v : Word) (i : Nat) : bitOf v.toNat i = v.getLsbD i := bitOf_eq_testBit ..

/-- The low bits of a number hold the field that replaces them. -/
theorem setBits_mod {n : Nat} (hn : 0 < n) (x v : Nat) : setBits x (n - 1) 0 v % 2 ^ n = v % 2 ^ n := by
  have hn' : n - 1 + 1 = n := by omega
  simp [setBits, hn', Nat.mod_one]

theorem leNat_lt (bs : List Byte) : leNat bs < 2 ^ (8 * bs.length) := by
  induction bs with
  | nil => simp [leNat]
  | cons b bs ih =>
    have hb := b.isLt
    rw [leNat, List.length_cons, Nat.mul_succ, Nat.pow_add]
    omega

theorem leAt_lt (bs : List Byte) (lo k : Nat) : leAt bs lo k < 2 ^ (8 * k) := by
  simpa [leAt, bytesAt] using leNat_lt (bytesAt bs lo k)

/-- The registers below the windows of EVR, HST and DRC are not the recorder's. -/
theorem camReg_unrecorded {a : Nat} (h : a < 0xC0000) : recorderReg a = false := by
  simp only [recorderReg, Bool.or_eq_false_iff, Bool.and_eq_false_iff, decide_eq_false_iff_not]
  omega

/-- A command's next state is its effect but for what the recorder changes. -/
theorem Runs.of_recorded {i : Instr} {s : State} {f : Env → Chip → Chip} {d : Chip} {p : State → Prop}
    (hx : exec i s = .next (s.act f)) (hf : f s.env s.chip = d) (hp : ∀ t, Recorded d t.chip → p t) : Runs i s p :=
  ⟨_, hx, hp _ (hf ▸ State.act_recorded s f)⟩

namespace Chip

variable (c : Chip)

/-! ### Registers (R11, R17) -/

theorem onto_val {n : Nat} (i : Fin n) (f : Fin n → Chip) : c.onto i f = f i := by
  simp only [onto, inst?_val]

theorem bit_congr {d : Chip} {a : Nat} (h : d.rd a = c.rd a) (i : Nat) : d.bit a i = c.bit a i := by
  unfold bit rdn
  rw [h]

theorem fld_congr {d : Chip} {a : Nat} (h : d.rd a = c.rd a) (hi lo : Nat) : d.fld a hi lo = c.fld a hi lo := by
  unfold fld rdn
  rw [h]

theorem rdPair_congr {d : Chip} {a : Nat} (h : d.rd a = c.rd a) (k : d.rd (a + 4) = c.rd (a + 4)) : d.rdPair a = c.rdPair a := by
  unfold rdPair rdn
  rw [h, k]

/-- A bit that is set stays set as sticky bits are added. -/
theorem bit_sticky_of_bit {a i : Nat} (m : Nat) (h : c.bit a i = true) : (c.sticky a m).bit a i = true := by
  unfold bit rdn at *
  rw [bitOf_toNat] at *
  rw [sticky, rd_wr_self, BitVec.getLsbD_or, h, Bool.true_or]

/-- A sticky bit named by the mask is set. -/
theorem bit_sticky {m i : Nat} (a : Nat) (hi : i < 32) (hm : m.testBit i = true) : (c.sticky a m).bit a i = true := by
  unfold bit rdn
  rw [bitOf_toNat, sticky, rd_wr_self, BitVec.getLsbD_or, BitVec.getLsbD_ofNat, hm, decide_eq_true hi, Bool.and_self,
    Bool.or_true]

/-- A one-bit field cleared by the device. -/
theorem bit_setFld_zero (a : Nat) : (c.setFld a 0 0 0).bit a 0 = false := by
  unfold bit setFld wrn rdn
  rw [rd_wr_self, bitOf_toNat, BitVec.getLsbD_ofNat]
  simp [setBits, Nat.testBit_zero, Nat.mod_one]

theorem rd_wrPair_ne {a b : Nat} (h : b ≠ a) (k : b ≠ a + 4) (v : Nat) : (c.wrPair a v).rd b = c.rd b := by
  rw [wrPair, wrn, wrn, rd_wr_ne _ k, rd_wr_ne _ h]

theorem rdPair_wrPair (a v : Nat) : (c.wrPair a v).rdPair a = v % 2 ^ 64 := by
  unfold rdPair rdn wrPair wrn
  rw [rd_wr_self, rd_wr_ne _ (by omega), rd_wr_self, BitVec.toNat_ofNat, BitVec.toNat_ofNat]
  omega

/-! ### A pipeline replaced by its image -/

variable (p : Fin 16)

theorem onCam_onCam (f g : Cam → Cam) : (c.onCam p f).onCam p g = c.onCam p (g ∘ f) := by
  simp only [onCam, upd_upd]

theorem onCam_rd (f : Cam → Cam) (a : Nat) : (c.onCam p f).rd a = c.rd a := rfl

/-- An image matters only at the pipeline as it stands. -/
theorem onCam_congr {c : Chip} {p : Fin 16} {f g : Cam → Cam} (h : f c.cam[p] = g c.cam[p]) : c.onCam p f = c.onCam p g := by
  unfold onCam upd
  rw [h]

theorem Quiet.onCam {c : Chip} (h : c.Quiet) (p : Fin 16) (f : Cam → Cam) : (c.onCam p f).Quiet := h.congr rfl rfl rfl

theorem rd_camSticky_ne {a : Nat} (h : a ≠ Reg.CAM_FLAGS p) (bits : Nat) : (c.camSticky p bits).rd a = c.rd a :=
  c.rd_wr_ne h _

/-- A flag's event is the recorder's; the flag itself is not. -/
theorem camFlag_recorded (bits p2 : Nat) : Recorded (c.camSticky p bits) (c.camFlag p bits p2) := by
  unfold camFlag flag camSticky
  exact flagEvent_recorded ..

theorem camFlag_unsent (bits p2 : Nat) : Unsent (c.camSticky p bits) (c.camFlag p bits p2) := by
  unfold camFlag flag camSticky flagEvent
  exact raise_unsent ..

/-! ### Accepted writes of CAM_CTRL (R203) -/

/-- CAM_CTRL with its writable bits stored, as a requester's access finds the module. -/
def camCtrlStored (c : Chip) (q : Requester) (p : Fin 16) (v : Word) : Chip :=
  (c.seenBy q).wr (Reg.CAM_CTRL p) ((c.rd (Reg.CAM_CTRL p) &&& ~~~0xFFF7) ||| (v &&& 0xFFF7))

theorem camCtrl_plain : ∀ p : Fin 16, plainReg (Reg.CAM_CTRL p) = true ∧ blockOf (Reg.CAM_CTRL p) = 5 := by decide

theorem camCtrlStored_rd {a : Nat} (h : a ≠ Reg.CAM_CTRL p) (q : Requester) (v : Word) :
    (c.camCtrlStored q p v).rd a = c.rd a := by
  rw [camCtrlStored, rd_wr_ne _ h, seenBy_rd]

@[simp] theorem camCtrlStored_cam (q : Requester) (v : Word) : (c.camCtrlStored q p v).cam = c.cam := c.seenBy_cam q

theorem Quiet.camCtrlStored {c : Chip} (h : c.Quiet) (q : Requester) (p : Fin 16) (v : Word) :
    (c.camCtrlStored q p v).Quiet := (h.seenBy q).wr ..

/-- A write that every check lets pass is stored, and its ENABLE bit taken. -/
theorem busWrite_camCtrl (e : Env) {q : Requester} {p : Fin 16} {v : Word} (hw : c.writable q (Reg.CAM_CTRL p) v = true) :
    c.busWrite e q (Reg.CAM_CTRL p) 15 v = (c.camCtrlStored q p v).camEnable p (v.getLsbD 0) := by
  obtain ⟨hplain, hblock⟩ := camCtrl_plain p
  have hinst : (Reg.CAM_CTRL p - 0x80000) / 0x1000 = p.val := by
    rw [Reg.CAM_CTRL]
    omega
  rw [busWrite_writable e c q hplain (rowOf_CAM_CTRL p) (by decide) hw]
  simp only [writeOne, hblock, writeCam, RegRow.inst, Nat.reduceEqDiff, if_false, hinst, onto_val, bitOf_toNat,
    Bool.false_eq_true]
  rw [store_eq_wr _ (by rw [hblock]; decide), seenBy_rd]
  simp only [RegRow.written, BitVec.and_zero, BitVec.not_zero, BitVec.and_allOnes]
  rfl

/-- What the identity read puts on the bus follows two registers of the pipeline. -/
theorem cciIdentity_congr {c d : Chip} {p : Fin 16} (hid : d.rd (Reg.CAM_ID_CFG p) = c.rd (Reg.CAM_ID_CFG p))
    (hcci : d.rd (Reg.CAM_CCI_CFG p) = c.rd (Reg.CAM_CCI_CFG p)) : d.cciIdentity p = c.cciIdentity p := by
  unfold cciIdentity cciDevice cciAddr
  simp only [fld_congr c hid, fld_congr c hcci, bit_congr c hcci]

theorem camEnable_valid {c : Chip} {p : Fin 16} (ho : (c.cam[p]).state = .off) (hv : c.camValid p = true) :
    c.camEnable p true = c.onCam p fun k => { k with
      state := .ident, gap := false, gen := 0, genNs := c.fld (Reg.CAM_EXP_NS p) 24 0, waiting := [], uncertain := false
      fsAt := none, period := none, cci := if k.xfer.isSome then k.cci else c.cciIdentity p } := by
  simp only [camEnable, ho, hv, if_true, ne_eq, not_true_eq_false, if_false]

theorem camEnable_invalid {c : Chip} {p : Fin 16} (ho : (c.cam[p]).state = .off) (hv : c.camValid p = false) :
    c.camEnable p true = (c.setFld (Reg.CAM_CTRL p) 0 0 0).camFlag p cfCFG_ERR 0 := by
  simp only [camEnable, ho, hv, if_true, ne_eq, not_true_eq_false, if_false, Bool.false_eq_true]

theorem camEnable_clear {c : Chip} {p : Fin 16} (ho : (c.cam[p]).state ≠ .off) (hp : (c.cam[p]).pend = none) :
    c.camEnable p false = c.onCam p fun k => { k with state := .off, gap := false, frame := none } := by
  simp only [camEnable, Bool.false_eq_true, if_false, ho]
  exact onCam_congr (by simp only [Cam.supersede, hp])

/-! ### The end of the identity read (R220) -/

/-- The identity read is on the bus. -/
def identSent (c : Chip) (p : Fin 16) : Chip := c.onCam p fun k => { k with cci := c.cciIdentity p }

/-- The identity as it is read, stored in the `n` bytes that it has. -/
def identStored (c : Chip) (p : Fin 16) (n v : Nat) : Chip :=
  c.wrPair (Reg.CAM_ID_LO p) (setBits (c.rdPair (Reg.CAM_ID_LO p)) (8 * n - 1) 0 v)

/-- The identity read has passed, or the pipeline turns OFF again with ID_ERR. -/
def identPassed (c : Chip) (p : Fin 16) : Chip := c.onCam p fun k => { k with state := .idle, idOk := true, gap := true }
def identFailed (c : Chip) (p : Fin 16) : Chip :=
  ((c.onCam p fun k => { k with state := .off, idOk := false }).setFld (Reg.CAM_CTRL p) 0 0 0).camFlag p cfID_ERR 0

section

variable {c p} (hs : (c.cam[p]).state = .ident)
include hs

theorem identDone_empty (hn : c.fld (Reg.CAM_ID_CFG p) 19 16 = 0) (res : Option (List Byte)) :
    c.identDone p res = c.onCam p fun k => { k with state := .idle, idOk := true, gap := true, cci := [] } := by
  have hcci : c.cciIdentity p = [] := by simp only [cciIdentity, hn, if_true]
  have hn' : (c.identSent p).fld (Reg.CAM_ID_CFG p) 19 16 = 0 := hn
  have : c.identDone p res = (c.identSent p).identPassed p := by
    simp only [identDone, hs, hn, ne_eq, not_true_eq_false, if_false, if_true]
    rfl
  rw [this, identPassed, identSent, onCam_onCam, hcci]
  rfl

theorem identDone_unread (hn : c.fld (Reg.CAM_ID_CFG p) 19 16 ≠ 0) :
    c.identDone p none = (c.identSent p).identFailed p := by
  simp only [identDone, hs, hn, ne_eq, not_true_eq_false, if_false]
  rfl

/-- An identity that differs from the one expected, where it is compared, fails the read. -/
theorem identDone_read {n : Nat} (hf : c.fld (Reg.CAM_ID_CFG p) 19 16 = n) (hn : n ≠ 0) (bs : List Byte) :
    c.identDone p (some bs) =
      (if c.bit (Reg.CAM_ID_CFG p) 20 = true ∧ leAt bs 0 n ≠ c.rdPair (Reg.CAM_ID_EXP_LO p) % 2 ^ (8 * n) then
        ((c.identSent p).identStored p n (leAt bs 0 n)).identFailed p
      else ((c.identSent p).identStored p n (leAt bs 0 n)).identPassed p) := by
  have hcfg : ((c.identSent p).identStored p n (leAt bs 0 n)).rd (Reg.CAM_ID_CFG p) = c.rd (Reg.CAM_ID_CFG p) :=
    rd_wrPair_ne _ (by unfold Reg.CAM_ID_CFG Reg.CAM_ID_LO; omega) (by unfold Reg.CAM_ID_CFG Reg.CAM_ID_LO; omega) _
  have hexp : ((c.identSent p).identStored p n (leAt bs 0 n)).rdPair (Reg.CAM_ID_EXP_LO p) = c.rdPair (Reg.CAM_ID_EXP_LO p) := by
    refine rdPair_congr c ?_ ?_ <;>
      exact rd_wrPair_ne _ (by unfold Reg.CAM_ID_EXP_LO Reg.CAM_ID_LO; omega)
        (by unfold Reg.CAM_ID_EXP_LO Reg.CAM_ID_LO; omega) _
  rw [← bit_congr c hcfg, ← hexp]
  simp only [identDone, hs, hf, hn, ne_eq, not_true_eq_false, if_false]
  rfl

end

theorem identPassed_cam : (c.identPassed p).cam[p] = { c.cam[p] with state := .idle, idOk := true, gap := true } :=
  onCam_self ..

/-- A failed read leaves the flag's event, and but for it the pipeline OFF, ENABLE clear and ID_ERR set. -/
theorem identFailed_spec : ((c.identFailed p).cam[p]).state = .off ∧ ((c.identFailed p).cam[p]).idOk = false ∧
    (c.identFailed p).bit (Reg.CAM_CTRL p) 0 = false ∧ (c.identFailed p).bit (Reg.CAM_FLAGS p) 1 = true := by
  have hne : Reg.CAM_CTRL p ≠ Reg.CAM_FLAGS p := by unfold Reg.CAM_CTRL Reg.CAM_FLAGS; omega
  have hrec : Recorded (((c.onCam p fun k => { k with state := .off, idOk := false }).setFld (Reg.CAM_CTRL p) 0 0 0).camSticky p
      cfID_ERR) (c.identFailed p) := camFlag_recorded ..
  have hcam : (c.identFailed p).cam[p] = { c.cam[p] with state := .off, idOk := false } := by
    rw [hrec.cam]
    exact onCam_self ..
  refine ⟨by rw [hcam], by rw [hcam], ?_, ?_⟩
  · rw [bit_congr _ (hrec.rd _ (camReg_unrecorded (by unfold Reg.CAM_CTRL; omega))), bit_congr _ (rd_camSticky_ne _ p hne _)]
    exact bit_setFld_zero ..
  · rw [bit_congr _ (hrec.rd _ (camReg_unrecorded (by unfold Reg.CAM_FLAGS; omega)))]
    exact bit_sticky _ _ (by decide) (by decide)

theorem identStored_rdPair {n : Nat} (h0 : 0 < n) (h8 : n ≤ 8) {v : Nat} (hv : v < 2 ^ (8 * n)) :
    (c.identStored p n v).rdPair (Reg.CAM_ID_LO p) % 2 ^ (8 * n) = v := by
  rw [identStored, rdPair_wrPair, Nat.mod_mod_of_dvd _ (Nat.pow_dvd_pow 2 (by omega : 8 * n ≤ 64)), setBits_mod (by omega),
    Nat.mod_eq_of_lt hv]

/-- Neither outcome changes the identity that is stored. -/
theorem identFailed_rdPair : (c.identFailed p).rdPair (Reg.CAM_ID_LO p) = c.rdPair (Reg.CAM_ID_LO p) := by
  have hrd {a : Nat} (h : a = Reg.CAM_ID_LO p ∨ a = Reg.CAM_ID_LO p + 4) : (c.identFailed p).rd a = c.rd a := by
    have ha : a < 0xC0000 := by unfold Reg.CAM_ID_LO at h; omega
    have hflag : a ≠ Reg.CAM_FLAGS p := by unfold Reg.CAM_ID_LO at h; unfold Reg.CAM_FLAGS; omega
    have hctrl : a ≠ Reg.CAM_CTRL p := by unfold Reg.CAM_ID_LO at h; unfold Reg.CAM_CTRL; omega
    rw [identFailed, (camFlag_recorded ..).rd _ (camReg_unrecorded ha), camSticky, sticky, rd_wr_ne _ hflag, setFld, wrn,
      rd_wr_ne _ hctrl]
    rfl
  exact rdPair_congr c (hrd (.inl rfl)) (hrd (.inr rfl))

end Chip

/-! ### The commands -/

section

variable {s : State} {p : Fin 16} {q : Requester} {v : Word}

theorem camEnable_enters (hs : s.settled = true) (hw : s.chip.writable q (Reg.CAM_CTRL p) (v ||| 1) = true)
    (ho : s.chip.cam[p].state = .off) (hv : (s.chip.camCtrlStored q p (v ||| 1)).camValid p = true) :
    Does (.camEnable q p v) s ((s.chip.camCtrlStored q p (v ||| 1)).onCam p fun k => { k with
      state := .ident, gap := false, gen := 0, genNs := s.chip.fld (Reg.CAM_EXP_NS p) 24 0, waiting := []
      uncertain := false, fsAt := none, period := none
      cci := if k.xfer.isSome then k.cci else s.chip.cciIdentity p }) := by
  have hrd {a : Nat} (h : a ≠ Reg.CAM_CTRL p) := s.chip.camCtrlStored_rd p h q (v ||| 1)
  have hns := Chip.fld_congr s.chip (hrd (a := Reg.CAM_EXP_NS p) (by unfold Reg.CAM_EXP_NS Reg.CAM_CTRL; omega)) 24 0
  have hcci := Chip.cciIdentity_congr (hrd (a := Reg.CAM_ID_CFG p) (by unfold Reg.CAM_ID_CFG Reg.CAM_CTRL; omega))
    (hrd (a := Reg.CAM_CCI_CFG p) (by unfold Reg.CAM_CCI_CFG Reg.CAM_CTRL; omega))
  have hon : (v ||| 1).getLsbD 0 = true := by simp
  have hq := ((State.settled_iff.mp hs).camCtrlStored q p (v ||| 1)).onCam p
  have hx : exec (.camEnable q p v) s = .next (s.act fun e c => c.busWrite e q (Reg.CAM_CTRL p) 15 (v ||| 1)) := rfl
  refine .intro hx ?_ (hq _).intake (hq _).lostPend
  rw [s.chip.busWrite_camCtrl s.env hw, hon, Chip.camEnable_valid (by rwa [Chip.camCtrlStored_cam]) hv, hns, hcci]

theorem camEnable_refused (hw : s.chip.writable q (Reg.CAM_CTRL p) (v ||| 1) = true)
    (ho : s.chip.cam[p].state = .off) (hv : (s.chip.camCtrlStored q p (v ||| 1)).camValid p = false) :
    Runs (.camEnable q p v) s fun t =>
      t.chip.cam = s.chip.cam ∧ t.chip.bit (Reg.CAM_CTRL p) 0 = false ∧ t.chip.bit (Reg.CAM_FLAGS p) 0 = true := by
  have hon : (v ||| 1).getLsbD 0 = true := by simp
  have hne : Reg.CAM_CTRL p ≠ Reg.CAM_FLAGS p := by unfold Reg.CAM_CTRL Reg.CAM_FLAGS; omega
  have hx : exec (.camEnable q p v) s = .next (s.act fun e c => c.busWrite e q (Reg.CAM_CTRL p) 15 (v ||| 1)) := rfl
  have hf := s.chip.busWrite_camCtrl s.env hw
  rw [hon, Chip.camEnable_invalid (by rwa [Chip.camCtrlStored_cam]) hv] at hf
  refine .of_recorded hx hf fun t ht => ?_
  have hrec := (Chip.camFlag_recorded ..).trans ht
  refine ⟨?_, ?_, ?_⟩
  · rw [hrec.cam]
    exact s.chip.seenBy_cam q
  · rw [Chip.bit_congr _ (hrec.rd _ (camReg_unrecorded (by unfold Reg.CAM_CTRL; omega))),
      Chip.bit_congr _ (Chip.rd_camSticky_ne _ p hne _)]
    exact Chip.bit_setFld_zero ..
  · rw [Chip.bit_congr _ (hrec.rd _ (camReg_unrecorded (by unfold Reg.CAM_FLAGS; omega)))]
    exact Chip.bit_sticky _ _ (by decide) (by decide)

theorem camDisable_leaves (hs : s.settled = true) (hw : s.chip.writable q (Reg.CAM_CTRL p) (v &&& 0xFFFFFFFE) = true)
    (ho : s.chip.cam[p].state ≠ .off) (hp : s.chip.cam[p].pend = none) :
    Does (.camDisable q p v) s ((s.chip.camCtrlStored q p (v &&& 0xFFFFFFFE)).onCam p fun k => { k with
      state := .off, gap := false, frame := none }) := by
  have hoff : (v &&& 0xFFFFFFFE).getLsbD 0 = false := by simp
  have hq := ((State.settled_iff.mp hs).camCtrlStored q p (v &&& 0xFFFFFFFE)).onCam p
  have hx : exec (.camDisable q p v) s =
      .next (s.act fun e c => c.busWrite e q (Reg.CAM_CTRL p) 15 (v &&& 0xFFFFFFFE)) := rfl
  refine .intro hx ?_ (hq _).intake (hq _).lostPend
  rw [s.chip.busWrite_camCtrl s.env hw, hoff]
  exact Chip.camEnable_clear (by rwa [Chip.camCtrlStored_cam]) (by rwa [Chip.camCtrlStored_cam])

theorem identComplete_exec (res : Option (List Byte)) :
    exec (.identComplete p res) s = .next (s.act fun _ c => c.identDone p res) := rfl

variable (hi : s.chip.cam[p].state = .ident)
include hi

theorem identComplete_empty (hs : s.settled = true) (hn : s.chip.fld (Reg.CAM_ID_CFG p) 19 16 = 0)
    (res : Option (List Byte)) : Does (.identComplete p res) s (s.chip.onCam p fun k => { k with
      state := .idle, idOk := true, gap := true, cci := [] }) :=
  have hq := (State.settled_iff.mp hs).onCam p
  .intro (identComplete_exec res) (Chip.identDone_empty hi hn res) (hq _).intake (hq _).lostPend

theorem identComplete_unread (hn : s.chip.fld (Reg.CAM_ID_CFG p) 19 16 ≠ 0) :
    Runs (.identComplete p none) s fun t => t.chip.cam[p].state = .off ∧ t.chip.cam[p].idOk = false ∧
      t.chip.bit (Reg.CAM_CTRL p) 0 = false ∧ t.chip.bit (Reg.CAM_FLAGS p) 1 = true := by
  refine .of_recorded (identComplete_exec none) (Chip.identDone_unread hi hn) fun t ht => ?_
  rw [ht.cam, Chip.bit_congr _ (ht.rd _ (camReg_unrecorded (by unfold Reg.CAM_CTRL; omega))),
    Chip.bit_congr _ (ht.rd _ (camReg_unrecorded (by unfold Reg.CAM_FLAGS; omega)))]
  exact (s.chip.identSent p).identFailed_spec p

theorem identComplete_read {n : Nat} (hf : s.chip.fld (Reg.CAM_ID_CFG p) 19 16 = n) (h0 : 0 < n) (h8 : n ≤ 8)
    (bs : List Byte) : Runs (.identComplete p (some bs)) s fun t =>
      t.chip.rdPair (Reg.CAM_ID_LO p) % 2 ^ (8 * n) = leAt bs 0 n ∧
      (if s.chip.bit (Reg.CAM_ID_CFG p) 20 = true ∧ leAt bs 0 n ≠ s.chip.rdPair (Reg.CAM_ID_EXP_LO p) % 2 ^ (8 * n) then
        t.chip.cam[p].state = .off ∧ t.chip.bit (Reg.CAM_FLAGS p) 1 = true
      else t.chip.cam[p].state = .idle ∧ t.chip.cam[p].idOk = true ∧ t.chip.cam[p].gap = true) := by
  have hstored := (s.chip.identSent p).identStored_rdPair p h0 h8 (leAt_lt bs 0 n)
  refine .of_recorded (identComplete_exec (some bs)) (Chip.identDone_read hi hf (Nat.ne_of_gt h0) bs) fun t ht => ?_
  have hpair := Chip.rdPair_congr _ (ht.rd (Reg.CAM_ID_LO p) (camReg_unrecorded (by unfold Reg.CAM_ID_LO; omega)))
    (ht.rd _ (camReg_unrecorded (by unfold Reg.CAM_ID_LO; omega)))
  have hflag := Chip.bit_congr _ (ht.rd (Reg.CAM_FLAGS p) (camReg_unrecorded (by unfold Reg.CAM_FLAGS; omega))) 1
  rw [hpair, hflag, ht.cam]
  split
  · obtain ⟨hoff, -, -, herr⟩ := Chip.identFailed_spec ((s.chip.identSent p).identStored p n (leAt bs 0 n)) p
    exact ⟨by rw [Chip.identFailed_rdPair, hstored], hoff, herr⟩
  · rw [Chip.identPassed_cam]
    exact ⟨hstored, rfl, rfl, rfl⟩

end

/-- Settles O34, command by command. -/
theorem pipelinesStartAndIdentify : Obligations.PipelinesStartAndIdentify := by
  intro s q p v hs
  refine ⟨fun hw ho => ⟨camEnable_enters hs hw ho, camEnable_refused hw ho⟩, camDisable_leaves hs, fun hi => ⟨?_, ?_, ?_⟩⟩
  · exact fun hn res => identComplete_empty hi hs hn res
  · exact fun hn => identComplete_unread hi hn
  · exact fun h0 h8 bs => identComplete_read hi rfl h0 h8 bs

end Sys2Proof.Machine
end

section
/-! PROOF. Received packets (R199 to R204): headers that are dropped, and the packets of the bound stream in a frame. -/

namespace Sys2Proof.Machine

namespace Chip

variable {c : Chip} {p : Fin 16}

/-! ### Headers (R199, R202, R204) -/

/-- A packet dropped for an error, with the flag of its kind. -/
def packetDropped (c : Chip) (p : Fin 16) (bits : Nat) : Chip := (c.camSticky p bits).bump (Reg.CAM_PKT_DROP_CNT p)

theorem Quiet.packetDropped (h : c.Quiet) (p : Fin 16) (bits : Nat) : (c.packetDropped p bits).Quiet := (h.wr ..).wr ..

theorem Quiet.eccFix (h : c.Quiet) (p : Fin 16) (fixed : Bool) : (c.eccFix p fixed).Quiet := by
  cases fixed
  · exact h
  · exact h.wr ..

theorem eccFix_cam (fixed : Bool) : (c.eccFix p fixed).cam = c.cam := by cases fixed <;> rfl
theorem eccFix_ttu (fixed : Bool) : (c.eccFix p fixed).ttu = c.ttu := by cases fixed <;> rfl

theorem eccFix_rd_ne {a : Nat} (h : a ≠ Reg.CAM_ECC_FIX_CNT p) (fixed : Bool) : (c.eccFix p fixed).rd a = c.rd a := by
  cases fixed
  · rfl
  · exact c.rd_wr_ne h _

/-- A pipeline in IDLE or IN_FRAME takes packets. -/
def Takes (c : Chip) (p : Fin 16) : Prop := (c.cam[p]).state = .idle ∨ (c.cam[p]).state = .inFrame

theorem Takes.not_off (h : c.Takes p) : (c.cam[p]).state ≠ .off := by
  rcases h with h | h <;> rw [h] <;> decide

theorem Takes.not_ident (h : c.Takes p) : (c.cam[p]).state ≠ .ident := by
  rcases h with h | h <;> rw [h] <;> decide

section

variable (e : Env) (bs : List Byte) (crc : Nat)

/-- A start of transmission in error has no header. -/
theorem packet_unheaded (ht : c.Takes p) : c.packet e p none bs crc = c.packetDropped p cfPHY_ERR := by
  simp only [packet, ht.not_off, ht.not_ident, if_false]
  rfl

variable {h : BitVec 32}

theorem packet_uncorrectable (ht : c.Takes p) (he : eccCheck h.toNat = none) :
    c.packet e p (some h) bs crc = c.packetDropped p cfECC_UE := by
  simp only [packet, ht.not_off, ht.not_ident, if_false, he]
  rfl

variable {x : Nat} {fixed : Bool} (he : eccCheck h.toNat = some (x, fixed))
include he

theorem packet_foreign (ho : (c.cam[p]).state ≠ .off) (hb : c.isBound p x = false) :
    c.packet e p (some h) bs crc = (c.camSticky p cfFOREIGN).bump (Reg.CAM_FOREIGN_CNT p) := by
  simp only [packet, ho, if_false, he, hb, Bool.not_false, if_true, foreign]

theorem packet_bound (ht : c.Takes p) (hb : c.isBound p x = true) :
    c.packet e p (some h) bs crc = (c.eccFix p fixed).boundPacket e p (bitsOf x 5 0) (bitsOf x 23 8) bs crc := by
  simp only [packet, ht.not_off, ht.not_ident, if_false, he, hb, Bool.not_true, Bool.false_eq_true]

end

end Chip

/-! ### The commands that receive a header -/

/-- The commands by which a header is received, whatever it turns out to mean. -/
def received (p : Fin 16) (h : BitVec 32) (bs : List Byte) (crc : BitVec 16) : List Instr :=
  [.frameEnd p h, .longPacket p (some h) bs crc, .foreignPacket ⟨p, h, bs, crc⟩,
    .frameStart p (h.extractLsb' 0 8) (h.extractLsb' 8 16) (h.extractLsb' 24 8)]

theorem header_parts (h : BitVec 32) : h.extractLsb' 24 8 ++ h.extractLsb' 8 16 ++ h.extractLsb' 0 8 = h := by
  rw [BitVec.extractLsb'_append_extractLsb'_eq_extractLsb' (show 24 = 8 + 16 from rfl),
    BitVec.extractLsb'_append_extractLsb'_eq_extractLsb' (show 8 = 0 + 8 from rfl)]
  exact BitVec.extractLsb'_eq_self

theorem frameStart_exec (s : State) (p : Fin 16) (h : BitVec 32) :
    exec (.frameStart p (h.extractLsb' 0 8) (h.extractLsb' 8 16) (h.extractLsb' 24 8)) s =
      .next (s.act fun e c => c.packet e p (some h) [] 0) := by
  have hx : exec (.frameStart p (h.extractLsb' 0 8) (h.extractLsb' 8 16) (h.extractLsb' 24 8)) s =
    .next (s.act fun e c => c.packet e p (some (h.extractLsb' 24 8 ++ h.extractLsb' 8 16 ++ h.extractLsb' 0 8)) [] 0) := rfl
  rw [hx, header_parts]

/-- Each of them receives a packet with that header. -/
theorem received_exec (s : State) {p : Fin 16} {h : BitVec 32} {bs : List Byte} {crc : BitVec 16} {i : Instr}
    (hi : i ∈ received p h bs crc) : ∃ bs' crc', exec i s = .next (s.act fun e c => c.packet e p (some h) bs' crc') := by
  simp only [received, List.mem_cons, List.not_mem_nil, or_false] at hi
  rcases hi with rfl | rfl | rfl | rfl
  · exact ⟨_, _, rfl⟩
  · exact ⟨_, _, rfl⟩
  · exact ⟨_, _, rfl⟩
  · exact ⟨_, _, frameStart_exec s p h⟩

section

variable {s : State} {p : Fin 16} {h : BitVec 32} {bs : List Byte} {crc : BitVec 16}

theorem received_drops (hs : s.settled = true) (ht : s.chip.Takes p) (he : eccCheck h.toNat = none) :
    ∀ i ∈ received p h bs crc, Does i s (s.chip.packetDropped p cfECC_UE) := by
  intro i hi
  obtain ⟨bs', crc', hx⟩ := received_exec s hi
  have hq := (State.settled_iff.mp hs).packetDropped p cfECC_UE
  exact .intro hx (Chip.packet_uncorrectable _ _ _ ht he) hq.intake hq.lostPend

theorem longPacket_unheaded_drops (hs : s.settled = true) (ht : s.chip.Takes p) :
    Does (.longPacket p none bs crc) s (s.chip.packetDropped p cfPHY_ERR) := by
  have hq := (State.settled_iff.mp hs).packetDropped p cfPHY_ERR
  have hx : exec (.longPacket p none bs crc) s = .next (s.act fun e c => c.packet e p none bs crc.toNat) := rfl
  exact .intro hx (Chip.packet_unheaded _ _ _ ht) hq.intake hq.lostPend

theorem received_counts_foreign (hs : s.settled = true) {x : Nat} {fixed : Bool} (he : eccCheck h.toNat = some (x, fixed))
    (ho : s.chip.cam[p].state ≠ .off) (hb : s.chip.isBound p x = false) : ∀ i ∈ received p h bs crc,
      Does i s ((s.chip.camSticky p cfFOREIGN).bump (Reg.CAM_FOREIGN_CNT p)) := by
  intro i hi
  obtain ⟨bs', crc', hx⟩ := received_exec s hi
  have hq : ((s.chip.camSticky p cfFOREIGN).bump (Reg.CAM_FOREIGN_CNT p)).Quiet := ((State.settled_iff.mp hs).wr ..).wr ..
  exact .intro hx (Chip.packet_foreign _ _ _ he ho hb) hq.intake hq.lostPend

end

end Sys2Proof.Machine
end

section
/-! PROOF. A frame in hand (R203 to R205): its lines, and its close where no buffer is taken for it. -/

namespace Sys2Proof.Machine

/-- A command that leaves one more occurrence to the performance counters logs what is left beside it. -/
theorem Logs.of_tally {i : Instr} {s : State} {f : Env → Chip → Chip} {d : Chip} {b v u n : Nat}
    (hx : exec i s = .next (s.act f)) (hf : f s.env s.chip = d.tally b v u n) : Logs i s d :=
  .intro hx (hf ▸ d.tally_recorded ..) (hf ▸ d.tally_unsent ..)

namespace Chip

variable {c : Chip} {p : Fin 16} {f : CamFrame}

/-- The frame in hand is `g`, its last packet accepted in tick `now`. -/
def frameGot (c : Chip) (p : Fin 16) (g : CamFrame) (now : Nat) : Chip :=
  c.onCam p fun k => { k with frame := some { g with lastPkt := now } }

/-- The frame in hand closed in tick `now` without a buffer, a missing line counted short (R203). -/
def frameClosed (c : Chip) (p : Fin 16) (f : CamFrame) (forced : Bool) (now : Nat) : Chip :=
  let few := decide (f.lines.length < f.cfg.height)
  let d := c.onCam p fun k => { k with
    state := .idle, gap := true, frame := none
    closed := k.closed ++ [{ f with short := f.short || few || forced, closeTick := now, buf := none }] }
  if few then (d.sticky (Reg.CAM_FLAGS p) 0x100).bump (Reg.CAM_FRAME_FIX_CNT p) else d

theorem onFrame_some (hf : (c.cam[p]).frame = some f) (g : CamFrame → CamFrame) :
    c.onFrame p g = c.onCam p fun k => { k with frame := some (g f) } :=
  onCam_congr (by rw [hf]; rfl)

theorem frameGot_frame (c : Chip) (p : Fin 16) (g : CamFrame) (now : Nat) :
    ((c.frameGot p g now).cam[p]).frame = some { g with lastPkt := now } :=
  congrArg Cam.frame (onCam_self ..)

/-! ### Lines (R200, R204) -/

/-- A whole line of the frame's width is added as it is received. -/
theorem addLine_good (hf : (c.cam[p]).frame = some f) (hroom : f.lines.length < f.cfg.height) {bs : List Byte} {px : List Nat}
    (hpx : unpackLine f.cfg.dt bs = some px) (hw : px.length = f.cfg.width) :
    c.addLine p true bs =
      (c.onCam p fun k => { k with frame := some { f with lines := f.lines ++ [px] } }).tally blkCAM 0x12 p 1 := by
  have hf' : ((c.tally blkCAM 0x12 p 1).cam[p]).frame = some f := hf
  have htake : px.take f.cfg.width = px := List.take_of_length_le (by omega)
  have hshort : ¬ px.length < f.cfg.width := by omega
  have hcut : ¬ f.cfg.width < px.length := by omega
  simp only [addLine, hf, Nat.not_le.mpr hroom, if_false, if_true, hpx, if_pos hw, onFrame_some hf', htake, hshort, hcut,
    decide_false, Bool.or_false]
  rfl

/-- A line whose CRC fails becomes pad. -/
theorem addLine_bad (hf : (c.cam[p]).frame = some f) (hroom : f.lines.length < f.cfg.height) (bs : List Byte) :
    c.addLine p false bs =
      (((c.onCam p fun k => { k with frame := some { f with lines := f.lines ++ [[]], damaged := true } }).sticky
        (Reg.CAM_FLAGS p) 0x40).bump (Reg.CAM_LINE_ERR_CNT p)).tally blkCAM 0x12 p 1 := by
  have hf' : ((((c.tally blkCAM 0x12 p 1).camSticky p cfLINE_CRC).bump (Reg.CAM_LINE_ERR_CNT p)).cam[p]).frame = some f := hf
  simp only [addLine, hf, Nat.not_le.mpr hroom, if_false, Bool.false_eq_true, onFrame_some hf']
  rfl

/-- The first embedded line is kept (R202). -/
theorem addEmbedded_some (hf : (c.cam[p]).frame = some f) (bs : List Byte) :
    c.addEmbedded p bs = c.onCam p fun k => { k with frame := some { f with emb := some (f.emb.getD (bs.take 32)) } } := by
  rw [addEmbedded, onFrame_some hf]
  cases hemb : f.emb with
  | none => rfl
  | some x =>
    have : ({ f with emb := some x } : CamFrame) = f := by rw [← hemb]
    simp only [Option.isSome_some, if_true, Option.getD_some, this]

theorem boundPacket_long (e : Env) {dt : Nat} (hd : shortType dt = false) (wc : Nat) (bs : List Byte) (crc : Nat) :
    c.boundPacket e p dt wc bs crc = c.boundLong p (decide (dt = 0x12))
      (decide ((bs.take wc).length = wc ∧ csiCrc (bs.take wc) = crc)) (bs.take wc) := by
  have h0 : dt ≠ 0 := by rintro rfl; simp [shortType] at hd
  have h1 : dt ≠ 1 := by rintro rfl; simp [shortType] at hd
  simp only [boundPacket, if_neg h0, if_neg h1, hd, Bool.false_eq_true, if_false]

section

variable (hs : (c.cam[p]).state = .inFrame)
include hs

/-- In a frame a packet's tick is noted before the packet is taken in. -/
theorem boundLong_inFrame (hf : (c.cam[p]).frame = some f) (emb ok : Bool) (bs : List Byte) :
    c.boundLong p emb ok bs =
      if emb then (c.frameGot p f c.ttu.index).addEmbedded p bs else (c.frameGot p f c.ttu.index).addLine p ok bs := by
  simp only [boundLong, hs, reduceCtorEq, if_false, onFrame_some hf]
  rfl

variable (hf : (c.cam[p]).frame = some f)
include hf

theorem boundLong_good (hroom : f.lines.length < f.cfg.height) {bs : List Byte} {px : List Nat}
    (hpx : unpackLine f.cfg.dt bs = some px) (hw : px.length = f.cfg.width) :
    c.boundLong p false true bs =
      (c.frameGot p { f with lines := f.lines ++ [px] } c.ttu.index).tally blkCAM 0x12 p 1 := by
  rw [boundLong_inFrame hs hf, if_neg Bool.false_ne_true, addLine_good (c.frameGot_frame p f c.ttu.index) hroom hpx hw, frameGot,
    onCam_onCam]
  rfl

theorem boundLong_bad (hroom : f.lines.length < f.cfg.height) (bs : List Byte) :
    c.boundLong p false false bs =
      (((c.frameGot p { f with lines := f.lines ++ [[]], damaged := true } c.ttu.index).sticky (Reg.CAM_FLAGS p) 0x40).bump
        (Reg.CAM_LINE_ERR_CNT p)).tally blkCAM 0x12 p 1 := by
  rw [boundLong_inFrame hs hf, if_neg Bool.false_ne_true, addLine_bad (c.frameGot_frame p f c.ttu.index) hroom, frameGot, onCam_onCam]
  rfl

theorem boundLong_embedded (ok : Bool) (bs : List Byte) :
    c.boundLong p true ok bs = c.frameGot p { f with emb := some (f.emb.getD (bs.take 32)) } c.ttu.index := by
  rw [boundLong_inFrame hs hf, if_pos rfl, addEmbedded_some (c.frameGot_frame p f c.ttu.index), frameGot, onCam_onCam]
  rfl

end

/-! ### The close of a frame (R203, R221) -/

/-- A pipeline that sends no frames closes one without a buffer. -/
theorem closeFrame_unbuffered (e : Env) (hf : (c.cam[p]).frame = some f) (hb : c.fld (Reg.CAM_CTRL p) 2 1 ≠ 1)
    (forced : Bool) :
    c.closeFrame e p true forced = (c.frameClosed p f forced c.ttu.index).tally blkCAM 0x10 p 1 := by
  have hfew {d : Chip} (h : d.fld (Reg.CAM_CTRL p) 2 1 = c.fld (Reg.CAM_CTRL p) 2 1) (g : CamFrame) :
      d.takeBuffer e p g = (d, none) := by
    rw [takeBuffer, if_pos (.inl (by rwa [h]))]
  have hctrl : ((c.camSticky p cfFRAME_SHORT).bump (Reg.CAM_FRAME_FIX_CNT p)).fld (Reg.CAM_CTRL p) 2 1 =
      c.fld (Reg.CAM_CTRL p) 2 1 :=
    fld_congr c ((rd_wr_ne _ (by unfold Reg.CAM_CTRL Reg.CAM_FRAME_FIX_CNT; omega) _).trans
      (c.rd_camSticky_ne p (by unfold Reg.CAM_CTRL Reg.CAM_FLAGS; omega) _)) 2 1
  by_cases hshort : f.lines.length < f.cfg.height
  · simp only [closeFrame, hf, hshort, decide_true, if_true, hfew hctrl, frameClosed]
    rfl
  · simp only [closeFrame, hf, hshort, decide_false, Bool.false_eq_true, if_false, hfew rfl, frameClosed]
    rfl

end Chip

end Sys2Proof.Machine
end

section
/-! PROOF. The start of a frame (R203, R205, R207): the close of one before it, and the frame that opens. -/

namespace Sys2Proof.Machine

/-! ### What a close leaves of a pipeline (R203, R221, R222) -/

/-- The registers of pipeline `p` that show its status, from CAM_STATUS to CAM_MPC_HELD_CNT. -/
def camStatusReg (p a : Nat) : Bool := decide (Reg.CAM_STATUS p ≤ a ∧ a ≤ Reg.CAM_MPC_HELD_CNT p)

/-- `d` has the pipelines and the ticks of `c`, and its registers but for the recorder's and the status of pipeline `p`, in
which flags are only ever set. -/
structure KeepsFrames (p : Fin 16) (c d : Chip) : Prop where
  cam : d.cam = c.cam
  ttu : d.ttu = c.ttu
  rd : ∀ a, recorderReg a = false → camStatusReg p a = false → d.rd a = c.rd a
  flag : ∀ i, c.bit (Reg.CAM_FLAGS p) i = true → d.bit (Reg.CAM_FLAGS p) i = true

theorem camStatusReg_iff {p a : Nat} : camStatusReg p a = true ↔ Reg.CAM_STATUS p ≤ a ∧ a ≤ Reg.CAM_MPC_HELD_CNT p :=
  decide_eq_true_iff

/-- Registers below the status of a pipeline are not part of it. -/
theorem camStatusReg_of_lt {p a : Nat} (h : a < Reg.CAM_STATUS p) : camStatusReg p a = false := by
  rw [← Bool.not_eq_true, camStatusReg_iff]
  omega

namespace KeepsFrames

variable {p : Fin 16} {c d e : Chip}

theorem refl (c : Chip) : KeepsFrames p c c := ⟨rfl, rfl, fun _ _ _ => rfl, fun _ h => h⟩

theorem trans (h : KeepsFrames p c d) (k : KeepsFrames p d e) : KeepsFrames p c e :=
  ⟨k.cam.trans h.cam, k.ttu.trans h.ttu, fun a ha hs => (k.rd a ha hs).trans (h.rd a ha hs), fun i hi => k.flag i (h.flag i hi)⟩

end KeepsFrames

theorem EngineOnly.keepsFrames {p : Fin 16} {c d : Chip} (h : EngineOnly c d) : KeepsFrames p c d where
  cam := (Recorded.cam h :)
  ttu := (Recorded.ttu h :)
  rd a ha _ := (Recorded.rd h a ha :)
  flag i hi := by
    have hf : d.rd (Reg.CAM_FLAGS p) = c.rd (Reg.CAM_FLAGS p) :=
      Recorded.rd h _ (camReg_unrecorded (by unfold Reg.CAM_FLAGS; omega))
    rwa [Chip.bit_congr c hf]

theorem Recorded.keepsFrames {p : Fin 16} {c d : Chip} (h : Recorded c d) : KeepsFrames p c d := h.engineOnly.keepsFrames

theorem Cam.applyGens_seq (k : Cam) (n : Nat) : (k.applyGens n).seq = k.seq := by
  unfold Cam.applyGens
  dsimp only
  split <;> rfl

namespace Chip

variable (c : Chip) (p : Fin 16)

theorem camSticky_keepsFrames (bits : Nat) : KeepsFrames p c (c.camSticky p bits) where
  cam := rfl
  ttu := rfl
  rd a _ hs := c.rd_camSticky_ne p (by
    rintro rfl
    rw [← Bool.not_eq_true, camStatusReg_iff] at hs
    unfold Reg.CAM_STATUS Reg.CAM_FLAGS Reg.CAM_MPC_HELD_CNT at hs
    omega) bits
  flag _ := c.bit_sticky_of_bit bits

theorem bump_keepsFrames {a : Nat} (hs : camStatusReg p a = true) (hf : a ≠ Reg.CAM_FLAGS p) : KeepsFrames p c (c.bump a) where
  cam := rfl
  ttu := rfl
  rd b _ hb := c.rd_wr_ne (by rintro rfl; simp [hs] at hb) _
  flag i hi := (bit_congr c (c.rd_wr_ne hf.symm _) i).trans hi

theorem frameFix_keepsFrames : KeepsFrames p c (c.bump (Reg.CAM_FRAME_FIX_CNT p)) := by
  refine c.bump_keepsFrames p (camStatusReg_iff.mpr ?_) ?_
  · unfold Reg.CAM_STATUS Reg.CAM_FRAME_FIX_CNT Reg.CAM_MPC_HELD_CNT
    omega
  · unfold Reg.CAM_FRAME_FIX_CNT Reg.CAM_FLAGS
    omega

theorem eccFix_keepsFrames (fixed : Bool) : KeepsFrames p c (c.eccFix p fixed) := by
  cases fixed
  · exact .refl c
  · refine c.bump_keepsFrames p (camStatusReg_iff.mpr ?_) ?_
    · unfold Reg.CAM_STATUS Reg.CAM_ECC_FIX_CNT Reg.CAM_MPC_HELD_CNT
      omega
    · unfold Reg.CAM_ECC_FIX_CNT Reg.CAM_FLAGS
      omega

theorem dmaDrop_keepsFrames (bits : Nat) : KeepsFrames p c (c.dmaDrop p bits) := by
  refine (c.bump_keepsFrames p (camStatusReg_iff.mpr ?_) ?_).trans (camSticky_keepsFrames ..)
  · unfold Reg.CAM_STATUS Reg.CAM_DMA_DROP_CNT Reg.CAM_MPC_HELD_CNT
    omega
  · unfold Reg.CAM_DMA_DROP_CNT Reg.CAM_FLAGS
    omega

/-- The full-frame budget is no part of a pipeline's frames. -/
theorem withCamShared_keepsFrames (k : CamShared) : KeepsFrames p c { c with camShared := k } :=
  ⟨rfl, rfl, fun _ _ _ => rfl, fun _ h => h⟩

/-- A buffer that is too small fails, and is posted. -/
theorem failBuffer_keepsFrames (e : Env) (r : Fin 256) (f : Ring → Ring) (idx status : Nat) (k : Compl) :
    KeepsFrames p c (((c.onRing r f).noteFailure r idx status).post e r k) :=
  (((c.onRing_recorded r f).trans (noteFailure_recorded ..)).engineOnly.trans (post_engineOnly ..)).keepsFrames

theorem takeBuffer_keepsFrames (e : Env) (f : CamFrame) : KeepsFrames p c (c.takeBuffer e p f).1 := by
  have hrefill : KeepsFrames p c c.refill := c.withCamShared_keepsFrames p _
  have hdrop (bits : Nat) := hrefill.trans (c.refill.dmaDrop_keepsFrames p bits)
  unfold takeBuffer
  split
  · exact .refl c
  · dsimp only
    split
    · exact hdrop _
    · split
      · exact hdrop _
      · split
        · exact hdrop _
        · split
          · exact (hrefill.trans (failBuffer_keepsFrames ..)).trans (dmaDrop_keepsFrames ..)
          · split
            · exact hdrop _
            · exact (hrefill.trans (c.refill.withCamShared_keepsFrames p _)).trans (onRing_recorded ..).keepsFrames

/-- The close of a frame in hand takes it from its pipeline, and leaves the others as they are. -/
theorem closeFrame_spec (e : Env) {f : CamFrame} (hf : (c.cam[p]).frame = some f) (gap short : Bool) :
    ∃ d g, KeepsFrames p c d ∧ c.closeFrame e p gap short = d.onCam p fun k => { k with
      state := .idle, gap := gap, frame := none, closed := k.closed ++ [g] } := by
  let few := decide (f.lines.length < f.cfg.height)
  let counted := if few then (c.camSticky p cfFRAME_SHORT).bump (Reg.CAM_FRAME_FIX_CNT p) else c
  have hcounted : KeepsFrames p c counted := by
    unfold counted
    split
    · exact (c.camSticky_keepsFrames p _).trans (frameFix_keepsFrames ..)
    · exact .refl c
  let done : CamFrame := { f with short := f.short || few || short, closeTick := counted.ttu.index }
  refine ⟨_, { done with buf := (counted.takeBuffer e p done).2 }, (hcounted.trans
    (counted.takeBuffer_keepsFrames p e done)).trans (tally_recorded _ blkCAM 0x10 p 1).keepsFrames, ?_⟩
  simp only [closeFrame, hf]
  rfl

/-! ### The commit at a frame's start (R207) -/

theorem foldl_commitReg_acts (ks : List Nat) : ∃ m, ks.foldl commitReg c = { c with acts := m } := by
  induction ks generalizing c with
  | nil => exact ⟨c.acts, rfl⟩
  | cons k ks ih =>
    obtain ⟨m, hm⟩ := ih (c.commitReg k)
    exact ⟨m, hm⟩

theorem act_foldl_commitReg_ne {ks : List Nat} {a : Nat} (h : a ∉ ks) : (ks.foldl commitReg c).act a = c.act a := by
  induction ks generalizing c with
  | nil => rfl
  | cons k ks ih =>
    rw [List.mem_cons, not_or] at h
    exact (ih _ h.2).trans (c.act_setAct_ne h.1 _)

/-- A register among those committed at once has its shadow's value for active copy. -/
theorem act_foldl_commitReg {ks : List Nat} {a : Nat} (h : a ∈ ks) : (ks.foldl commitReg c).act a = c.rd a := by
  induction ks generalizing c with
  | nil => simp at h
  | cons k ks ih =>
    by_cases hks : a ∈ ks
    · exact ih (c.commitReg k) hks
    · obtain rfl : a = k := (List.mem_cons.mp h).resolve_right hks
      exact ((c.commitReg a).act_foldl_commitReg_ne hks).trans (c.act_setAct_self a _)

/-- The commit at a frame's start changes active copies alone (R207). -/
theorem camCommit_acts : ∃ m, c.camCommit p = { c with acts := m } := by
  unfold camCommit
  exact c.foldl_commitReg_acts _

theorem camCommit_cam : (c.camCommit p).cam = c.cam := by
  obtain ⟨m, hm⟩ := c.camCommit_acts p
  rw [hm]

theorem camCommit_ttu : (c.camCommit p).ttu = c.ttu := by
  obtain ⟨m, hm⟩ := c.camCommit_acts p
  rw [hm]

theorem camCommit_rd (a : Nat) : (c.camCommit p).rd a = c.rd a := by
  obtain ⟨m, hm⟩ := c.camCommit_acts p
  rw [hm]
  rfl

theorem Quiet.camCommit {c : Chip} (h : c.Quiet) (p : Fin 16) : (c.camCommit p).Quiet := by
  obtain ⟨m, hm⟩ := c.camCommit_acts p
  rw [hm]
  exact h.congr rfl rfl rfl

/-- PIX_CFG takes effect by it. -/
theorem camCommit_pixCfg : (c.camCommit p).actFld (Reg.CAM_PIX_CFG p) 29 16 = c.fld (Reg.CAM_PIX_CFG p) 29 16 := by
  unfold actFld actn fld rdn camCommit
  rw [act_foldl_commitReg c (by simp)]

/-! ### The frame that opens (R205, R207, R218) -/

/-- The next frame numbered, and the generations that are due taken. -/
def frameNumbered (c : Chip) (p : Fin 16) : Chip :=
  let n := (c.cam[p]).seq + 1
  c.onCam p fun k => (({ k with seq := n }).applyGens n)

/-- The frame that opens there. -/
def firstFrame (c : Chip) (p : Fin 16) (n fn : Nat) : CamFrame :=
  let k := c.cam[p]
  let (st, ss, early) := c.soeOf c.ttu.index c.subTick (c.fld (Reg.CAM_SOE_CFG p) 23 0)
  { cfg := c.camCfg p, seq := n, gen := k.gen, expUnits := expUnits k.genNs, uncertain := k.uncertain, fn := fn
    soeTick := st, soeSub := ss, early := early, lines := [], emb := none, lastPkt := c.ttu.index
    damaged := false, short := false, cut := false, fixed := false, closeTick := 0, buf := none }

theorem firstFrame_spec (n fn : Nat) : (c.firstFrame p n fn).seq = n ∧ (c.firstFrame p n fn).fn = fn ∧
    (c.firstFrame p n fn).lines = [] ∧ (c.firstFrame p n fn).lastPkt = c.ttu.index ∧
    (c.firstFrame p n fn).cfg = c.camCfg p := by
  unfold firstFrame
  exact ⟨rfl, rfl, rfl, rfl, rfl⟩

/-- FRAME_SEQ and EXP_GEN show that frame. -/
def frameShown (c : Chip) (p : Fin 16) (n : Nat) : Chip :=
  (c.wrn (Reg.CAM_FRAME_SEQ p) (n % 2 ^ 32)).setFld (Reg.CAM_EXP_GEN p) 31 16 (c.cam[p]).gen

/-- The frame is in hand, its settings committed. -/
def frameOpened (c : Chip) (p : Fin 16) (fn : Nat) : Chip :=
  let n := (c.cam[p]).seq + 1
  let d := (c.frameNumbered p).frameShown p n
  d.onCam p fun k => { k with
    state := .inFrame, gap := false, frame := some ((c.frameNumbered p).firstFrame p n fn)
    fsAt := some d.ttu.up, period := k.fsAt.map fun a => d.ttu.up - a }

theorem openFrame_eq (fn : Nat) : c.openFrame p fn = (c.camCommit p).frameOpened p fn := rfl

theorem frameNumbered_seq : ((c.frameNumbered p).cam[p]).seq = (c.cam[p]).seq + 1 := by
  rw [frameNumbered, onCam_self, Cam.applyGens_seq]

theorem frameShown_cam (n : Nat) : (c.frameShown p n).cam = c.cam := by
  rw [frameShown, setFld, wrn, wr_cam, wrn, wr_cam]

theorem frameShown_rd_ne {a : Nat} (hs : a ≠ Reg.CAM_FRAME_SEQ p) (hg : a ≠ Reg.CAM_EXP_GEN p) (n : Nat) :
    (c.frameShown p n).rd a = c.rd a := (rd_wr_ne _ hg _).trans (c.rd_wr_ne hs _)

theorem frameShown_seq (n : Nat) : (c.frameShown p n).rdn (Reg.CAM_FRAME_SEQ p) = n % 2 ^ 32 := by
  unfold rdn frameShown setFld wrn
  rw [rd_wr_ne _ (by unfold Reg.CAM_FRAME_SEQ Reg.CAM_EXP_GEN; omega), rd_wr_self, BitVec.toNat_ofNat, Nat.mod_mod]

/-- An FS makes its pipeline IN_FRAME with the next sequence number. -/
theorem openFrame_state (fn : Nat) : ((c.openFrame p fn).cam[p]).state = .inFrame ∧
    ((c.openFrame p fn).cam[p]).gap = false ∧ ((c.openFrame p fn).cam[p]).seq = (c.cam[p]).seq + 1 := by
  rw [openFrame_eq, ← c.camCommit_cam p]
  generalize c.camCommit p = d
  rw [frameOpened, onCam_self]
  exact ⟨rfl, rfl, d.frameNumbered_seq p⟩

/-- The frame in hand after it, and the settings that govern the frame. -/
theorem openFrame_frame (fn : Nat) : ∃ f, ((c.openFrame p fn).cam[p]).frame = some f ∧ f.seq = (c.cam[p]).seq + 1 ∧
    f.fn = fn ∧ f.lines = [] ∧ f.lastPkt = c.ttu.index ∧ f.cfg.width = c.fld (Reg.CAM_GEOM p) 12 0 ∧
    f.cfg.thresh = c.fld (Reg.CAM_PIX_CFG p) 29 16 := by
  rw [openFrame_eq, ← c.camCommit_cam p, ← c.camCommit_ttu p, ← c.camCommit_pixCfg p, ← fld_congr c (c.camCommit_rd p _)]
  generalize c.camCommit p = d
  obtain ⟨hseq, hfn, hlines, hlast, hcfg⟩ := (d.frameNumbered p).firstFrame_spec p ((d.cam[p]).seq + 1) fn
  rw [frameOpened, onCam_self]
  exact ⟨_, rfl, hseq, hfn, hlines, hlast, congrArg CamCfg.width hcfg, congrArg CamCfg.thresh hcfg⟩

theorem openFrame_cam_ne {y : Fin 16} (h : y ≠ p) (fn : Nat) : (c.openFrame p fn).cam[y] = c.cam[y] := by
  rw [openFrame_eq, ← c.camCommit_cam p]
  generalize c.camCommit p = d
  rw [frameOpened, onCam_ne _ h, frameShown_cam, frameNumbered, onCam_ne _ h]

theorem openFrame_flag (fn i : Nat) : (c.openFrame p fn).bit (Reg.CAM_FLAGS p) i = c.bit (Reg.CAM_FLAGS p) i := by
  refine bit_congr c ?_ i
  rw [openFrame_eq, ← c.camCommit_rd p]
  generalize c.camCommit p = d
  rw [frameOpened, onCam_rd, frameShown_rd_ne _ p (by unfold Reg.CAM_FLAGS Reg.CAM_FRAME_SEQ; omega)
    (by unfold Reg.CAM_FLAGS Reg.CAM_EXP_GEN; omega), frameNumbered, onCam_rd]

theorem openFrame_frameSeq (fn : Nat) : (c.openFrame p fn).rdn (Reg.CAM_FRAME_SEQ p) = ((c.cam[p]).seq + 1) % 2 ^ 32 := by
  rw [openFrame_eq, ← c.camCommit_cam p]
  generalize c.camCommit p = d
  rw [frameOpened, rdn, onCam_rd]
  exact frameShown_seq ..

theorem Quiet.openFrame {c : Chip} (h : c.Quiet) (p : Fin 16) (fn : Nat) : (c.openFrame p fn).Quiet := by
  have hd := h.camCommit p
  rw [Chip.openFrame_eq]
  generalize c.camCommit p = d at hd ⊢
  exact (((hd.onCam p _).wr ..).wr ..).onCam p _

end Chip

end Sys2Proof.Machine
end

section
/-! PROOF. The commands of a frame (R203 to R205): FS, FE, the packets between them and the frame time-out. -/

namespace Sys2Proof.Machine

namespace Chip

variable {c : Chip} {p : Fin 16} (e : Env) (wc : Nat) (bs : List Byte) (crc : Nat)

theorem boundPacket_start_idle (hs : (c.cam[p]).state = .idle) : c.boundPacket e p 0 wc bs crc = c.openFrame p wc := by
  simp only [boundPacket, hs, decide_true, if_true]

theorem boundPacket_start_inFrame (hs : (c.cam[p]).state = .inFrame) :
    c.boundPacket e p 0 wc bs crc = ((c.camSticky p cfFS_NO_FE).closeFrame e p false true).openFrame p wc := by
  simp only [boundPacket, hs, reduceCtorEq, decide_false, if_true, Bool.false_eq_true, if_false]

theorem boundPacket_end_idle (hs : (c.cam[p]).state = .idle) :
    c.boundPacket e p 1 wc bs crc = c.packetDropped p cfORPHAN := by
  simp only [boundPacket, hs, decide_true, Nat.one_ne_zero, if_false, if_true]
  rfl

theorem boundPacket_end_inFrame (hs : (c.cam[p]).state = .inFrame) :
    c.boundPacket e p 1 wc bs crc = c.closeFrame e p true false := by
  simp only [boundPacket, hs, reduceCtorEq, decide_false, Nat.one_ne_zero, if_true, Bool.false_eq_true, if_false]

end Chip

/-- Whether a payload is whole and its CRC passes (R204). -/
def payloadGood (wc : Nat) (bs : List Byte) (crc : BitVec 16) : Bool :=
  decide ((bs.take wc).length = wc ∧ csiCrc (bs.take wc) = crc.toNat)

/-- A bound packet of pixels or embedded data is the frame's own. -/
theorem Chip.packet_long {c : Chip} {p : Fin 16} (e : Env) {h : BitVec 32} (bs : List Byte) (crc : BitVec 16) {x : Nat}
    {fixed : Bool} (he : eccCheck h.toNat = some (x, fixed)) (hb : c.isBound p x = true) (hi : (c.cam[p]).state = .inFrame)
    (hsh : shortType (bitsOf x 5 0) = false) :
    c.packet e p (some h) bs crc.toNat = (c.eccFix p fixed).boundLong p (decide (bitsOf x 5 0 = 0x12))
      (payloadGood (bitsOf x 23 8) bs crc) (bs.take (bitsOf x 23 8)) := by
  rw [packet_bound e bs crc.toNat he (.inr hi) hb, boundPacket_long e hsh]
  rfl

theorem longPacket_exec (s : State) (p : Fin 16) (h : BitVec 32) (bs : List Byte) (crc : BitVec 16) :
    exec (.longPacket p (some h) bs crc) s = .next (s.act fun e c => c.packet e p (some h) bs crc.toNat) := rfl

/-! ### The module that an FS finds (R203) -/

/-- `b` is `c` with the frame of pipeline `p` out of hand: number, settings, ticks and other pipelines are as before. -/
structure ReadyToOpen (p : Fin 16) (c b : Chip) : Prop where
  seq : (b.cam[p]).seq = (c.cam[p]).seq
  other : ∀ y : Fin 16, y ≠ p → b.cam[y] = c.cam[y]
  ttu : b.ttu = c.ttu
  rd : ∀ a, a < Reg.CAM_STATUS p → b.rd a = c.rd a

theorem KeepsFrames.readyToOpen {p : Fin 16} {c b : Chip} (h : KeepsFrames p c b) : ReadyToOpen p c b where
  seq := by rw [h.cam]
  other y _ := by rw [h.cam]
  ttu := h.ttu
  rd a ha := h.rd a (camReg_unrecorded (by unfold Reg.CAM_STATUS at ha; omega)) (camStatusReg_of_lt ha)

theorem ReadyToOpen.onCam {p : Fin 16} {c b : Chip} (h : ReadyToOpen p c b) {f : Cam → Cam}
    (hf : (f b.cam[p]).seq = (b.cam[p]).seq) : ReadyToOpen p c (b.onCam p f) where
  seq := by rw [Chip.onCam_self, hf, h.seq]
  other y hy := by rw [Chip.onCam_ne _ hy, h.other y hy]
  ttu := h.ttu
  rd := h.rd

/-- What an accepted FS leaves, whatever the recorder adds. -/
theorem ReadyToOpen.opens {p : Fin 16} {c b t : Chip} (h : ReadyToOpen p c b) {fn : Nat} (ht : Recorded (b.openFrame p fn) t) :
    (t.cam[p]).state = .inFrame ∧ (t.cam[p]).gap = false ∧ (t.cam[p]).seq = (c.cam[p]).seq + 1 ∧
      t.rdn (Reg.CAM_FRAME_SEQ p) = ((c.cam[p]).seq + 1) % 2 ^ 32 ∧
      (∃ f, (t.cam[p]).frame = some f ∧ f.seq = (c.cam[p]).seq + 1 ∧ f.fn = fn ∧ f.lines = [] ∧
        f.lastPkt = c.ttu.index ∧ f.cfg.width = c.fld (Reg.CAM_GEOM p) 12 0 ∧
        f.cfg.thresh = c.fld (Reg.CAM_PIX_CFG p) 29 16) ∧ ∀ y : Fin 16, y ≠ p → t.cam[y] = c.cam[y] := by
  have hwidth := Chip.fld_congr c (h.rd (Reg.CAM_GEOM p) (by unfold Reg.CAM_GEOM Reg.CAM_STATUS; omega)) 12 0
  have hthresh := Chip.fld_congr c (h.rd (Reg.CAM_PIX_CFG p) (by unfold Reg.CAM_PIX_CFG Reg.CAM_STATUS; omega)) 29 16
  obtain ⟨hstate, hgap, hseq⟩ := b.openFrame_state p fn
  have hframe := b.openFrame_frame p fn
  rw [h.seq] at hseq hframe
  rw [h.ttu, hwidth, hthresh] at hframe
  rw [ht.cam]
  refine ⟨hstate, hgap, hseq, ?_, hframe, fun y hy => ?_⟩
  · rw [← h.seq, ← b.openFrame_frameSeq p fn]
    unfold Chip.rdn
    rw [ht.rd _ (camReg_unrecorded (by unfold Reg.CAM_FRAME_SEQ; omega))]
  · rw [b.openFrame_cam_ne p hy, h.other y hy]

section

variable {s : State} {p : Fin 16} {h : BitVec 32} {bs : List Byte} {crc : BitVec 16} {x : Nat} {fixed : Bool}
  (he : eccCheck h.toNat = some (x, fixed)) (hb : s.chip.isBound p x = true)
include he hb

/-- FS in IDLE opens a frame and does nothing else. -/
theorem frameStart_opens_idle (hs : s.settled = true) (hdt : bitsOf x 5 0 = 0) (hi : s.chip.cam[p].state = .idle) :
    Runs (.frameStart p (h.extractLsb' 0 8) (h.extractLsb' 8 16) (h.extractLsb' 24 8)) s fun t =>
      (∃ b, ReadyToOpen p s.chip b ∧ Recorded (b.openFrame p (bitsOf x 23 8)) t.chip) ∧ s.sameMem t := by
  have hp := Chip.packet_bound s.env [] 0 he (.inl hi) hb
  rw [hdt, Chip.boundPacket_start_idle _ _ _ _ (by rw [Chip.eccFix_cam, hi])] at hp
  have hq := ((State.settled_iff.mp hs).eccFix p fixed).openFrame p (bitsOf x 23 8)
  exact .of_quiet (frameStart_exec s p h) hp hq
    ⟨⟨_, (s.chip.eccFix_keepsFrames p fixed).readyToOpen, .refl _⟩, rfl, rfl, rfl⟩

/-- FS in a frame first closes it, with FS_NO_FE. -/
theorem frameStart_opens_inFrame (hdt : bitsOf x 5 0 = 0) (hi : s.chip.cam[p].state = .inFrame)
    (hf : s.chip.cam[p].frame.isSome = true) :
    Runs (.frameStart p (h.extractLsb' 0 8) (h.extractLsb' 8 16) (h.extractLsb' 24 8)) s fun t =>
      (∃ b, ReadyToOpen p s.chip b ∧ Recorded (b.openFrame p (bitsOf x 23 8)) t.chip) ∧
      t.chip.bit (Reg.CAM_FLAGS p) 10 = true := by
  obtain ⟨f, hf⟩ := Option.isSome_iff_exists.mp hf
  let d := (s.chip.eccFix p fixed).camSticky p cfFS_NO_FE
  have hd : KeepsFrames p s.chip d := (s.chip.eccFix_keepsFrames p fixed).trans (Chip.camSticky_keepsFrames ..)
  obtain ⟨b, g, hk, hclose⟩ := d.closeFrame_spec p s.env (f := f) (by rw [hd.cam, hf]) false true
  have hp := Chip.packet_bound s.env [] 0 he (.inr hi) hb
  rw [hdt, Chip.boundPacket_start_inFrame _ _ _ _ (by rw [Chip.eccFix_cam, hi]), hclose] at hp
  refine .of_recorded (frameStart_exec s p h) hp fun t ht => ⟨⟨_, ?_, ht⟩, ?_⟩
  · exact (hd.trans hk).readyToOpen.onCam (f := fun k => _) rfl
  · rw [Chip.bit_congr _ (ht.rd _ (camReg_unrecorded (by unfold Reg.CAM_FLAGS; omega))), Chip.openFrame_flag]
    exact hk.flag 10 (Chip.bit_sticky _ _ (by decide) (by decide))

theorem frameEnd_orphaned (hs : s.settled = true) (hdt : bitsOf x 5 0 = 1) (hi : s.chip.cam[p].state = .idle) :
    Does (.frameEnd p h) s ((s.chip.eccFix p fixed).packetDropped p cfORPHAN) := by
  have hp := Chip.packet_bound s.env [] 0 he (.inl hi) hb
  rw [hdt, Chip.boundPacket_end_idle _ _ _ _ (by rw [Chip.eccFix_cam, hi])] at hp
  have hq := ((State.settled_iff.mp hs).eccFix p fixed).packetDropped p cfORPHAN
  have hx : exec (.frameEnd p h) s = .next (s.act fun e c => c.packet e p (some h) [] 0) := rfl
  exact .intro hx hp hq.intake hq.lostPend

variable {f : CamFrame} (hi : s.chip.cam[p].state = .inFrame) (hf : s.chip.cam[p].frame = some f)
include hi hf

theorem frameEnd_closes (hdt : bitsOf x 5 0 = 1) (hctrl : s.chip.fld (Reg.CAM_CTRL p) 2 1 ≠ 1) :
    Logs (.frameEnd p h) s ((s.chip.eccFix p fixed).frameClosed p f false s.chip.ttu.index) := by
  have hctrl' : (s.chip.eccFix p fixed).fld (Reg.CAM_CTRL p) 2 1 ≠ 1 := by
    rwa [Chip.fld_congr _ (Chip.eccFix_rd_ne (by unfold Reg.CAM_CTRL Reg.CAM_ECC_FIX_CNT; omega) fixed)]
  have hp := Chip.packet_bound s.env [] 0 he (.inr hi) hb
  rw [hdt, Chip.boundPacket_end_inFrame _ _ _ _ (by rw [Chip.eccFix_cam, hi]),
    Chip.closeFrame_unbuffered s.env (by rw [Chip.eccFix_cam, hf]) hctrl', Chip.eccFix_ttu] at hp
  have hx : exec (.frameEnd p h) s = .next (s.act fun e c => c.packet e p (some h) [] 0) := rfl
  exact .of_tally hx hp

section

variable (hsh : shortType (bitsOf x 5 0) = false) (hemb : bitsOf x 5 0 ≠ 0x12) (hroom : f.lines.length < f.cfg.height)
include hsh hemb hroom

/-- A packet of pixels whose CRC passes adds them as a line. -/
theorem longPacket_adds_line (hgood : payloadGood (bitsOf x 23 8) bs crc = true) {px : List Nat}
    (hpx : unpackLine f.cfg.dt (bs.take (bitsOf x 23 8)) = some px) (hw : px.length = f.cfg.width) :
    Logs (.longPacket p (some h) bs crc) s
      ((s.chip.eccFix p fixed).frameGot p { f with lines := f.lines ++ [px] } s.chip.ttu.index) := by
  have hp := Chip.packet_long s.env bs crc he hb hi hsh
  rw [decide_eq_false hemb, hgood, Chip.boundLong_good (by rw [Chip.eccFix_cam, hi]) (by rw [Chip.eccFix_cam, hf]) hroom hpx hw,
    Chip.eccFix_ttu] at hp
  exact .of_tally (longPacket_exec s p h bs crc) hp

/-- One whose CRC fails adds a line of pad, which is counted. -/
theorem longPacket_adds_pad (hbad : payloadGood (bitsOf x 23 8) bs crc = false) :
    Logs (.longPacket p (some h) bs crc) s
      ((((s.chip.eccFix p fixed).frameGot p { f with lines := f.lines ++ [[]], damaged := true } s.chip.ttu.index).sticky
        (Reg.CAM_FLAGS p) 0x40).bump (Reg.CAM_LINE_ERR_CNT p)) := by
  have hp := Chip.packet_long s.env bs crc he hb hi hsh
  rw [decide_eq_false hemb, hbad, Chip.boundLong_bad (by rw [Chip.eccFix_cam, hi]) (by rw [Chip.eccFix_cam, hf]) hroom,
    Chip.eccFix_ttu] at hp
  exact .of_tally (longPacket_exec s p h bs crc) hp

end

/-- The first packet of embedded data is kept. -/
theorem longPacket_keeps_embedded (hs : s.settled = true) (hdt : bitsOf x 5 0 = 0x12) :
    Does (.longPacket p (some h) bs crc) s ((s.chip.eccFix p fixed).frameGot p
      { f with emb := some (f.emb.getD ((bs.take (bitsOf x 23 8)).take 32)) } s.chip.ttu.index) := by
  have hq := ((State.settled_iff.mp hs).eccFix p fixed).onCam p
  refine .intro (longPacket_exec s p h bs crc) ((Chip.packet_long s.env bs crc he hb hi (by rw [hdt]; rfl)).trans ?_)
    (hq _).intake (hq _).lostPend
  rw [decide_eq_true hdt, Chip.boundLong_embedded (by rw [Chip.eccFix_cam, hi]) (by rw [Chip.eccFix_cam, hf]), Chip.eccFix_ttu]

end

/-- A frame whose last packet lies FRAME_TMO ticks back is closed, with FRAME_TMO. -/
theorem frameTmo_closes {s : State} {p : Fin 16} {f : CamFrame} (hf : s.chip.cam[p].frame = some f)
    (hctrl : s.chip.fld (Reg.CAM_CTRL p) 2 1 ≠ 1) (hn : s.chip.fld (Reg.CAM_FRAME_CFG p) 31 16 ≠ 0)
    (hlate : f.lastPkt + s.chip.fld (Reg.CAM_FRAME_CFG p) 31 16 ≤ s.chip.ttu.index) :
    Logs (.frameTmo p) s ((s.chip.frameClosed p f true s.chip.ttu.index).camSticky p cfFRAME_TMO) := by
  let d := s.chip.frameClosed p f true s.chip.ttu.index
  have hx : exec (.frameTmo p) s = .next (s.act fun e c =>
    let n := c.fld (Reg.CAM_FRAME_CFG p) 31 16
    match (c.cam[p]).frame with
    | none => c
    | some f => if n ≠ 0 ∧ f.lastPkt + n ≤ c.ttu.index then (c.closeFrame e p true true).camFlag p cfFRAME_TMO 0 else c) := rfl
  have hrec : Recorded (d.camSticky p cfFRAME_TMO) ((d.tally blkCAM 0x10 p 1).camSticky p cfFRAME_TMO) :=
    (d.camSticky p cfFRAME_TMO).tally_recorded blkCAM 0x10 p 1
  have huns : Unsent (d.camSticky p cfFRAME_TMO) ((d.tally blkCAM 0x10 p 1).camSticky p cfFRAME_TMO) :=
    (d.camSticky p cfFRAME_TMO).tally_unsent blkCAM 0x10 p 1
  refine .intro hx ?_ ?_
  · simp only [hf, hn, hlate, ne_eq, not_false_eq_true, and_self, if_true, Chip.closeFrame_unbuffered s.env hf hctrl]
    exact hrec.trans (Chip.camFlag_recorded ..)
  · simp only [hf, hn, hlate, ne_eq, not_false_eq_true, and_self, if_true, Chip.closeFrame_unbuffered s.env hf hctrl]
    exact huns.trans (Chip.camFlag_unsent ..)

/-- Settles O35: packets dropped before they count, FS over an idle pipeline or a frame, and what the frame in hand takes. -/
theorem framesOpenFillAndClose : Obligations.FramesOpenFillAndClose := by
  intro s p h bs crc hs
  refine ⟨fun ht => ⟨received_drops hs ht, longPacket_unheaded_drops hs ht⟩, fun x fixed he => ⟨?_, fun hb => ⟨?_, ?_, ?_⟩⟩⟩
  · exact fun ho hb => received_counts_foreign hs he ho hb
  · rintro hdt (hi | ⟨hi, hf⟩)
    · obtain ⟨t, hx, ⟨b, hready, hrec⟩, hmem⟩ := frameStart_opens_idle he hb hs hdt hi
      obtain ⟨hstate, hgap, hseq, hshown, hframe, hother⟩ := hready.opens hrec
      exact ⟨t, hx, hstate, hgap, hseq, hshown, hframe, fun hin => absurd (hi.symm.trans hin) (by decide), hother,
        fun _ => hmem⟩
    · obtain ⟨t, hx, ⟨b, hready, hrec⟩, hflag⟩ := frameStart_opens_inFrame he hb hdt hi hf
      obtain ⟨hstate, hgap, hseq, hshown, hframe, hother⟩ := hready.opens hrec
      exact ⟨t, hx, hstate, hgap, hseq, hshown, hframe, fun _ => hflag, hother,
        fun hidle => absurd (hi.symm.trans hidle) (by decide)⟩
  · exact fun hdt hi => frameEnd_orphaned he hb hs hdt hi
  · intro f hi hf
    refine ⟨?_, ?_, fun hsh hemb hroom => ⟨?_, ?_⟩, ?_⟩
    · exact fun hdt hctrl => frameEnd_closes he hb hi hf hdt hctrl
    · exact fun hctrl hn hlate => frameTmo_closes hf hctrl hn hlate
    · exact fun hgood px hpx hw => longPacket_adds_line he hb hi hf hsh hemb hroom hgood hpx hw
    · exact fun hbad => longPacket_adds_pad he hb hi hf hsh hemb hroom hbad
    · exact fun hdt => longPacket_keeps_embedded he hb hi hf hs hdt

end Sys2Proof.Machine
end

section
/-! PROOF. Feature records (R191, R213) in a state that the statement allows: the record of an accumulation turned away
reaches an EVENT ring. -/

namespace Sys2Proof.Machine

/-- The settings and the one pixel of a frame with one blob at the centre of the field. -/
def spotCfg : CamCfg where
  dt := 0x2A
  width := 1
  height := 1
  pad := 0
  black := 0
  thresh := 1
  assoc := 1
  rois := [⟨0, 0, 0, 1, 1⟩]
  defects := []
  heads := 1
  m00 := 0
  m01 := 0
  m10 := 0
  m11 := 0
  tx := 0
  ty := 0

/-- That frame, received whole in tick 0. -/
def spotFrame : CamFrame where
  cfg := spotCfg
  seq := 0
  gen := 0
  expUnits := 0
  uncertain := false
  fn := 0
  soeTick := 0
  soeSub := 0
  early := false
  lines := [[1]]
  emb := none
  lastPkt := 0
  damaged := false
  short := false
  cut := false
  fixed := false
  closeTick := 0
  buf := none

/-- The frame is closed on pipeline 0, under head 0 with its laser on. Temper learns a grid of one cell, and a LOADED lease
guards the cell's accumulator. Ring 0 is an enabled EVENT ring of host memory that takes every record, and coalescing is
off. -/
def guardedLearning : State :=
  let c := ((Chip.reset.wrn (Reg.HST_RING_CFG 0) 5).wrn Reg.EVR_COAL_CFG 0).wrn Reg.MPC_TMP_TARGET 1
  let c := (c.onCam 0 fun k => { k with closed := [spotFrame] }).onRing 0 fun g => { g with state := .enabled }
  let c := c.onLease 0 fun l => { l with state := .loaded, base := accAddr 0, len := 8 }
  let c := c.onTemper fun t => { t with phase := .learning, learnGrid := some ⟨1, 1, 0, 0⟩ }
  { State.reset with chip := { c with camShared := { c.camShared with hist := [(0, [some ⟨0, 0, true, 0⟩])] } } }

theorem guardedLearning_closes : guardedLearning.settled = true ∧ guardedLearning.chip.cam[(0 : Fin 16)].closed = [spotFrame] ∧
    guardedLearning.chip.camRing 4 (0 : Fin 16) = none := by
  and_intros <;> decide +kernel

/-- The record's accumulation is dropped with INT_DROP (R93), whose FLAG record the EVENT ring receives at address 0. -/
theorem guardedLearning_host :
    Memory.read dramDefault (guardedLearning.act fun e c => c.featureRecords e 0).mem.host 3 = 1 := by
  decide +kernel

/-- Refutes O36: FEATURE_RECORD does not leave host memory alone where the lease guard turns an accumulation away and an
EVENT ring is enabled. -/
theorem not_exposuresAndFeatureRecords : ¬ Obligations.ExposuresAndFeatureRecords := by
  intro h
  obtain ⟨hs, hclosed, hring⟩ := guardedLearning_closes
  obtain ⟨-, -, -, hrecord⟩ := h guardedLearning .host 0 0 hs
  obtain ⟨t, hx, -, -, -, hhost, -⟩ := hrecord spotFrame [] hclosed rfl hring
  have ht : guardedLearning.act (fun e c => c.featureRecords e 0) = t := Host.Outcome.next.inj hx
  have hread := guardedLearning_host
  rw [ht, hhost] at hread
  exact absurd hread (by decide)

end Sys2Proof.Machine
end
